-- ==== Sys2Proof/Word.lean ====
section
/-! DEFINITION. The word types of the FS2048 model: registers, scalars and bytes (R4, R5). -/
namespace Sys2Proof

/-- A register, a scalar S register or a 64-bit quantity of the manual (R5). -/
abbrev Word := BitVec 64

/-- One byte of memory or of a wire format. -/
abbrev Byte := BitVec 8

end Sys2Proof
end

