-- ==== Sys2Proof/Syntax.lean ====
section
/-! DEFINITION. The commands: one constructor for each row of the command table, with what the outside supplies. The table
gives no row any bits. -/
namespace Sys2Proof

/-- What the ECC of a memory finds in the 64-bit words that an access reads, by word number (address divided by 8):
corrected errors and uncorrectable errors (R424, R434). -/
structure Ecc where
  ce : List Nat
  uc : List Nat
  deriving DecidableEq, Repr

/-- How a memory instruction fails on its way: not at all, at an isolated block, or by timeout, with the offset of the
first piece that failed (R136, R180). -/
inductive MemFail where
  | nothing
  | isolated (off : Nat)
  | timeout (off : Nat)
  deriving DecidableEq, Repr

/-- Where the output buffer's check finds a packet's stored copy bad: nowhere, before its first flit is sent, or later
(R352). -/
inductive BufErr where
  | none
  | first
  | later
  deriving DecidableEq, Repr

/-- A lane's frame as its receiver has sampled it (R383, R384): the lane within its port; the 43,690 line bits, the first
lowest; for each inner block the bit that moving its least reliable symbol to its second most likely level would change; and,
for a lane that carries no link stream, the bit errors that its checker finds meanwhile (R399). -/
structure LaneFrame where
  lane : Nat
  line : Nat
  weak : List Nat
  prbs : Nat
  deriving DecidableEq, Repr

/-- What SPD and training tell of a DDR5 channel (R436, R438). -/
structure DdrModule where
  present : Bool
  trains : Bool
  sizeGib : Nat
  rating : BitVec 2
  ranks : Nat
  deriving DecidableEq, Repr

/-- A packet as it is received, and whether the hardware finds a fault of its own while it takes it in: the state of the
stream's context reads as uncorrectable (R297). -/
structure Received where
  bytes : List Byte
  fault : Bool
  deriving DecidableEq, Repr

/-- An answer as it is received, and the residue mismatches that the engine which combines what it completes meets by itself
(R76). -/
structure Answered where
  bytes : List Byte
  residue : Nat
  deriving DecidableEq, Repr

/-- What the memory's code finds, and how many residue mismatches an engine meets by itself, while an operation runs (R88,
R76). -/
structure Found where
  ecc : Ecc
  residue : Nat
  deriving DecidableEq, Repr

/-- The residue mismatches that the gating of a group meets by itself, in the crosshatch unit and in the hatch engine (R76,
R278). -/
structure GateFound where
  unit : Nat
  hatch : Nat
  deriving DecidableEq, Repr

/-- The commands. -/
inductive Instr where
  /-- Scalar instruction that does nothing (R138). -/
  | nop (tile : Fin 64) (thread : Fin 128) (w : BitVec 119)
  /-- Scalar instruction that writes op2 to S[D] (R138). -/
  | mov (tile : Fin 64) (thread : Fin 128) (w : BitVec 119)
  /-- Scalar instruction that writes S[A] + op2, modulo 2^64, to S[D] (R138). -/
  | add (tile : Fin 64) (thread : Fin 128) (w : BitVec 119)
  /-- Scalar instruction that writes S[A] − op2, modulo 2^64, to S[D] (R138). -/
  | sub (tile : Fin 64) (thread : Fin 128) (w : BitVec 119)
  /-- Scalar instruction that writes the low 64 bits of S[A] × op2 to S[D] (R138). -/
  | mul (tile : Fin 64) (thread : Fin 128) (w : BitVec 119)
  /-- Scalar instruction that writes the high 64 bits of the unsigned 128-bit product to S[D] (R138). -/
  | mulhu (tile : Fin 64) (thread : Fin 128) (w : BitVec 119)
  /-- Scalar instruction that writes the high 64 bits of the signed 128-bit product to S[D] (R138). -/
  | mulhs (tile : Fin 64) (thread : Fin 128) (w : BitVec 119)
  /-- Scalar instruction that writes the bitwise AND of S[A] and op2 to S[D] (R138). -/
  | and (tile : Fin 64) (thread : Fin 128) (w : BitVec 119)
  /-- Scalar instruction that writes the bitwise OR of S[A] and op2 to S[D] (R138). -/
  | or (tile : Fin 64) (thread : Fin 128) (w : BitVec 119)
  /-- Scalar instruction that writes the bitwise XOR of S[A] and op2 to S[D] (R138). -/
  | xor (tile : Fin 64) (thread : Fin 128) (w : BitVec 119)
  /-- Scalar instruction that shifts S[A] left by op2[5:0] and writes the result to S[D] (R138). -/
  | shl (tile : Fin 64) (thread : Fin 128) (w : BitVec 119)
  /-- Scalar instruction that shifts S[A] right by op2[5:0], with zeros entering, and writes the result to S[D]
  (R138). -/
  | shr (tile : Fin 64) (thread : Fin 128) (w : BitVec 119)
  /-- Scalar instruction that shifts S[A] right by op2[5:0], with the sign entering, and writes the result to S[D]
  (R138). -/
  | sar (tile : Fin 64) (thread : Fin 128) (w : BitVec 119)
  /-- Scalar instruction that writes the signed minimum of S[A] and op2 to S[D] (R138). -/
  | mins (tile : Fin 64) (thread : Fin 128) (w : BitVec 119)
  /-- Scalar instruction that writes the signed maximum of S[A] and op2 to S[D] (R138). -/
  | maxs (tile : Fin 64) (thread : Fin 128) (w : BitVec 119)
  /-- Scalar instruction that writes the unsigned minimum of S[A] and op2 to S[D] (R138). -/
  | minu (tile : Fin 64) (thread : Fin 128) (w : BitVec 119)
  /-- Scalar instruction that writes the unsigned maximum of S[A] and op2 to S[D] (R138). -/
  | maxu (tile : Fin 64) (thread : Fin 128) (w : BitVec 119)
  /-- Scalar instruction that writes 1 to S[D] if S[A] equals op2, and 0 otherwise (R138). -/
  | seq (tile : Fin 64) (thread : Fin 128) (w : BitVec 119)
  /-- Scalar instruction that writes 1 to S[D] if S[A] < op2 in signed order, and 0 otherwise (R138). -/
  | slt (tile : Fin 64) (thread : Fin 128) (w : BitVec 119)
  /-- Scalar instruction that writes 1 to S[D] if S[A] < op2 in unsigned order, and 0 otherwise (R138). -/
  | sltu (tile : Fin 64) (thread : Fin 128) (w : BitVec 119)
  /-- Scalar instruction that reads the hatch and crosshatch sticky flags into S[D] (R140). -/
  | rdflag (tile : Fin 64) (thread : Fin 128) (w : BitVec 119)
  /-- Scalar instruction that clears the sticky flags selected by op2[7:0] (R140). -/
  | clrflag (tile : Fin 64) (thread : Fin 128) (w : BitVec 119)
  /-- Scalar instruction that reads the local global count into S[D] (R138). -/
  | rdcnt (tile : Fin 64) (thread : Fin 128) (w : BitVec 119)
  /-- Unconditional branch to IMM[13:0] (R139). -/
  | br (tile : Fin 64) (thread : Fin 128) (w : BitVec 119)
  /-- Branch to IMM[13:0] if S[A] equals S[B] (R139). -/
  | beq (tile : Fin 64) (thread : Fin 128) (w : BitVec 119)
  /-- Branch to IMM[13:0] if S[A] differs from S[B] (R139). -/
  | bne (tile : Fin 64) (thread : Fin 128) (w : BitVec 119)
  /-- Branch to IMM[13:0] if S[A] < S[B] in signed order (R139). -/
  | blt (tile : Fin 64) (thread : Fin 128) (w : BitVec 119)
  /-- Branch to IMM[13:0] if S[A] < S[B] in unsigned order (R139). -/
  | bltu (tile : Fin 64) (thread : Fin 128) (w : BitVec 119)
  /-- Branch to IMM[13:0] if S[A] ≥ S[B] in signed order (R139). -/
  | bge (tile : Fin 64) (thread : Fin 128) (w : BitVec 119)
  /-- Branch to IMM[13:0] if S[A] ≥ S[B] in unsigned order (R139). -/
  | bgeu (tile : Fin 64) (thread : Fin 128) (w : BitVec 119)
  /-- Writes PC + 1 to S[D], then branches to IMM[13:0] (R139). -/
  | brl (tile : Fin 64) (thread : Fin 128) (w : BitVec 119)
  /-- Branch to the target held in S[A][13:0] (R139). -/
  | jr (tile : Fin 64) (thread : Fin 128) (w : BitVec 119)
  /-- Blocks the thread until the named ticket completes, then writes the status word and retires the ticket (R98).
  -/
  | wait (tile : Fin 64) (thread : Fin 128) (w : BitVec 119)
  /-- Blocks until any held ticket has completed, then retires the completed ticket with the lowest ENTRY (R99). -/
  | waitany (tile : Fin 64) (thread : Fin 128) (w : BitVec 119)
  /-- Writes the named ticket's status word, or PENDING, without blocking and without retiring the ticket (R100). -/
  | test (tile : Fin 64) (thread : Fin 128) (w : BitVec 119)
  /-- Blocks the thread until every earlier ticket of the thread has completed (R103). -/
  | fence (tile : Fin 64) (thread : Fin 128) (w : BitVec 119)
  /-- Blocks the thread until the local global count reaches a target count (R112). -/
  | launchat (tile : Fin 64) (thread : Fin 128) (w : BitVec 119)
  /-- The global count reaches a LAUNCHAT target; the thread becomes ready and receives the release count with its
  UNSYNC and LATE bits (R113). -/
  | launchatRelease (tile : Fin 64) (thread : Fin 128)
  /-- Ends the issuing thread, which drains and then becomes FREE (R121). -/
  | halt (tile : Fin 64) (thread : Fin 128) (w : BitVec 119)
  /-- Hatch instruction that adds VA and the second operand lane by lane (R146). -/
  | vadd (tile : Fin 64) (thread : Fin 128) (w : BitVec 119)
  /-- Hatch instruction that subtracts the second operand from VA lane by lane (R146). -/
  | vsub (tile : Fin 64) (thread : Fin 128) (w : BitVec 119)
  /-- Hatch instruction that multiplies VA by the second operand lane by lane (R146). -/
  | vmul (tile : Fin 64) (thread : Fin 128) (w : BitVec 119)
  /-- Hatch instruction that computes VA × y + VC lane by lane, rounding as R55 states (R146). -/
  | vmad (tile : Fin 64) (thread : Fin 128) (w : BitVec 119)
  /-- Hatch instruction that takes the lane-wise maximum of VA and the second operand (R146). -/
  | vmax (tile : Fin 64) (thread : Fin 128) (w : BitVec 119)
  /-- Hatch instruction that takes the lane-wise minimum of VA and the second operand (R146). -/
  | vmin (tile : Fin 64) (thread : Fin 128) (w : BitVec 119)
  /-- Hatch instruction that takes the lane-wise AND of integer operands (R146). -/
  | vand (tile : Fin 64) (thread : Fin 128) (w : BitVec 119)
  /-- Hatch instruction that takes the lane-wise OR of integer operands (R146). -/
  | vor (tile : Fin 64) (thread : Fin 128) (w : BitVec 119)
  /-- Hatch instruction that takes the lane-wise XOR of integer operands (R146). -/
  | vxor (tile : Fin 64) (thread : Fin 128) (w : BitVec 119)
  /-- Hatch instruction that writes the magnitude of VA (R146). -/
  | vabs (tile : Fin 64) (thread : Fin 128) (w : BitVec 119)
  /-- Hatch instruction that writes the negation of VA (R146). -/
  | vneg (tile : Fin 64) (thread : Fin 128) (w : BitVec 119)
  /-- Hatch instruction that writes the reciprocal of VA by the fixed algorithm (R154). -/
  | vrcp (tile : Fin 64) (thread : Fin 128) (w : BitVec 119)
  /-- Hatch instruction that writes the reciprocal square root of VA by the fixed algorithm (R155). -/
  | vrsq (tile : Fin 64) (thread : Fin 128) (w : BitVec 119)
  /-- Hatch instruction that converts VA from FA to FD, optionally with a fixed block scale code (R144). -/
  | vcvt (tile : Fin 64) (thread : Fin 128) (w : BitVec 119)
  /-- Hatch instruction that compares VA with the second operand lane by lane and writes a mask register (R148). -/
  | vcmp (tile : Fin 64) (thread : Fin 128) (w : BitVec 119)
  /-- Hatch instruction that selects each lane raw from VA or VB by a mask (R146). -/
  | vsel (tile : Fin 64) (thread : Fin 128) (w : BitVec 119)
  /-- Hatch instruction that broadcasts a scalar or immediate into the active lanes of VD (R146). -/
  | vbcst (tile : Fin 64) (thread : Fin 128) (w : BitVec 119)
  /-- Hatch instruction that extracts one lane of VA into a scalar register (R147). -/
  | vext (tile : Fin 64) (thread : Fin 128) (w : BitVec 119)
  /-- Hatch instruction that writes each lane's own index into that lane (R146). -/
  | vidx (tile : Fin 64) (thread : Fin 128) (w : BitVec 119)
  /-- Hatch instruction that reduces the active lanes of VA into lane 0 by the fixed tree (R150). -/
  | vred (tile : Fin 64) (thread : Fin 128) (w : BitVec 119)
  /-- Hatch instruction that reduces a T register along one axis into VD (R151). -/
  | tred (tile : Fin 64) (thread : Fin 128) (w : BitVec 119)
  /-- Hatch instruction that copies one row of a T register into VD (R146). -/
  | trow (tile : Fin 64) (thread : Fin 128) (w : BitVec 119)
  /-- Hatch instruction that writes VA into one row of a T register (R146). -/
  | tput (tile : Fin 64) (thread : Fin 128) (w : BitVec 119)
  /-- Hatch instruction that selects the k largest elements of VA and writes their values and lane numbers (R153).
  -/
  | vtopk (tile : Fin 64) (thread : Fin 128) (w : BitVec 119)
  /-- Writes the AND of two mask registers (R146). -/
  | mand (tile : Fin 64) (thread : Fin 128) (w : BitVec 119)
  /-- Writes the OR of two mask registers (R146). -/
  | mor (tile : Fin 64) (thread : Fin 128) (w : BitVec 119)
  /-- Writes the XOR of two mask registers (R146). -/
  | mxor (tile : Fin 64) (thread : Fin 128) (w : BitVec 119)
  /-- Writes the complement of a mask register (R146). -/
  | mnot (tile : Fin 64) (thread : Fin 128) (w : BitVec 119)
  /-- Writes a mask register with ones below the IMM position and zeros above (R146). -/
  | msetp (tile : Fin 64) (thread : Fin 128) (w : BitVec 119)
  /-- Writes the number of ones in a mask register to a scalar register (R147). -/
  | mpop (tile : Fin 64) (thread : Fin 128) (w : BitVec 119)
  /-- Stroke chain that applies up to eight stages to a V register and writes the result once (R160). -/
  | chain (tile : Fin 64) (thread : Fin 128) (w : BitVec 119)
  /-- Stroke chain that applies its stages to each of the 16 rows of a T register (R162). -/
  | chaint (tile : Fin 64) (thread : Fin 128) (w : BitVec 119)
  /-- Crosshatch instruction that multiplies rows of a T register by a matrix held in a plate (R165). -/
  | xmm (tile : Fin 64) (thread : Fin 128) (w : BitVec 119)
  /-- Loads 256 elements from memory into a V register in lane form (R174). -/
  | ldv (tile : Fin 64) (thread : Fin 128) (w : BitVec 119)
  /-- Stores the active lanes of a V register to memory in plane form (R175). -/
  | stv (tile : Fin 64) (thread : Fin 128) (w : BitVec 119)
  /-- Loads rows of a T register from strided memory (R176). -/
  | ldt (tile : Fin 64) (thread : Fin 128) (w : BitVec 119)
  /-- Stores rows of a T register to strided memory (R176). -/
  | stt (tile : Fin 64) (thread : Fin 128) (w : BitVec 119)
  /-- Loads an 8-byte word into a scalar register (R177). -/
  | lds (tile : Fin 64) (thread : Fin 128) (w : BitVec 119)
  /-- Stores a scalar register as an 8-byte word (R177). -/
  | sts (tile : Fin 64) (thread : Fin 128) (w : BitVec 119)
  /-- Atomically adds a 32-bit value to a plate word, optionally returning the old value (R178). -/
  | aadd (tile : Fin 64) (thread : Fin 128) (w : BitVec 119)
  /-- Atomically swaps a 32-bit value with a plate word and returns the old value (R178). -/
  | aswp (tile : Fin 64) (thread : Fin 128) (w : BitVec 119)
  /-- Launches an all-reduce collective (R220). -/
  | ared (tile : Fin 64) (thread : Fin 128) (w : BitVec 119)
  /-- Launches a reduce-scatter collective (R220). -/
  | rsct (tile : Fin 64) (thread : Fin 128) (w : BitVec 119)
  /-- Launches an all-gather collective (R220). -/
  | agth (tile : Fin 64) (thread : Fin 128) (w : BitVec 119)
  /-- Launches a broadcast from a root rank (R220). -/
  | bcst (tile : Fin 64) (thread : Fin 128) (w : BitVec 119)
  /-- Launches a reduce to a root rank (R220). -/
  | redu (tile : Fin 64) (thread : Fin 128) (w : BitVec 119)
  /-- Launches a padded all-to-all with a count array at each receiver (R222). -/
  | a2av (tile : Fin 64) (thread : Fin 128) (w : BitVec 119)
  /-- Launches an all-gather whose pieces are multiplied by resident matrices as they land (R223). -/
  | agmm (tile : Fin 64) (thread : Fin 128) (w : BitVec 119)
  /-- Launches an all-reduce that applies a stroke chain at the top switch (R226). -/
  | arap (tile : Fin 64) (thread : Fin 128) (w : BitVec 119)
  /-- Launches routed dispatch of tokens to their top-k experts (R251). -/
  | disp (tile : Fin 64) (thread : Fin 128) (w : BitVec 119)
  /-- Launches the weighted combine of the experts' answers for a DISP (R268). -/
  | comb (tile : Fin 64) (thread : Fin 128) (w : BitVec 119)
  /-- Writes local data to a remote endpoint on an ordered stream (R185). -/
  | put (tile : Fin 64) (thread : Fin 128) (w : BitVec 119)
  /-- Reads remote data into local memory on an ordered stream (R185). -/
  | get (tile : Fin 64) (thread : Fin 128) (w : BitVec 119)
  /-- Posts a 16-byte record to a stylus completion ring (R186). -/
  | notify (tile : Fin 64) (thread : Fin 128) (w : BitVec 119)
  /-- An engine starts a queued instruction once the scoreboard no longer holds it (R90). -/
  | engineStart (tile : Fin 64) (engine : Fin 3) (ecc : Ecc)
  /-- A hatch or chain instruction finishes; its result is written and its ticket completes, with any residue check
  outcome (R187). -/
  | hatchComplete (tile : Fin 64) (entry : Fin 512) (residue : Nat)
  /-- An XMM finishes, or ends on refusal or a poisoned line, and its ticket completes (R169). -/
  | xmmComplete (tile : Fin 64) (entry : Fin 512) (ecc : Ecc) (residue : Nat)
  /-- A memory operation's data is known to have arrived, or the operation has failed, and its ticket completes
  (R106). -/
  | memoryComplete (tile : Fin 64) (entry : Fin 512) (ecc : Ecc) (fail : MemFail)
  /-- The burin core has issued nothing for TILE_WDOG.PERIOD while a thread was ready, so the core is isolated and
  reset (R123). -/
  | tileWatchdogFire (tile : Fin 64)
  /-- GO with OP none on TILE_IMG_CMD performs nothing (R607). -/
  | imgCmdNone (tile : Fin 64) (slot : Fin 4)
  /-- Starts loading and verifying a program image into a slot (R119). -/
  | imgLoad (tile : Fin 64) (slot : Fin 4)
  /-- Reading and verifying the image ends; resources are reserved and the result is posted (R119). -/
  | imgLoadDone (tile : Fin 64) (ecc : Ecc)
  /-- Starts the threads of a LOADED image (R120). -/
  | imgStart (tile : Fin 64) (slot : Fin 4)
  /-- Ends every thread of a running slot (R121). -/
  | imgStop (tile : Fin 64) (slot : Fin 4)
  /-- Releases a loaded slot's resources and zeroes its granted registers (R121). -/
  | imgUnload (tile : Fin 64) (slot : Fin 4)
  /-- GO with OP none on GLB_COMM_CMD performs nothing (R607). -/
  | commCmdNone (comm : BitVec 20)
  /-- Reads and checks a communicator descriptor and reserves its staging quota (R192). -/
  | commCreate (comm : BitVec 20)
  /-- Starts the agreement of a RESERVED communicator with its level groups (R194). -/
  | commArm (comm : BitVec 20)
  /-- Releases a communicator's quota and returns its ID to EMPTY (R192). -/
  | commDestroy (comm : BitVec 20)
  /-- Returns a FAULTED communicator to ACTIVE with a new next sequence number (R192). -/
  | commReset (comm : BitVec 20)
  /-- Reports a communicator's state and next sequence number (R192). -/
  | commQuery (comm : BitVec 20)
  /-- An agreement digest arrives from a group switch; ARM ends OK or with AGREE once every digest is known (R194).
  -/
  | digestReceive (bytes : List Byte)
  /-- ARM has heard nothing for GLB_COMM_TIMEOUT.LIMIT and ends with ARM_TIMEOUT (R194). -/
  | armTimeout (comm : BitVec 20)
  /-- A member's contribution packet arrives and is staged against a credit, or discarded if uncredited (R199). -/
  | contribReceive (bytes : List Byte)
  /-- A partial from a ring neighbour arrives and is staged (R213). -/
  | partialReceive (bytes : List Byte) (agree : Bool)
  /-- A result chunk from a higher level arrives and is relayed down (R213). -/
  | resultReceive (bytes : List Byte) (agree : Bool)
  /-- A chunk credit packet from a ring neighbour arrives (R206). -/
  | creditReceive (bytes : List Byte)
  /-- A chunk's inputs for a step are staged, so an engine combines them and passes the chunk on (R212). -/
  | chunkCombine (comm : BitVec 20) (seq : BitVec 32) (chunk : BitVec 32) (ecc : Ecc) (residue : Nat)
  /-- An operation that has made no progress for GLB_COMM_TIMEOUT.LIMIT ends with TIMEOUT (R229). -/
  | collectiveTimeout (comm : BitVec 20) (seq : BitVec 32)
  /-- A landed AGMM piece is multiplied into each member's running product, in rank order when deterministic (R225).
  -/
  | agmmPieceMultiply (comm : BitVec 20) (seq : BitVec 32) (rank : Fin 65536) (found : Found)
  /-- A source's token message arrives and is staged (R242). -/
  | tokenReceive (bytes : List Byte)
  /-- All tokens of a gating group have arrived or are known absent, so the group's gating starts (R253). -/
  | gatingGroupStart (comm : BitVec 20) (seq : BitVec 32) (group : BitVec 32)
  /-- A group's logits are computed; its experts are selected, its gate values formed and its capacity decided
  (R255). -/
  | gatingGroupDone (comm : BitVec 20) (seq : BitVec 32) (group : BitVec 32) (ecc : Ecc) (residue : GateFound)
  /-- An expert's answer arrives and is written into the answer area, or discarded as stray or late (R270). -/
  | answerReceive (got : Answered)
  /-- GO with OP none on GLB_GATE_CMD performs nothing (R607). -/
  | gateCmdNone (slot : Fin 16)
  /-- Starts paging a gating library entry into an EMPTY slot (R247). -/
  | gateLoad (slot : Fin 16)
  /-- Moves a RESIDENT slot to EVICTING (R247). -/
  | gateEvict (slot : Fin 16)
  /-- Protects a RESIDENT slot from automatic eviction (R247). -/
  | gatePin (slot : Fin 16)
  /-- Removes a slot's protection from automatic eviction (R247). -/
  | gateUnpin (slot : Fin 16)
  /-- Every plate holds the whole entry, so the slot becomes RESIDENT and waiting DISPs proceed (R248). -/
  | pageInDone (slot : Fin 16) (ecc : Ecc)
  /-- GO with OP none on GLB_PAUSE_CMD performs nothing (R607). -/
  | pauseCmdNone (comm : BitVec 20)
  /-- Arms the pause of a communicator at count AT (R541). -/
  | pause (comm : BitVec 20) (quiet : BitVec 16)
  /-- The count reaches AT; the communicator stops returning credits and starting steps (R542). -/
  | pauseAt (comm : BitVec 20)
  /-- Retained packets are acknowledged and AT + QUIET_US has passed, so the save record starts to be written
  (R542). -/
  | pauseSaveStart (comm : BitVec 20)
  /-- The save record is confirmed; accepted collectives complete with PAUSED (R542). -/
  | pauseSaveDone (comm : BitVec 20)
  /-- Checks a save record against the communicator and starts loading it (R546). -/
  | resume (comm : BitVec 20)
  /-- The staged state is loaded; NEXT_SEQ is set and credits are brought to WINDOW (R546). -/
  | resumeLoadDone (ecc : Ecc)
  /-- A fabric packet arrives at a switch and is checked, routed, admitted or resequenced (R293); its fault is that the
  state of its stream's context reads as uncorrectable (R297). -/
  | packetArrive (port : Fin 26) (got : Received)
  /-- A refused non-BE packet waiting in a receive buffer is offered for admission again (R347). -/
  | packetAdmitRetry (source : Fin 30) (place : Nat)
  /-- The state of a non-resident queue arrives from HBM and waiting packets join the queue (R354). -/
  | queueStateFill (tile : Fin 64) (queue : BitVec 14)
  /-- The port scheduler selects the next eligible packet and transmits it (R357). -/
  | packetTransmit (port : Fin 26) (err : BufErr)
  /-- A held packet's hold reaches HOLD_US and the packet is discarded (R349). -/
  | holdExpire (tile : Fin 64) (place : Nat)
  /-- PUT_DATA to a plates endpoint is admitted by ownership and written, or refused (R427). -/
  | putDataReceive (bytes : List Byte)
  /-- GET_REQ to a plates endpoint is admitted and answered with GET_DATA, or refused (R427). -/
  | getReqReceive (bytes : List Byte) (ecc : Ecc)
  /-- Returned GET_DATA is written locally for a GET (R185). -/
  | getDataReceive (bytes : List Byte)
  /-- An acknowledgement ends retention of the packets it covers and releases what waited on them (R300). -/
  | ackReceive (bytes : List Byte)
  /-- A NACK makes the source act on its reason: re-send, restart or stop (R302). -/
  | nackReceive (bytes : List Byte)
  /-- A stream's re-send timer expires; every retained packet is sent again (R303). -/
  | retxTimerExpire (src dst : BitVec 16) (cls : Fin 8) (comm : BitVec 20)
  /-- The acknowledgement delay limit of a stream expires and an ACK is sent (R300). -/
  | ackTimerExpire (tile : Fin 64) (src dst : BitVec 16) (cls : Fin 8) (comm : BitVec 20)
  /-- A stream context without packets ages out after IDLE_MS without arrivals (R297). -/
  | contextAgeOut (tile : Fin 64) (src dst : BitVec 16) (cls : Fin 8) (comm : BitVec 20)
  /-- GO with OP none on RT_CMD performs nothing (R607). -/
  | rtCmdNone (group : Fin 16)
  /-- Holds new ingress packets of a drain group (R319). -/
  | rtHold (group : Fin 16)
  /-- Releases a held drain group (R318). -/
  | rtRelease (group : Fin 16)
  /-- Loads a route table image into all four copies (R329). -/
  | rtLoad (group : Fin 16)
  /-- Opens the switch for data service (R325). -/
  | rtOpen (group : Fin 16)
  /-- Writes a route entry into all four copies, refusing forbidden changes on a live fabric (R317). -/
  | rtEntryWrite (dst : BitVec 16) (v : Word)
  /-- A DISCOVER payload updates the neighbour view, wiring checks, Z ring and port state (R325). -/
  | discoverReceive (port : Fin 26) (bytes : List Byte)
  /-- Every 10 ms a port in MGMT or UP sends DISCOVER (R321). -/
  | discoverTimer
  /-- A Z position silent for 1.5 s after training is marked absent (R323). -/
  | zAbsenceTimeout (z : Fin 9)
  /-- A forwarded management request is performed at its target and answered with MGT_RSP (R486). -/
  | mgtReqReceive (bytes : List Byte) (ecc : Ecc)
  /-- A management response returns to the control node as RDCPL or WRACK (R486). -/
  | mgtRspReceive (bytes : List Byte)
  /-- An unanswered MGT_REQ is repeated every 50 µs, ending with TIMEOUT after four repeats (R487). -/
  | mgtReqRepeat (port : Fin 2) (tag : BitVec 16)
  /-- Every millisecond a TIME request is sent on every port in MGMT or UP (R532). -/
  | timeExchangeTimer
  /-- A TIME request is answered at once with a stamped response (R532). -/
  | timeRequestReceive (port : Fin 26) (bytes : List Byte)
  /-- A TIME response yields offset and delay; the parent choice, rate and SYNCED are updated (R534). -/
  | timeResponseReceive (port : Fin 26) (bytes : List Byte)
  /-- No parent exchange has succeeded for HOLDOVER_MS, so SYNCED clears (R536). -/
  | holdoverExpire
  /-- A port frame is decoded, deskewed and its flits enter the link, or it is found bad (R384). -/
  | portFrameReceive (port : Fin 26) (frames : List LaneFrame)
  /-- An IDLE control flit is received (R390). -/
  | idleFlit (port : Fin 26) (flit : BitVec 256)
  /-- A CREDIT_LO flit updates cumulative credits of VCs 0 to 11 and ACK_FSEQ (R391). -/
  | creditLo (port : Fin 26) (flit : BitVec 256)
  /-- A CREDIT_HI flit updates cumulative credits of VCs 12 to 23 and ACK_FSEQ (R391). -/
  | creditHi (port : Fin 26) (flit : BitVec 256)
  /-- A RETRY flit starts or restarts a replay from its retry buffer (R395). -/
  | retryFlit (port : Fin 26) (flit : BitVec 256)
  /-- A WIDTH flit announces a new lane mask from a named frame (R388). -/
  | widthFlit (port : Fin 26) (flit : BitVec 256)
  /-- A TEST flit starts or stops PRBS on a lane under self-test (R400). -/
  | testFlit (port : Fin 26) (flit : BitVec 256)
  /-- An LPI flit requests, accepts, refuses or wakes a lane group's low-power state (R402). -/
  | lpiFlit (port : Fin 26) (flit : BitVec 256)
  /-- A replay that has not begun within 2 µs makes the receiver send RETRY again (R395). -/
  | retryRepeatTimer (port : Fin 26)
  /-- CREDIT flits are sent at least every 256 ns while a count has changed (R392). -/
  | creditFlitTimer (port : Fin 26)
  /-- A lane loses signal or markers for two frames and is removed from its port (R513). -/
  | laneLost (lane : Fin 512)
  /-- Port training ends; the port enters MGMT or goes HELD with cause LANES (R397). -/
  | trainingDone (port : Fin 26) (lanes : BitVec 32)
  /-- A write of LANE_PRBS.SELFTEST requests a self-test of an active lane (R400). -/
  | laneSelftest (lane : Fin 512)
  /-- After DURATION_MS the lane retrains alone and rejoins its port (R400). -/
  | laneSelftestDone (lane : Fin 512) (errors : Word)
  /-- A write of LINK_PORT_CFG.RETRAIN retrains the port (R414). -/
  | linkRetrainCmd (port : Fin 26)
  /-- A change of LANE_CTRL.EN removes or admits the lane by WIDTH flits (R411). -/
  | laneCtrlEnWrite (lane : Fin 512) (en : Bool)
  /-- A received Ethernet frame is checked and becomes a SERVE packet, PFC action or discard (R408). -/
  | ethFrameReceive (eth : Fin 4) (frame : List Byte)
  /-- The pause quanta of a received PFC frame end and the priority may transmit again (R406). -/
  | pfcQuantaExpire (eth : Fin 4) (prio : Fin 8)
  /-- Clause 73 auto-negotiation ends, with AN_DONE or AN_FAIL (R417). -/
  | ethAnDone (eth : Fin 4) (common : Bool)
  /-- After AN_FAIL, negotiation starts again every 1 s (R417). -/
  | ethAnRetry (eth : Fin 4)
  /-- Ethernet link training ends and the port enters ALIGN (R417). -/
  | ethLtDone (eth : Fin 4)
  /-- PCS lock and FEC alignment hold, so the port enters UP (R417). -/
  | ethAlignLock (eth : Fin 4)
  /-- An UP port without lock or alignment for 10 µs enters FAULT (R417). -/
  | ethLockLoss (eth : Fin 4)
  /-- 1 ms after FAULT, the port restarts from auto-negotiation (R417). -/
  | ethFaultRestart (eth : Fin 4)
  /-- A stylus memory read is checked and performed, and RDCPL is returned (R468). -/
  | mrd (port : Fin 2) (bytes : List Byte) (ecc : Ecc)
  /-- A stylus memory write is checked and performed, with WRACK if requested (R468). -/
  | mwr (port : Fin 2) (bytes : List Byte)
  /-- A submission doorbell sets a ring's TAIL and, for a TILE ring, writes the mailbox (R483). -/
  | dbSubmission (port : Fin 2) (bytes : List Byte)
  /-- A completion doorbell moves HEAD, may arm the interrupt, and lets held records post (R483). -/
  | dbCompletion (port : Fin 2) (bytes : List Byte)
  /-- A WRACK confirms a device write; records count as written and the shadow may advance (R480). -/
  | wrackReceive (port : Fin 2) (bytes : List Byte)
  /-- MOD_US has passed since the oldest uncovered record, so an MSI is sent (R484). -/
  | modUsExpire (ring : BitVec 12)
  /-- An MWR without WRACK within ACK_US is re-sent; after 8 sends the ring goes STALLED (R473). -/
  | mwrResendTimer (port : Fin 2) (tag : BitVec 16)
  /-- A stylus link finishes training and its port is UP (R464). -/
  | stylusLinkUp (port : Fin 2)
  /-- A stylus port goes down; requests in flight on it are lost (R474). -/
  | stylusLinkDown (port : Fin 2)
  /-- A write of RETRAIN0 or RETRAIN1 retrains a stylus port (R493). -/
  | stylusRetrain (port : Fin 2)
  /-- Management entry that does nothing (R477). -/
  | mgmtNop (ecc : Ecc)
  /-- Management entry that writes a register (R477). -/
  | mgmtWrite (ecc : Ecc)
  /-- Management entry that reads a register and reports the value (R479). -/
  | mgmtRead (ecc : Ecc)
  /-- Management entry that polls a register until a masked value matches (R478). -/
  | mgmtPoll (ecc : Ecc)
  /-- Every 1 µs a POLL entry reads its register again (R478). -/
  | pollRetryTimer (ring : BitVec 12) (ecc : Ecc)
  /-- A POLL unmatched after POLL_US ends with TIMEOUT (R478). -/
  | pollTimeout (ring : BitVec 12)
  /-- I3C command that assigns a dynamic address (R491). -/
  | entdaa (addr : BitVec 7)
  /-- I3C command that sets the dynamic address from the static address (R491). -/
  | setdasa (static addr : BitVec 7)
  /-- I3C command that changes the dynamic address (R491). -/
  | setnewda (addr new : BitVec 7)
  /-- I3C command that resets the dynamic address (R491). -/
  | rstdaa
  /-- I3C command that returns the provisioned ID (R491). -/
  | getpid (addr : BitVec 7)
  /-- I3C command that returns the bus characteristics register (R491). -/
  | getbcr (addr : BitVec 7)
  /-- I3C command that returns the device characteristics register (R491). -/
  | getdcr (addr : BitVec 7)
  /-- I3C command that returns the target status (R491). -/
  | getstatus (addr : BitVec 7)
  /-- I3C command that returns the maximum write length (R491). -/
  | getmwl (addr : BitVec 7)
  /-- I3C command that returns the maximum read length (R491). -/
  | getmrl (addr : BitVec 7)
  /-- I3C command that enables in-band interrupts (R491). -/
  | enec (addr : Option (BitVec 7))
  /-- I3C command that disables in-band interrupts (R491). -/
  | disec (addr : Option (BitVec 7))
  /-- A one-byte private write sets the board view index (R492). -/
  | i3cPrivateWrite (addr : BitVec 7) (bytes : List Byte)
  /-- A private read returns board view bytes from the index and advances the index (R492). -/
  | i3cPrivateRead (addr : BitVec 7) (len : Nat)
  /-- A write of DM_CH_CTRL.GO starts a channel's descriptor chain (R445). -/
  | dmGo (die : Fin 4) (chan : Fin 56)
  /-- A write of DM_CH_CTRL.ABORT stops a running channel at its current burst (R452). -/
  | dmAbort (die : Fin 4) (chan : Fin 56)
  /-- A write of DM_CTRL.RESUME clears HALTED (R454). -/
  | dmResume (die : Fin 4)
  /-- A fetched descriptor is checked whole before any byte moves (R446). -/
  | dmDescFetch (die : Fin 4) (chan : Fin 56) (ecc : Ecc)
  /-- A channel issues its next burst read once its rate interval and a buffer slot allow (R448). -/
  | dmBurstIssue (die : Fin 4) (chan : Fin 56) (ecc : Ecc)
  /-- A burst's data has been written to its destination (R447). -/
  | dmBurstWritten (die : Fin 4) (chan : Fin 56)
  /-- The read-backs of a descriptor return; write-back fields are written and the descriptor completes (R449). -/
  | dmReadbackDone (die : Fin 4) (chan : Fin 56) (ecc : Ecc)
  /-- An error response to a datamover access stops every channel of the datamover (R453). -/
  | dmBusError (die : Fin 4) (addr : Word) (kind : BitVec 2) (lost : BitVec 64)
  /-- A read of BP_ALLOC requests a buffer from pool k or a larger pool (R440). -/
  | bpAlloc (port : Fin 2) (tag : BitVec 16) (pool : Fin 4)
  /-- A write of BP_FREE returns a buffer pointer after checking it (R442). -/
  | bpFree (ptr : Word)
  /-- A write of BP_POOL_CFG.INIT starts filling a pool's free ring (R443). -/
  | bpPoolInit (pool : Fin 4)
  /-- The pool's free ring is filled and READY sets (R443). -/
  | bpInitDone (pool : Fin 4)
  /-- A pointer cache refill from the ring arrives and waiting requests are served (R441). -/
  | bpRefillDone (pool : Fin 4) (n : Nat) (ecc : Ecc)
  /-- Every PLATE_SCRUB.PERIOD cycles, the scrub reads and checks the next line of a plate (R425). -/
  | plateScrubRead (plate : Fin 64) (ecc : Ecc)
  /-- A write of PLATE_OWNER starts a hand-over, pending until admitted accesses complete (R115). -/
  | plateOwnerWrite (plate : Fin 64) (kind : BitVec 2) (tile : Fin 16)
  /-- A write of HBM_CTRL.INIT initialises every stack with the selected mapping (R432). -/
  | hbmInit (map : Bool)
  /-- HBM initialisation ends; READY sets, or a failed stack leaves the module out of service (R435). -/
  | hbmInitDone (ok : BitVec 8)
  /-- The patrol scrub reads HBM at idle priority, covering every stack every 12 hours (R434). -/
  | hbmPatrolScrub (line : Nat) (ecc : Ecc)
  /-- A write of DDR_CTRL.INIT reads SPD and trains every populated channel (R438). -/
  | ddrInit (speed : BitVec 2)
  /-- DDR training ends; each channel is TRAINED or FAILED (R438). -/
  | ddrInitDone (modules : List DdrModule)
  /-- The patrol scrub reads DDR5, covering every channel every 24 hours (R438). -/
  | ddrPatrolScrub (chan : Fin 8) (line : Nat) (ecc : Ecc)
  /-- Every PERIOD_US a tile audits its output buffer for leaked and doubly referenced cells (R367). -/
  | auditPass (tile : Fin 64) (strays : List Nat) (double : Bool)
  /-- A checker's report reaches its collector and is counted, recorded, posted and escalated (R501). -/
  | faultReport (die : Fin 4) (checker : Byte) (cls : Fin 6) (tile : Fin 64) (detail index : BitVec 32) (thread : Fin 128) (injected : Bool)
  /-- An escalation period of WINDOW_S ends and every count restarts (R503). -/
  | escWindowExpire
  /-- QUIET_MS passes with no qualifying fault; the pair returns to normal and the recovery count rises (R506). -/
  | quietPeriodEnd
  /-- A write of FLT_PAIR.FORCE enters the fault state (R506). -/
  | pairForce
  /-- The sampled FAULT_P and FAULT_N pins are at equal levels, so SENSE_ERR sets (R505). -/
  | pairSenseMismatch
  /-- A write of FLT_INJECT.GO arms check-bit inversion for the next checks of a checker (R511). -/
  | fltInjectGo (v : Word)
  /-- A write of FLT_BLKRST.GO requests isolation and reset of a block (R510). -/
  | blockResetRequest (domain : Fin 8) (instance_ : Fin 64)
  /-- A block's reset time ends; its wrapper admits transfers again and an event is raised (R508). -/
  | blockResetRelease (domain : Fin 8) (instance_ : Fin 64)
  /-- A block has not left reset within twice its reset time, which is a UF (R503). -/
  | blockResetStuck (domain : Fin 8) (instance_ : Fin 64)
  /-- A write of FLT_ASELFTEST.GO requests an arithmetic self-test of a tile (R519). -/
  | aselftestRequest (tile : Fin 64)
  /-- The tile's engines are empty, so the self-test starts RUNNING (R519). -/
  | aselftestRun (tile : Fin 64)
  /-- The engines did not empty within the tolerance minus 40 µs, so the result is BUSY (R519). -/
  | aselftestWaitExpire (tile : Fin 64)
  /-- After 40 µs the self-test ends with PASS or FAIL and held work is released (R519). -/
  | aselftestEnd (tile : Fin 64) (pass crosshatch : Bool)
  /-- A write of GC_SET loads the count only on an unsynchronised master (R530). -/
  | gcSetWrite (v : Word)
  /-- Loss of CREF is detected; the count continues from the on-module reference (R599). -/
  | crefLoss
  /-- CREF returns and the count recovers without a step (R599). -/
  | crefReturn
  /-- A write of a domain's latency tolerance may wake the domain at once (R553). -/
  | pwrDomainWrite (domain : Fin 200) (tol : BitVec 32)
  /-- A domain idle for four times an exit latency enters that low state (R552). -/
  | powerStateEnter (domain : Fin 200) (deep : Bool)
  /-- A domain in a low state completes its exit and resumes work (R553). -/
  | powerStateExit (domain : Fin 200)
  /-- Every 100 µs the hottest junction is read and compared with the thresholds (R596). -/
  | thermalSample (temp : BitVec 16)
  /-- Every 1 ms the thermal throttle halves or doubles the engine issue rate (R596). -/
  | throttleStep
  /-- Internal power good rises, which is a power-on reset and starts boot (R592). -/
  | powerGoodRise (samples : List Nat)
  /-- VIN below 51.0 V for 100 µs, or above 64.0 V, drops power good and stops the converters (R592). -/
  | powerGoodFall
  /-- RESET_N held low for at least 10 µs starts a cold reset (R559). -/
  | resetNAssert
  /-- RESET_N rises and boot starts (R598). -/
  | resetNRelease (samples : List Nat)
  /-- WRESET_N held low for at least 1 µs performs a warm reset (R559). -/
  | wresetNPulse
  /-- A write of GLB_RESET_CMD.WARM with the key performs a warm reset (R583). -/
  | warmResetCmd
  /-- A write of KICK restarts the management watchdog period (R584). -/
  | mgmtWdogKick
  /-- The management watchdog expires and performs a warm reset (R584). -/
  | mgmtWdogExpire
  /-- 10 ms after a UF with UF_ACTION 1, a warm reset is performed (R504). -/
  | escalationReset
  /-- 10 ms after a confirmed life-cycle transition, a warm reset is performed (R580). -/
  | lcChangeReset
  /-- The ROM has read and checked a firmware slot and accepts it, tries the next, or enters recovery (R568). -/
  | bootSlotChecked (found : Option (List Byte)) (fails : Bool)
  /-- Boot reaches READY and the fault pair may return to normal (R569). -/
  | bootReady
  /-- A supply, clock, temperature or test-access tamper is detected and recorded (R581). -/
  | tamperDetect (kind : Fin 4)
  /-- GO with OP none on SEC_CMD performs nothing (R607). -/
  | secCmdNone
  /-- Writes an attestation report signed by the alias key over a nonce (R575). -/
  | attest
  /-- Writes the DER device and alias certificates (R587). -/
  | getCerts
  /-- Checks a new program-signing key list and stores it in flash (R574). -/
  | keylist
  /-- Checks a signed request and advances the life-cycle state (R579). -/
  | lcAdvance
  /-- Raises the fused SVN counter to the running firmware's SVN (R587). -/
  | svnAdvance
  /-- Checks a firmware image in plate memory, writes it to slot A and warm-resets (R570). -/
  | recoverBoot
  /-- JTAG boundary-scan external test, active only while RESET_N is low (R601). -/
  | extest
  /-- JTAG instruction that selects the 32-bit IDCODE register (R602). -/
  | idcode
  /-- JTAG instruction that samples or preloads the boundary register (R601). -/
  | samplePreload (preload : Nat)
  /-- IEEE 1149.6 AC test instruction, active only while RESET_N is low (R601). -/
  | extestPulse
  /-- IEEE 1149.6 AC test instruction, active only while RESET_N is low (R601). -/
  | extestTrain
  /-- JTAG instruction that puts outputs at high impedance while RESET_N is low (R601). -/
  | highz
  /-- JTAG instruction that selects the one-bit bypass register (R601). -/
  | bypass
  /-- Filavo test access opcode, open only as the life cycle allows and otherwise tamper (R603). -/
  | filavoTestAccess (opcode : Fin 511)
  /-- TRST_N low, or five TCK cycles with TMS high, resets the TAP to Test-Logic-Reset (R601). -/
  | jtagTapReset
  /-- A write of X, Y or XY_VALID, accepted only while torus ports are down, lets X and Y rings form (R34). -/
  | glbCoordXyWrite (x y : BitVec 3) (valid : Bool)
  /-- A change of GLB_COORD.ROLE wakes or drains and idles the data ports (R35). -/
  | roleChange (role : BitVec 2)
  /-- A write of GLB_MODE.DETERM, refused while a DETERM_REQUIRED image runs (R555). -/
  | glbModeWrite (v : Word)
  /-- A write of TM_POLICER sets Tc to CBS and Te to EBS (R363). -/
  | tmPolicerWrite (tile : Fin 64) (policer : Fin 4096) (v : Word)
  /-- A write that changes SH_EN, RATE or BURST sets the shaper's tokens to zero (R359). -/
  | shaperWrite (addr v : Word)
  /-- A write of TM_SAMPLE.N restarts the sampler's counter (R365). -/
  | tmSampleWrite (tile : Fin 64) (cls : Fin 8) (v : Word)
  /-- A write of TM_SRING_CFG resets the ring's HEAD and TAIL (R377). -/
  | tmSringCfgWrite (tile : Fin 64) (ring : Fin 2) (v : Word)
  /-- A read of TM_QCFG for a non-resident queue fetches its state (R382). -/
  | tmQcfgRead (tile : Fin 64) (queue : Fin 16384)
  /-- A read of LANE_PRBS_ERR returns the checker error count and clears it (R413). -/
  | lanePrbsErrRead (lane : Fin 512)
  /-- A write of GLB_SQ_CFG, where a change of EN from 0 to 1 zeroes HEAD and TAIL (R495). -/
  | glbSqCfgWrite (ring : BitVec 12) (v : Word)
  /-- A write of GLB_CQ_CFG, where a change of EN from 0 to 1 zeroes HEAD and TAIL (R496). -/
  | glbCqCfgWrite (ring : BitVec 12) (v : Word)
  /-- A write of any register without a row of its own takes effect by its access code, or is refused with the
  global error status (R6). -/
  | registerWrite (addr v : Word)
  /-- Reading the 262,144-byte route table image ends; all four copies are written, LOADED sets, or the load ends
  with SRC_ERROR or BAD_TABLE, and BUSY clears (R331). -/
  | rtLoadDone (ecc : Ecc)
  /-- The descriptor read for CREATE ends; the checks and the quota reservation finish, the state becomes RESERVED
  or stays EMPTY, and LAST_RESULT is posted (R192). -/
  | commCreateDone (ecc : Ecc)
  /-- A security command that takes time (ATTEST, GET_CERTS, KEYLIST, LC_ADVANCE, SVN_ADVANCE, RECOVER_BOOT)
  finishes, writes its result and LENGTH, and clears BUSY (R587). -/
  | secCmdDone (ecc : Ecc)
  /-- The health block measures input power and sets or relaxes the per-die issue-rate throttle that holds the 10 ms
  and 1 s means within their limits, updating CAPPING (R593). -/
  | powerCapSample (vin ms1 ms10 ms1000 : Nat)
  /-- A stylus link replay request naming a flit arrives, and the device replays from its 256 KiB replay buffer
  (R464). -/
  | stylusReplayRequest (port : Fin 2) (flit : Nat)
  /-- While ARM is in progress, the switch sends its agreement digest again to the switches of its level groups that
  have not yet answered (R298). -/
  | digestRepeat (comm : BitVec 20)
  deriving DecidableEq, Repr

end Sys2Proof
end

