-- ==== Sys2Proof/Decode.lean ====
section
/-! DEFINITION. The command that a word of the command table spells. The table of this block gives no row any bits: its
rows are events, register writes and instructions whose words stand inside the constructors. -/
namespace Sys2Proof

/-- No word of the table spells a command, for no row of the table has bits. -/
def decodeTableWord (nbits w : Nat) : Option Instr :=
  match nbits, w with
  | _, _ => none

end Sys2Proof
end

