-- ==== Sys2Proof/Machine/Bits.lean ====
section
/-! DEFINITION. Bit fields, byte order, sign extension and the sparse tables that the state is built of. -/
namespace Sys2Proof.Machine

/-- Bits [lo+width-1:lo] of `n`, read as an unsigned number (R4). -/
def fieldOf (n lo width : Nat) : Nat := (n >>> lo) % 2 ^ width

/-- `n` with bits [lo+width-1:lo] replaced by `v`. -/
def setFieldOf (n lo width v : Nat) : Nat :=
  n - (fieldOf n lo width <<< lo) + ((v % 2 ^ width) <<< lo)

/-- Bit `i` of `n`. -/
def bitOf (n i : Nat) : Bool := n.testBit i

/-- A bit as a number. -/
def b2n (b : Bool) : Nat := if b then 1 else 0

/-- The value of `n`, of `w` bits, read as two's complement. -/
def sextOf (n w : Nat) : Int :=
  let m := n % 2 ^ w
  if m < 2 ^ (w - 1) then (m : Int) else (m : Int) - (2 ^ w : Nat)

/-- The low `w` bits of an integer, as a number. -/
def wrapInt (z : Int) (w : Nat) : Nat := (z % ((2 ^ w : Nat) : Int)).toNat

/-- Little-endian bytes of `n`, `k` of them (R5). -/
def leBytes (k n : Nat) : List Byte :=
  (List.range k).map (fun i => BitVec.ofNat 8 (n >>> (8 * i)))

/-- Big-endian bytes of `n`, `k` of them. -/
def beBytes (k n : Nat) : List Byte := (leBytes k n).reverse

/-- The number whose little-endian bytes are given. -/
def leNat : List Byte → Nat
  | [] => 0
  | b :: bs => b.toNat + 256 * leNat bs

/-- The number whose big-endian bytes are given. -/
def beNat (bs : List Byte) : Nat := leNat bs.reverse

/-- `k` bytes of `bs` from `off`, as a little-endian number; bytes beyond the end count as zero. -/
def leAt (bs : List Byte) (off k : Nat) : Nat := leNat ((bs.drop off).take k)

/-- `k` bytes of `bs` from `off`, big-endian. -/
def beAt (bs : List Byte) (off k : Nat) : Nat := beNat ((bs.drop off).take k)

/-- Rounds up to a multiple of `k`. -/
def roundUp (n k : Nat) : Nat := (n + k - 1) / k * k

/-- Quotient rounded up. -/
def ceilDiv (n k : Nat) : Nat := (n + k - 1) / k

/-- Saturating count at `2 ^ w - 1`. -/
def satAdd (w n k : Nat) : Nat := if n + k < 2 ^ w then n + k else 2 ^ w - 1

/-- A sparse table: values by number, keys rising; a key not listed has the table's default. -/
abbrev Tbl (α : Type) := List (Nat × α)

/-- The value listed under a key. -/
def Tbl.find {α : Type} (k : Nat) : Tbl α → Option α
  | [] => none
  | (j, v) :: t => if j = k then some v else Tbl.find k t

/-- The value under a key, or the default. -/
def Tbl.look {α : Type} (d : α) (t : Tbl α) (k : Nat) : α := (Tbl.find k t).getD d

/-- The table with one key set. -/
def Tbl.put {α : Type} (k : Nat) (v : α) : Tbl α → Tbl α
  | [] => [(k, v)]
  | (j, u) :: t =>
    if k < j then (k, v) :: (j, u) :: t
    else if k = j then (k, v) :: t
    else (j, u) :: Tbl.put k v t

/-- The table without a key. -/
def Tbl.del {α : Type} (k : Nat) (t : Tbl α) : Tbl α := t.filter (fun e => e.1 != k)

/-- The table with one key's value changed. -/
def Tbl.upd {α : Type} (d : α) (k : Nat) (f : α → α) (t : Tbl α) : Tbl α :=
  Tbl.put k (f (Tbl.look d t k)) t

/-- The smallest number below `n` that satisfies a test. -/
def firstBelow (n : Nat) (p : Nat → Bool) : Option Nat := (List.range n).find? p

/-- The element of a list at a place, or a default. -/
def nth {α : Type} (d : α) (l : List α) (i : Nat) : α := (l[i]?).getD d

/-- A list with the element at one place changed. -/
def modNth {α : Type} (l : List α) (i : Nat) (f : α → α) : List α := l.modify i f

/-- Lane `i` of a V register or a row of a T register (R88). -/
def laneOf (v : BitVec 8192) (i : Nat) : Nat := fieldOf v.toNat (32 * i) 32

/-- A V register or a T row from its lanes in order; lanes beyond the list are zero. -/
def ofLanes (ls : List Nat) : BitVec 8192 :=
  BitVec.ofNat 8192 (ls.foldr (fun l acc => l % 2 ^ 32 + acc <<< 32) 0)

end Sys2Proof.Machine
end

