-- ==== Sys2Proof/Machine/NumFmt.lean ====
section
/-! DEFINITION. Number formats, the accumulator form and the store procedure of chapter 02 (R38 to R72). -/
namespace Sys2Proof.Machine

/-- The number formats of R38. -/
inductive Fmt where
  | q4 | q6 | q8 | p8 | w16 | w32 | i8 | i16 | i32 | u8 | u16 | u32
  deriving DecidableEq, Repr

/-- The format a 4-bit code names; the codes of R39 name none. -/
def Fmt.ofCode : Nat → Option Fmt
  | 0x0 => some .q4 | 0x1 => some .q6 | 0x2 => some .q8 | 0x3 => some .p8
  | 0x4 => some .w16 | 0x5 => some .w32
  | 0x8 => some .i8 | 0x9 => some .i16 | 0xA => some .i32
  | 0xC => some .u8 | 0xD => some .u16 | 0xE => some .u32
  | _ => none

/-- The code of a format (R38). -/
def Fmt.code : Fmt → Nat
  | .q4 => 0x0 | .q6 => 0x1 | .q8 => 0x2 | .p8 => 0x3 | .w16 => 0x4 | .w32 => 0x5
  | .i8 => 0x8 | .i16 => 0x9 | .i32 => 0xA | .u8 => 0xC | .u16 => 0xD | .u32 => 0xE

/-- Element width in bits (R38). -/
def Fmt.bits : Fmt → Nat
  | .q4 => 4 | .q6 => 6 | .q8 => 8 | .p8 => 8 | .w16 => 16 | .w32 => 32
  | .i8 => 8 | .i16 => 16 | .i32 => 32 | .u8 => 8 | .u16 => 16 | .u32 => 32

/-- The integer formats (R38). -/
def Fmt.isInt : Fmt → Bool
  | .i8 | .i16 | .i32 | .u8 | .u16 | .u32 => true
  | .q4 | .q6 | .q8 | .p8 | .w16 | .w32 => false

/-- The unsigned formats (R38). -/
def Fmt.isUnsigned : Fmt → Bool
  | .u8 | .u16 | .u32 => true
  | .q4 | .q6 | .q8 | .p8 | .w16 | .w32 | .i8 | .i16 | .i32 => false

/-- The float formats: W16, W32, Q6 and Q8 (R38). -/
def Fmt.isFloat : Fmt → Bool
  | .q6 | .q8 | .w16 | .w32 => true
  | .q4 | .p8 | .i8 | .i16 | .i32 | .u8 | .u16 | .u32 => false

/-- The block-scaled formats (R38). -/
def Fmt.isBlock : Fmt → Bool
  | .q4 | .q6 | .q8 | .p8 => true
  | .w16 | .w32 | .i8 | .i16 | .i32 | .u8 | .u16 | .u32 => false

/-- Mantissa field width of the float formats; 0 where values are integers (R40). -/
def Fmt.mbits : Fmt → Nat
  | .q6 => 3 | .q8 => 4 | .w16 => 9 | .w32 => 23
  | .q4 | .p8 | .i8 | .i16 | .i32 | .u8 | .u16 | .u32 => 0

/-- Exponent of the smallest non-zero magnitude, a power of two (R38). -/
def Fmt.qmin : Fmt → Int
  | .q6 => -3 | .q8 => -6 | .w16 => -39 | .w32 => -149
  | .q4 | .p8 | .i8 | .i16 | .i32 | .u8 | .u16 | .u32 => 0

/-- The code, or the magnitude for integer kinds, of the largest value a store writes (R38, R62). -/
def Fmt.maxCode : Fmt → Nat
  | .q4 => 7 | .q6 => 0x1F | .q8 => 0x7F | .p8 => 127 | .w16 => 0x7DFF | .w32 => 0x7F7FFFFF
  | .i8 => 127 | .i16 => 32767 | .i32 => 2147483647
  | .u8 => 255 | .u16 => 65535 | .u32 => 4294967295

/-- The largest magnitude on the negative side that a store of an integer kind writes (R62). -/
def Fmt.maxNeg : Fmt → Nat
  | .q4 => 7 | .p8 => 127 | .i8 => 128 | .i16 => 32768 | .i32 => 2147483648
  | .q6 | .q8 | .w16 | .w32 | .u8 | .u16 | .u32 => 0

/-- The four sticky flags of R73 as one operation sets them. -/
structure Flags where
  ovf : Bool
  unf : Bool
  inx : Bool
  inv : Bool
  deriving DecidableEq, Repr

/-- No flag. -/
def Flags.none : Flags := ⟨false, false, false, false⟩
/-- Overflow alone. -/
def Flags.OVF : Flags := ⟨true, false, false, false⟩
/-- Underflow alone. -/
def Flags.UNF : Flags := ⟨false, true, false, false⟩
/-- Inexact alone. -/
def Flags.INX : Flags := ⟨false, false, true, false⟩
/-- Invalid alone. -/
def Flags.INV : Flags := ⟨false, false, false, true⟩
/-- The flags of two operations together. -/
def Flags.join (a b : Flags) : Flags :=
  ⟨a.ovf || b.ovf, a.unf || b.unf, a.inx || b.inx, a.inv || b.inv⟩
/-- The flags as bits [3:0] of TILE_HATCH_FLAGS (R74). -/
def Flags.toNat (f : Flags) : Nat := b2n f.ovf + 2 * b2n f.unf + 4 * b2n f.inx + 8 * b2n f.inv

/-- An accumulator value (R52): zero, infinity, NaN, or (-1)^s × S × 2^(E - 33) with bit 33 of S set. -/
inductive Acc where
  | zero (neg : Bool)
  | inf (neg : Bool)
  | nan
  | fin (neg : Bool) (e : Int) (s : Nat)
  deriving DecidableEq, Repr

/-- The sign an accumulator value carries. -/
def Acc.neg? : Acc → Bool
  | .zero n => n
  | .inf n => n
  | .nan => false
  | .fin n _ _ => n

/-- Sign reversal. -/
def Acc.negate : Acc → Acc
  | .zero n => .zero (!n)
  | .inf n => .inf (!n)
  | .nan => .nan
  | .fin n e s => .fin (!n) e s

/-- Magnitude. -/
def Acc.abs : Acc → Acc
  | .zero _ => .zero false
  | .inf _ => .inf false
  | .nan => .nan
  | .fin _ e s => .fin false e s

/-- R54, R56: the exact value (-1)^neg × m × 2^q, m not zero, rounded to 34 bits by round-to-odd,
with the range rule of R56. -/
def Acc.roundOdd (neg : Bool) (m : Nat) (q : Int) : Acc × Flags :=
  if m = 0 then (.zero neg, .none) else
  let len := Nat.log2 m
  let e : Int := (len : Int) + q
  let s := if len ≤ 33 then m <<< (33 - len)
    else
      let d := len - 33
      let t := m >>> d
      if m % 2 ^ d = 0 then t else if t % 2 = 1 then t else t + 1
  if e > 511 then (.fin neg 511 (2 ^ 34 - 1), Flags.OVF)
  else if e < -512 then (.zero neg, Flags.UNF)
  else (.fin neg e s, .none)

/-- The signed exact sum of two finite values, as a sign, a magnitude and an exponent. -/
def exactSum (n1 : Bool) (m1 : Nat) (q1 : Int) (n2 : Bool) (m2 : Nat) (q2 : Int) : Bool × Nat × Int :=
  let q := min q1 q2
  let a := m1 <<< (q1 - q).toNat
  let b := m2 <<< (q2 - q).toNat
  if n1 = n2 then (n1, a + b, q)
  else if a ≥ b then (n1, a - b, q)
  else (n2, b - a, q)

/-- Sum in accumulator form (R42, R54, R56, R57). -/
def Acc.add (a b : Acc) : Acc × Flags :=
  match a, b with
  | .nan, _ => (.nan, .none)
  | _, .nan => (.nan, .none)
  | .inf n, .inf k => if n = k then (.inf n, .none) else (.nan, Flags.INV)
  | .inf n, _ => (.inf n, .none)
  | _, .inf n => (.inf n, .none)
  | .zero n, .zero k => (.zero (n && k), .none)
  | .zero _, x => (x, .none)
  | x, .zero _ => (x, .none)
  | .fin n1 e1 s1, .fin n2 e2 s2 =>
    let r := exactSum n1 s1 (e1 - 33) n2 s2 (e2 - 33)
    if r.2.1 = 0 then (.zero false, .none) else Acc.roundOdd r.1 r.2.1 r.2.2

/-- Difference (R42: the negation that a subtraction applies comes first). -/
def Acc.sub (a b : Acc) : Acc × Flags := Acc.add a b.negate

/-- Product in accumulator form (R42, R54, R56, R57). -/
def Acc.mul (a b : Acc) : Acc × Flags :=
  match a, b with
  | .nan, _ => (.nan, .none)
  | _, .nan => (.nan, .none)
  | .inf _, .zero _ => (.nan, Flags.INV)
  | .zero _, .inf _ => (.nan, Flags.INV)
  | .inf n, x => (.inf (n != x.neg?), .none)
  | x, .inf n => (.inf (n != x.neg?), .none)
  | .zero n, x => (.zero (n != x.neg?), .none)
  | x, .zero n => (.zero (n != x.neg?), .none)
  | .fin n1 e1 s1, .fin n2 e2 s2 =>
    Acc.roundOdd (n1 != n2) (s1 * s2) (e1 - 33 + (e2 - 33))

/-- Strict numeric order of two values that are not NaN; −0 equals +0. -/
def Acc.lt (a b : Acc) : Bool :=
  match a, b with
  | .nan, _ => false
  | _, .nan => false
  | .inf n, .inf k => n && !k
  | .inf n, _ => n
  | _, .inf n => !n
  | .zero _, .zero _ => false
  | .zero _, .fin n _ _ => !n
  | .fin n _ _, .zero _ => n
  | .fin n1 e1 s1, .fin n2 e2 s2 =>
    let r := exactSum n1 s1 (e1 - 33) (!n2) s2 (e2 - 33)
    r.1 && r.2.1 != 0

/-- Numeric equality; −0 equals +0, a NaN equals nothing. -/
def Acc.eqv (a b : Acc) : Bool :=
  match a, b with
  | .nan, _ => false
  | _, .nan => false
  | .zero _, .zero _ => true
  | x, y => x == y

/-- Maximum by R64: NaN if either is NaN, −0 below +0. -/
def Acc.max (a b : Acc) : Acc :=
  match a, b with
  | .nan, _ => .nan
  | _, .nan => .nan
  | .zero n, .zero k => .zero (n && k)
  | x, y => if Acc.lt x y then y else x

/-- Minimum by R64. -/
def Acc.min (a b : Acc) : Acc :=
  match a, b with
  | .nan, _ => .nan
  | _, .nan => .nan
  | .zero n, .zero k => .zero (n || k)
  | x, y => if Acc.lt y x then y else x

/-- An exact accumulator value (-1)^neg × m × 2^q of at most 34 significant bits. -/
def Acc.exact (neg : Bool) (m : Nat) (q : Int) : Acc := (Acc.roundOdd neg m q).1

/-- R40: the value of an element code of a block-scaled format times 2^q; every zero is +0 (R42). -/
def elemAcc (f : Fmt) (code : Nat) (q : Int) : Acc :=
  let c := code % 2 ^ f.bits
  match f with
  | .q4 => if c % 8 = 0 then .zero false else Acc.exact (bitOf c 3) (c % 8) q
  | .p8 =>
    let v := sextOf c 8
    if v = 0 then .zero false else Acc.exact (decide (v < 0)) v.natAbs q
  | .q6 =>
    let m := c % 8
    let e := fieldOf c 3 2
    if e = 0 ∧ m = 0 then .zero false
    else if e = 0 then Acc.exact (bitOf c 5) m (q - 3)
    else Acc.exact (bitOf c 5) (8 + m) (q - 3 + ((e : Int) - 1))
  | .q8 =>
    let m := c % 16
    let e := fieldOf c 4 3
    if e = 0 ∧ m = 0 then .zero false
    else if e = 0 then Acc.exact (bitOf c 7) m (q - 6)
    else Acc.exact (bitOf c 7) (16 + m) (q - 6 + ((e : Int) - 1))
  | .w16 | .w32 | .i8 | .i16 | .i32 | .u8 | .u16 | .u32 => .zero false

/-- R40: the value of a W16 or W32 code. -/
def floatAcc (ebits mbits : Nat) (qmin : Int) (code : Nat) : Acc :=
  let m := code % 2 ^ mbits
  let e := fieldOf code mbits ebits
  let n := bitOf code (ebits + mbits)
  if e = 2 ^ ebits - 1 then (if m = 0 then .inf n else .nan)
  else if e = 0 then (if m = 0 then .zero n else Acc.exact n m qmin)
  else Acc.exact n (2 ^ mbits + m) (qmin + ((e : Int) - 1))

/-- The integer that a lane in an integer format holds (R45, R63). Bits above the element's width do not count, as raw moves and
broadcasts may leave other bits there (DESIGN CHOICE, log 60). -/
def laneInt (f : Fmt) (lane : Nat) : Int :=
  if f.isUnsigned then ((lane % 2 ^ f.bits : Nat) : Int) else sextOf lane f.bits

/-- An integer as an accumulator value, exact for 32-bit values. -/
def Acc.ofInt (z : Int) : Acc := if z = 0 then .zero false else Acc.exact (decide (z < 0)) z.natAbs 0

/-- R45, R46, R49: the value of a lane in lane form of a format, with the flag a decode sets; the bits between an element's code
and its scale code do not count (log 60). -/
def decodeLane (f : Fmt) (lane : Nat) : Acc × Flags :=
  match f with
  | .w16 => (floatAcc 6 9 (-39) (lane % 2 ^ 16), .none)
  | .w32 => (floatAcc 8 23 (-149) lane, .none)
  | .q4 | .q6 | .q8 | .p8 =>
    let sc := fieldOf lane 24 8
    if sc = 0xFF then (.nan, Flags.INV)
    else (elemAcc f lane ((sc : Int) - 127), .none)
  | .i8 | .i16 | .i32 | .u8 | .u16 | .u32 => (Acc.ofInt (laneInt f lane), .none)

/-- Rounding modes of R67. -/
inductive Mode where
  | rne | rtz | sr
  deriving DecidableEq, Repr

/-- R67. -/
def Mode.ofCode : Nat → Option Mode
  | 0 => some .rne | 1 => some .rtz | 2 => some .sr | _ => none

/-- One mixing of R70. -/
def srMix (x : Nat) : Nat :=
  let a := ((x ^^^ (x >>> 30)) * 0xBF58476D1CE4E5B9) % 2 ^ 64
  let b := ((a ^^^ (a >>> 27)) * 0x94D049BB133111EB) % 2 ^ 64
  b ^^^ (b >>> 31)

/-- The key of a stochastic draw (R70, R71). -/
structure SrKey where
  seed : Nat
  comm : Nat
  chunk : Nat
  index : Nat
  deriving DecidableEq, Repr

/-- R70: the generator's word for a key; R79: the draw is bits [63:48], or [63:56] at numeric level 1. -/
def srWord (k : SrKey) : Nat :=
  let x := (k.seed % 2 ^ 64) ^^^ (((k.chunk % 2 ^ 32) <<< 32) ||| (k.index % 2 ^ 32))
  let y := (x + (k.comm % 2 ^ 20 + 1) * 0x9E3779B97F4A7C15) % 2 ^ 64
  srMix (srMix y)

/-- How a store rounds: the mode, the numeric level and the key of the element. -/
structure Rnd where
  mode : Mode
  level : Nat
  key : SrKey
  deriving DecidableEq, Repr

/-- Round to nearest even, for stores whose mode the manual fixes. -/
def Rnd.near : Rnd := ⟨.rne, 2, ⟨0, 0, 0, 0⟩⟩

/-- R67, R68: `s` with its low `d` bits rounded off; the result counts units of the target's last place. -/
def roundOff (r : Rnd) (s d : Nat) : Nat :=
  let t := s >>> d
  let rest := s % 2 ^ d
  match r.mode with
  | .rtz => t
  | .rne =>
    if d = 0 then t
    else if rest > 2 ^ (d - 1) then t + 1
    else if rest = 2 ^ (d - 1) then t + t % 2
    else t
  | .sr =>
    let w := if r.level = 1 then 8 else 16
    let f := if d ≥ w then fieldOf s (d - w) w else rest <<< (w - d)
    let u := srWord r.key >>> (64 - w)
    if f > u then t + 1 else t

/-- A finite non-zero value in units of 2^q: rounded count and whether bits were lost. -/
def toUnits (r : Rnd) (e : Int) (s : Nat) (q : Int) : Nat × Bool :=
  let sh : Int := q - (e - 33)
  if sh ≤ 0 then (s <<< (-sh).toNat, false)
  else
    let d := sh.toNat
    (roundOff r s d, s % 2 ^ d != 0)

/-- R42, R62: a float code with its sign; Q6 and Q8 zeros have S = 0. -/
def signedCode (f : Fmt) (neg : Bool) (mag : Nat) : Nat :=
  if mag = 0 then (match f with
    | .w16 => if neg then 0x8000 else 0
    | .w32 => if neg then 0x80000000 else 0
    | .q4 | .q6 | .q8 | .p8 | .i8 | .i16 | .i32 | .u8 | .u16 | .u32 => 0)
  else match f with
    | .w16 | .w32 | .q6 | .q8 | .q4 => if neg then mag + 2 ^ (f.bits - 1) else mag
    | .p8 | .i8 | .i16 | .i32 => if neg then 2 ^ f.bits - mag else mag
    | .u8 | .u16 | .u32 => mag

/-- R62: the store of an accumulator value to an element format, for block-scaled formats after the scale
is chosen. The code is in the format's own width. -/
def storeElem (a : Acc) (f : Fmt) (r : Rnd) : Nat × Flags :=
  match a with
  | .nan => (match f with
    | .w16 => (0x7FFF, .none)
    | .w32 => (0x7FC00000, .none)
    | .q4 | .q6 | .q8 | .p8 | .i8 | .i16 | .i32 | .u8 | .u16 | .u32 => (0, Flags.INV))
  | .inf n => (match f with
    | .w16 => (if n then 0xFE00 else 0x7E00, .none)
    | .w32 => (if n then 0xFF800000 else 0x7F800000, .none)
    | .u8 | .u16 | .u32 => (if n then 0 else f.maxCode, Flags.OVF)
    | .q6 | .q8 => (signedCode f n f.maxCode, Flags.OVF)
    | .q4 | .p8 | .i8 | .i16 | .i32 => (signedCode f n (if n then f.maxNeg else f.maxCode), Flags.OVF))
  | .zero n => (signedCode f n 0, .none)
  | .fin n e s =>
    if f.isFloat then
      if e < f.qmin then (signedCode f n 0, ⟨false, true, true, false⟩)
      else
        let q := max (e - f.mbits) f.qmin
        let u := toUnits r e s q
        let code := ((q - f.qmin).toNat <<< f.mbits) + u.1
        if code > f.maxCode then (signedCode f n f.maxCode, ⟨true, false, true, false⟩)
        else (signedCode f n code, if u.2 then Flags.INX else .none)
    else
      let u := toUnits r e s 0
      let lim := if n then f.maxNeg else f.maxCode
      if u.1 > lim then
        (signedCode f n lim, ⟨true, false, true, false⟩)
      else (signedCode f n u.1, if u.2 then Flags.INX else .none)

/-- R63: a 32-bit integer result stored to an integer format, saturating by R62. -/
def storeInt (z : Int) (f : Fmt) : Nat × Flags :=
  let hi : Int := (f.maxCode : Int)
  let lo : Int := -((f.maxNeg : Nat) : Int)
  if z > hi then (wrapInt hi f.bits, ⟨true, false, true, false⟩)
  else if z < lo then (wrapInt lo f.bits, ⟨true, false, true, false⟩)
  else (wrapInt z f.bits, .none)

/-- R45: an element code in lane form; `sc` is the block scale code of a block-scaled format. -/
def toLane (f : Fmt) (code sc : Nat) : Nat :=
  match f with
  | .q4 | .q6 | .q8 | .p8 => code + (sc <<< 24)
  | .i8 | .i16 | .i32 => wrapInt (sextOf code f.bits) 32
  | .w16 | .w32 | .u8 | .u16 | .u32 => code

/-- The element code that a lane holds. -/
def ofLane (f : Fmt) (lane : Nat) : Nat := lane % 2 ^ f.bits

/-- R50: floor(log2) of a block's largest top position, and whether its scaled largest magnitude exceeds max. -/
def Fmt.eTop : Fmt → Int
  | .q4 => 2 | .q6 => 2 | .q8 => 4 | .p8 => 6
  | .w16 | .w32 | .i8 | .i16 | .i32 | .u8 | .u16 | .u32 => 0

/-- The largest finite magnitude of a block format times 2^33 over 2^eTop (R38, R50), to compare with S. -/
def Fmt.maxS : Fmt → Nat
  | .q4 => 7 <<< 31 | .q6 => 15 <<< 30 | .q8 => 31 <<< 29 | .p8 => 127 <<< 27
  | .w16 | .w32 | .i8 | .i16 | .i32 | .u8 | .u16 | .u32 => 0

/-- The larger of two magnitudes given as exponent and significand; absent is zero. -/
def magMax (a : Option (Int × Nat)) (x : Acc) : Option (Int × Nat) :=
  match x with
  | .fin _ e s =>
    (match a with
     | none => some (e, s)
     | some (e', s') => if e > e' ∨ (e = e' ∧ s > s') then some (e, s) else some (e', s'))
  | .zero _ | .inf _ | .nan => a

/-- R50, with the level 1 rule of R79: the scale code of an output block, and the flag it sets. -/
def chooseScale (f : Fmt) (level : Nat) (blk : List Acc) : Nat × Flags :=
  if blk.any (fun x => match x with | .nan => true | .inf _ => true | .zero _ => false | .fin _ _ _ => false)
  then (0xFF, Flags.INV)
  else match blk.foldl magMax none with
    | none => (0x7F, .none)
    | some (e, s) =>
      let c := e - f.eTop + 127
      let c := if level ≠ 1 ∧ s > f.maxS then c + 1 else c
      let c := if c > 254 then 254 else c
      let c := if c < 0 then 0 else c
      (c.toNat, .none)

/-- A value scaled by a power of two, exactly (the element value of R51). -/
def Acc.scale (a : Acc) (q : Int) : Acc :=
  match a with
  | .fin n e s => .fin n (e + q) s
  | .zero n => .zero n
  | .inf n => .inf n
  | .nan => .nan

/-- R51, R62: a block's elements stored under a scale code; code 0xFF writes all element codes as zero. -/
def storeUnder (f : Fmt) (sc : Nat) (blk : List (Acc × Rnd)) : List Nat × Flags :=
  if sc = 0xFF then (blk.map (fun _ => toLane f 0 0xFF), .none)
  else
    let rs := blk.map (fun x => storeElem (x.1.scale (127 - (sc : Int))) f x.2)
    (rs.map (fun x => toLane f x.1 sc), rs.foldl (fun fl x => fl.join x.2) .none)

/-- R50, R51: a block stored with the scale that it chooses. -/
def storeBlock (f : Fmt) (level : Nat) (blk : List (Acc × Rnd)) : List Nat × Flags :=
  let c := chooseScale f level (blk.map (·.1))
  let r := storeUnder f c.1 blk
  (r.1, c.2.join r.2)

/-- R51, R62: a block stored under a scale code an instruction fixes; a NaN marks the block invalid, and its element codes are
then zero (DESIGN CHOICE, log 60). -/
def storeFixed (f : Fmt) (sc : Nat) (blk : List (Acc × Rnd)) : List Nat × Flags :=
  let r := storeUnder f sc blk
  if blk.any (fun x => x.1 == .nan) then (blk.map (fun _ => toLane f 0 0xFF), r.2)
  else r

/-- R79: a level 1 chain intermediate: a store to W32 by RNE, read back. -/
def roundW32 (a : Acc) : Acc × Flags :=
  let r := storeElem a .w32 Rnd.near
  ((decodeLane .w32 r.1).1, r.2)

end Sys2Proof.Machine
end

