-- ==== Sys2Proof/Machine/Arith.lean ====
section
/-! DEFINITION. Operators over values: integer lanes (R63, R64), the fixed tree (R149), reciprocal and reciprocal
square root (R154 to R156), and the block products of the crosshatch unit (R59 to R61). -/
namespace Sys2Proof.Machine

/-- The binary operators that hatch instructions, stages and reductions name. -/
inductive BinOp where
  | add | sub | rsub | mul | max | min | and | or | xor
  deriving DecidableEq, Repr

/-- An operator on accumulator values; AND, OR and XOR do not apply there (R64). -/
def BinOp.acc (o : BinOp) (a b : Acc) : Acc × Flags :=
  match o with
  | .add => Acc.add a b
  | .sub => Acc.sub a b
  | .rsub => Acc.sub b a
  | .mul => Acc.mul a b
  | .max => (Acc.max a b, .none)
  | .min => (Acc.min a b, .none)
  | .and => (a, .none)
  | .or => (a, .none)
  | .xor => (a, .none)

/-- R63, R64: an operator on integer lanes; the result wraps modulo 2^32 and is read back signed or unsigned. -/
def BinOp.int (o : BinOp) (unsigned : Bool) (a b : Int) : Int :=
  let back (n : Nat) : Int := if unsigned then (n : Int) else sextOf n 32
  let x := wrapInt a 32
  let y := wrapInt b 32
  match o with
  | .add => back (wrapInt (a + b) 32)
  | .sub => back (wrapInt (a - b) 32)
  | .rsub => back (wrapInt (b - a) 32)
  | .mul => back (wrapInt (a * b) 32)
  | .max => if a < b then b else a
  | .min => if b < a then b else a
  | .and => back (x &&& y)
  | .or => back (x ||| y)
  | .xor => back (x ^^^ y)

/-- A value in flight: a float or block-scaled value in accumulator form, or a 32-bit integer. -/
inductive Val where
  | acc (a : Acc)
  | int (z : Int)
  deriving DecidableEq, Repr

/-- A lane read in a format (R45, R144). -/
def Val.ofLane (f : Fmt) (lane : Nat) : Val × Flags :=
  if f.isInt then (.int (laneInt f lane), .none)
  else let r := decodeLane f lane; (.acc r.1, r.2)

/-- The value as an accumulator value. -/
def Val.toAcc : Val → Acc
  | .acc a => a
  | .int z => Acc.ofInt z

/-- A binary operator on two values of one format. -/
def Val.bin (f : Fmt) (o : BinOp) (x y : Val) : Val × Flags :=
  match x, y with
  | .int a, .int b => (.int (o.int f.isUnsigned a b), .none)
  | a, b => let r := o.acc a.toAcc b.toAcc; (.acc r.1, r.2)

/-- Negation of a value (R146, R158). -/
def Val.neg (f : Fmt) : Val → Val
  | .acc a => .acc a.negate
  | .int z => .int (BinOp.int .sub f.isUnsigned 0 z)

/-- Magnitude of a value. -/
def Val.mag (f : Fmt) : Val → Val
  | .acc a => .acc a.abs
  | .int z => if z < 0 then .int (BinOp.int .sub f.isUnsigned 0 z) else .int z

/-- R154: the 12-fraction-bit start value, 2^12 over 1 + (i + 0.5)/256, to nearest. -/
def rcpSeed (i : Nat) : Nat := (2 ^ 22 + (513 + 2 * i)) / (2 * (513 + 2 * i))

/-- Two as an accumulator value. -/
def accTwo : Acc := Acc.exact false 2 0

/-- R154: one Newton step y × (2 − m × y), each multiply and subtract by round-to-odd. -/
def rcpStep (m y : Acc) : Acc := (Acc.mul y (Acc.sub accTwo (Acc.mul m y).1).1).1

/-- R154, R156: the reciprocal in accumulator form. -/
def rcpAcc (x : Acc) : Acc × Flags :=
  match x with
  | .nan => (.nan, .none)
  | .zero n => (.inf n, .none)
  | .inf n => (.zero n, .none)
  | .fin n e s =>
    let m : Acc := .fin false 0 s
    let y0 := Acc.exact false (rcpSeed (fieldOf s 25 8)) (-12)
    let y := rcpStep m (rcpStep m y0)
    match y with
    | .fin _ ey sy => Acc.roundOdd n sy (ey - 33 - e)
    | .zero k => (.zero k, .none)
    | .inf k => (.inf k, .none)
    | .nan => (.nan, .none)

/-- The largest `r` below 2 `r₀` with (2r − 1)² × n ≤ 2^34, built from its high bit down. -/
def rsqSearch (n : Nat) : Nat → Nat → Nat
  | 0, r => r
  | k + 1, r =>
    let t := r + 2 ^ k
    rsqSearch n k (if (2 * t - 1) * (2 * t - 1) * n ≤ 2 ^ 34 then t else r)

/-- R155: the start value, 1 over the square root of mid, to nearest in 12 fraction bits; mid is n/256. -/
def rsqSeed (n : Nat) : Nat := rsqSearch n 14 0

/-- R155: one step y × (1.5 − 0.5 × m × y × y), products taken left to right. -/
def rsqStep (m y : Acc) : Acc :=
  let h := Acc.exact false 1 (-1)
  let t := (Acc.mul (Acc.mul (Acc.mul h m).1 y).1 y).1
  (Acc.mul y (Acc.sub (Acc.exact false 3 (-1)) t).1).1

/-- R155, R156: the reciprocal square root in accumulator form. -/
def rsqAcc (x : Acc) : Acc × Flags :=
  match x with
  | .nan => (.nan, .none)
  | .zero n => (.inf n, .none)
  | .inf true => (.nan, Flags.INV)
  | .inf false => (.zero false, .none)
  | .fin true _ _ => (.nan, Flags.INV)
  | .fin false e s =>
    let odd := e % 2 ≠ 0
    let m : Acc := .fin false (if odd then 1 else 0) s
    let e' := if odd then e - 1 else e
    let i := fieldOf s 26 7
    let n := (257 + 2 * i) * (if odd then 2 else 1)
    let y := rsqStep m (rsqStep m (Acc.exact false (rsqSeed n) (-12)))
    match y with
    | .fin _ ey sy => Acc.roundOdd false sy (ey - 33 - e' / 2)
    | .zero k => (.zero k, .none)
    | .inf k => (.inf k, .none)
    | .nan => (.nan, .none)

/-- One level of the tree of R149: neighbours combined, an absent leaf yields to the other. -/
def pairUp {α : Type} (op : α → α → α × Flags) : List (Option α) → List (Option α) × Flags
  | [] => ([], .none)
  | [x] => ([x], .none)
  | a :: b :: rest =>
    let t := pairUp op rest
    match a, b with
    | none, y => (y :: t.1, t.2)
    | some x, none => (some x :: t.1, t.2)
    | some x, some y => let r := op x y; (some r.1 :: t.1, r.2.join t.2)

/-- R149: the balanced pairwise tree over 2^k leaves. -/
def treeOf {α : Type} (op : α → α → α × Flags) : Nat → List (Option α) → Option α × Flags
  | 0, ls => ((ls.head?).getD none, .none)
  | k + 1, ls =>
    let t := pairUp op ls
    let r := treeOf op k t.1
    (r.1, t.2.join r.2)

/-- An element of a block format as an integer count of its quantum (R59). -/
def quanta (f : Fmt) (code : Nat) : Int :=
  let c := code % 2 ^ f.bits
  let sg (n : Bool) (m : Nat) : Int := if n then -(m : Int) else (m : Int)
  match f with
  | .q4 => sg (bitOf c 3) (c % 8)
  | .p8 => sextOf c 8
  | .q6 =>
    let e := fieldOf c 3 2
    sg (bitOf c 5) (if e = 0 then c % 8 else (8 + c % 8) <<< (e - 1))
  | .q8 =>
    let e := fieldOf c 4 3
    sg (bitOf c 7) (if e = 0 then c % 16 else (16 + c % 16) <<< (e - 1))
  | .w16 | .w32 | .i8 | .i16 | .i32 | .u8 | .u16 | .u32 => 0

/-- The exponent of a block format's quantum: 1 for Q4 and P8, 1/8 for Q6, 1/64 for Q8 (R59). -/
def quantumExp : Fmt → Int
  | .q6 => -3 | .q8 => -6
  | .q4 | .p8 | .w16 | .w32 | .i8 | .i16 | .i32 | .u8 | .u16 | .u32 => 0

/-- R59, R60: one block pair: the exact element sum scaled by both codes, or NaN. The element lists are codes. A sum of zero has
no sign of its own: it is added as +0 (DESIGN CHOICE, log 60). -/
def blockPair (fa fb : Fmt) (sa sb : Nat) (xs ys : List Nat) : Acc × Flags :=
  if sa = 0xFF ∨ sb = 0xFF then (.nan, Flags.INV)
  else
    let z := ((xs.zip ys).map (fun p => quanta fa p.1 * quanta fb p.2)).foldl (· + ·) 0
    let q : Int := (sa : Int) + sb - 254 + quantumExp fa + quantumExp fb
    if z = 0 then (.zero false, .none) else (Acc.exact (decide (z < 0)) z.natAbs q, .none)

/-- Terms added into an accumulator one at a time, in order (R59, R61). -/
def sumInto (start : Acc) (terms : List (Acc × Flags)) : Acc × Flags :=
  terms.foldl (fun st t =>
    let r := Acc.add st.1 t.1
    (r.1, (st.2.join t.2).join r.2)) (start, .none)

/-- A list cut in pieces of `k`, `n` of them. -/
def pieces {α : Type} (k : Nat) : Nat → List α → List (List α)
  | 0, _ => []
  | n + 1, l => l.take k :: pieces k n (l.drop k)

/-- R59: the block products of one output element; lanes of the left row carry their scale codes. -/
def dotBlocks (fa fb : Fmt) (b : Nat) (row : List Nat) (elems scales : List Nat) : List (Acc × Flags) :=
  let n := row.length / b
  let ls := pieces b n row
  let rs := pieces b n elems
  ((ls.zip rs).zip scales).map (fun p =>
    blockPair fa fb (fieldOf (nth 0 p.1.1 0) 24 8) p.2 (p.1.1.map (ofLane fa)) p.1.2)

/-- R61: the exact products of two W16 rows. -/
def dotW16 (row elems : List Nat) : List (Acc × Flags) :=
  (row.zip elems).map (fun p => Acc.mul (decodeLane .w16 p.1).1 (decodeLane .w16 p.2).1)

end Sys2Proof.Machine
end

