-- ==== Sys2Proof/Machine/TypesTile.lean ====
section
/-! DEFINITION. The working state of a tile: threads, tickets, engine queues, image slots (chapter 03, R83 to R121). -/
namespace Sys2Proof.Machine

/-- Thread states (R85). -/
inductive ThreadSt where
  | free | ready | blocked | draining | faulted
  deriving DecidableEq, Repr

/-- What a blocked thread waits for (R86); `queue` counts 0 hatch, 1 crosshatch, 2 memory and communicate. -/
inductive Waiting where
  | nothing
  | wait (d entry : Nat)
  | waitAny (d : Nat)
  | fence (entries : List Nat)
  | launch (d target : Nat)
  | pend (regs : List Nat)
  | queue (q : Nat)
  deriving DecidableEq, Repr

/-- One hardware thread (R85 to R94, R120, R129). `toFree` is set when the end of the drain leads to FREE. -/
structure Thread where
  st : ThreadSt
  waiting : Waiting
  slot : Nat
  idx : Nat
  s : Tbl Word
  pend : BitVec 32
  poison : BitVec 32
  pc : Nat
  cause : Nat
  toFree : Bool
  tkBase : Nat
  tkCount : Nat
  deriving DecidableEq, Repr

/-- A thread as reset and FREE leave it. -/
def Thread.fresh : Thread := ⟨.free, .nothing, 0, 0, [], 0, 0, 0, 0, false, 0, 0⟩

/-- One ticket table entry (R94 to R97): `result` is the status and DETAIL once complete. -/
structure Ticket where
  held : Bool
  thread : Nat
  gen : Nat
  cls : Nat
  result : Option (Nat × Nat)
  deriving DecidableEq, Repr

/-- A ticket entry never allocated. -/
def Ticket.fresh : Ticket := ⟨false, 0, 0, 0, none⟩

/-- Scalar operands as read at issue (R92); `bad` when a datum among them was poisoned (R93), `sbBad` when S[SB] of a
collective or a DISP was, which is read only where there is a local member (R202, R251). -/
structure Scal where
  ss : Nat
  sk : Nat
  sa : Nat
  sb : Nat
  sc : Nat
  se : Nat
  sf : Nat
  reg : Nat
  chain : List Nat
  bad : Bool
  sbBad : Bool
  deriving DecidableEq, Repr

/-- A ticketed instruction in a queue or an engine: its word, operands and what was sampled at issue (R75, R80, R92).
`plates` lists the plates that admitted it, `verdict` an end decided when it started (R114, R167). -/
structure EngOp where
  entry : Nat
  thread : Nat
  ord : Nat
  cls : Nat
  opc : Nat
  w : BitVec 119
  sc : Scal
  seed : Nat
  level : Nat
  determ : Bool
  plates : List Nat
  verdict : Option (Nat × Nat)
  deriving DecidableEq, Repr

/-- Image slot states with the codes of TILE_IMG_STATUS (R126). -/
inductive SlotSt where
  | empty | loading | loaded | running | stopping
  deriving DecidableEq, Repr

/-- R126. -/
def SlotSt.code : SlotSt → Nat
  | .empty => 0 | .loading => 1 | .loaded => 2 | .running => 3 | .stopping => 4

/-- An image slot with what LOAD reserved for it (R94, R117, R119). -/
structure ImageSlot where
  st : SlotSt
  base : Nat
  codeSize : Nat
  threads : Nat
  perThread : Nat
  ranges : List Nat
  level : Nat
  flags : Nat
  entry : Nat
  vGrant : Nat
  mGrant : Nat
  tGrant : Nat
  dataOff : Nat
  dataSize : Nat
  imageId : Nat
  deriving DecidableEq, Repr

/-- An empty slot. -/
def ImageSlot.fresh : ImageSlot := ⟨.empty, 0, 0, 0, 0, [], 0, 0, 0, 0, 0, 0, 0, 0, 0⟩

/-- The state of one tile beside its registers. `testHold` keeps new hatch, chain and crosshatch instructions from issuing
(R519). V registers hold 256 lanes of 32 bits, T rows are listed under
16 × register + row (R88). `vBad`, `mBad`, `tBad` are poison (R93), `vUc`, `mUc`, `tUc` uncorrectable registers (R122). -/
structure Tile where
  threads : Tbl Thread
  v : Tbl (BitVec 8192)
  m : Tbl (BitVec 256)
  t : Tbl (BitVec 8192)
  vBad : BitVec 32
  mBad : BitVec 8
  tBad : BitVec 8
  vUc : BitVec 32
  mUc : BitVec 8
  tUc : BitVec 8
  tickets : Tbl Ticket
  hatchQ : List EngOp
  xhQ : List EngOp
  memQ : List EngOp
  hatchRun : List EngOp
  xhRun : List EngOp
  memRun : List EngOp
  commRun : List EngOp
  istore : Tbl (BitVec 128)
  slots : Tbl ImageSlot
  imgCmd : Option (Nat × Nat × Nat)
  nextOrd : Nat
  scrubLine : Nat
  handOver : Option Nat
  testHold : Bool
  stTries : Nat
  deriving DecidableEq, Repr

/-- A tile as reset leaves it. -/
def Tile.fresh : Tile :=
  ⟨[], [], [], [], 0, 0, 0, 0, 0, 0, [], [], [], [], [], [], [], [], [], [], none, 0, 0, none, false, 0⟩

end Sys2Proof.Machine
end

