-- ==== Sys2Proof/Machine/Operands.lean ====
section
/-! DEFINITION. The operand forms of the instruction word (R130 to R132, R137, R141, R142, R157, R164, R170, R182): the
fields of each class, and the registers that an instruction reads and writes. A word here is bits [118:0]; CLASS and OP,
bits [127:119], are the row's. -/
namespace Sys2Proof.Machine

/-- A field of an instruction word, bits [lo+width-1:lo]. -/
def wField (w : BitVec 119) (lo width : Nat) : Nat := fieldOf w.toNat lo width

/-- Destination or ticket register (R131). -/
def wD (w : BitVec 119) : Nat := wField w 114 5
/-- Bits [113:109]: A, VD, REG or SA, by class. -/
def wA (w : BitVec 119) : Nat := wField w 109 5
/-- Bits [108:104]: B, VA, SA of memory or SB of communicate. -/
def wB (w : BitVec 119) : Nat := wField w 104 5
/-- Bits [103:99]: VB, VBASE, SC. -/
def wC (w : BitVec 119) : Nat := wField w 99 5
/-- Bits [98:94]: VC, SBASE, SS of memory, SE of communicate. -/
def wE (w : BitVec 119) : Nat := wField w 94 5
/-- Bits [93:89]: SF of communicate. -/
def wF (w : BitVec 119) : Nat := wField w 89 5
/-- The immediate select of the scalar form (R137). -/
def wI (w : BitVec 119) : Bool := bitOf w.toNat 103
/-- The 64-bit immediate of the scalar form (R137). -/
def wImm64 (w : BitVec 119) : Nat := wField w 0 64
/-- Mask register (R142). -/
def wMK (w : BitVec 119) : Nat := wField w 91 3
/-- Inactive lanes are written with zero (R142). -/
def wMZ (w : BitVec 119) : Bool := bitOf w.toNat 90
/-- Every lane is active (R142). -/
def wUM (w : BitVec 119) : Bool := bitOf w.toNat 89
/-- Source format code (R142); FM of memory, FMT of communicate. -/
def wFA (w : BitVec 119) : Nat := wField w 85 4
/-- Destination format code (R142). -/
def wFD (w : BitVec 119) : Nat := wField w 81 4
/-- Rounding mode (R67). -/
def wRM (w : BitVec 119) : Nat := wField w 79 2
/-- Block size of a destination; BS_RET of memory (R142, R170). -/
def wBS (w : BitVec 119) : Nat := wField w 78 1
/-- Register of the stochastic key's chunk (R142). -/
def wSK (w : BitVec 119) : Nat := wField w 73 5
/-- Scalar operand or destination of the hatch form (R142). -/
def wSS (w : BitVec 119) : Nat := wField w 68 5
/-- AUX of the hatch form (R142). -/
def wAUX (w : BitVec 119) : Nat := wField w 64 4
/-- Second-operand select of the hatch form (R142). -/
def wBSEL (w : BitVec 119) : Nat := wField w 32 2
/-- The 32-bit immediate of the hatch form (R142). -/
def wImm32 (w : BitVec 119) : Nat := wField w 0 32
/-- Stage `i` of a chain (R157). -/
def wStage (w : BitVec 119) (i : Nat) : Nat := wField w (9 * i) 9
/-- SOP of a stage (R158). -/
def stageOp (st : Nat) : Nat := st / 16
/-- SEL of a stage (R158). -/
def stageSel (st : Nat) : Nat := st % 16
/-- Crosshatch fields (R164). -/
def wTDST (w : BitVec 119) : Nat := wField w 111 3
/-- Left operand T register (R164). -/
def wTA (w : BitVec 119) : Nat := wField w 108 3
/-- Initial-value T register (R164). -/
def wTC (w : BitVec 119) : Nat := wField w 105 3
/-- INIT (R164). -/
def wINIT (w : BitVec 119) : Nat := wField w 103 2
/-- SB of the crosshatch form (R164). -/
def wXSB (w : BitVec 119) : Nat := wField w 98 5
/-- SC of the crosshatch form (R164). -/
def wXSC (w : BitVec 119) : Nat := wField w 93 5
/-- Right operand format code (R164). -/
def wFB (w : BitVec 119) : Nat := wField w 89 4
/-- K (R164). -/
def wK (w : BitVec 119) : Nat := (wField w 69 4 + 1) * 16
/-- N (R164). -/
def wN (w : BitVec 119) : Nat := (wField w 67 2 + 1) * 64
/-- ROWS of the crosshatch form (R164). -/
def wXRows (w : BitVec 119) : Nat := wField w 63 4 + 1
/-- ROWS of LDT and STT (R170). -/
def wRows (w : BitVec 119) : Nat := wField w 72 4 + 1
/-- The signed byte offset of the memory form (R170). -/
def wOFS (w : BitVec 119) : Int := sextOf (wField w 0 32) 32
/-- Reduction operator of the communicate form (R182). -/
def wRED (w : BitVec 119) : Nat := wField w 82 3

/-- Registers that the scoreboard and the grants speak of, and scalar results (R88 to R91). -/
inductive RegRef where
  | v (n : Nat) | m (n : Nat) | t (n : Nat) | s (n : Nat)
  deriving DecidableEq, Repr

/-- Hatch operations whose second operand BSEL chooses (R146). -/
def hatchHasY (opc : Nat) : Bool := decide (opc ≤ 0x08) || opc == 0x0E

/-- Whether a hatch operation moves lanes raw (R146). -/
def hatchRaw (opc : Nat) : Bool :=
  opc == 0x0F || opc == 0x10 || opc == 0x11 || opc == 0x12 || opc == 0x15 || opc == 0x16

/-- Whether a hatch operation is a mask operation (R146). -/
def hatchMask (opc : Nat) : Bool := decide (0x18 ≤ opc) && decide (opc ≤ 0x1D)

/-- V, M and T registers that a hatch instruction reads (R90, R146). -/
def hatchReads (opc : Nat) (w : BitVec 119) : List RegRef :=
  let va := if hatchMask opc then [RegRef.m (wB w % 8)]
    else if opc = 0x14 ∨ opc = 0x15 then [.t (wB w % 8)] else [.v (wB w)]
  let a := if opc = 0x10 ∨ opc = 0x12 ∨ opc = 0x1C then [] else va
  let b := if (hatchHasY opc && wBSEL w == 0) || opc == 0x0F then [RegRef.v (wC w)]
    else if 0x18 ≤ opc ∧ opc ≤ 0x1A then [.m (wC w % 8)] else []
  let c := if opc = 0x03 then [RegRef.v (wE w)] else []
  let mk := if !wUM w && !hatchMask opc && opc != 0x11 then [RegRef.m (wMK w)] else []
  a ++ b ++ c ++ mk

/-- Registers that a hatch instruction writes (R90, R91, R146, R153). -/
def hatchWrites (opc : Nat) (w : BitVec 119) : List RegRef :=
  if opc = 0x11 ∨ opc = 0x1D then [.s (wSS w)]
  else if opc = 0x0E ∨ hatchMask opc then [.m (wA w % 8)]
  else if opc = 0x16 then [.t (wA w % 8)]
  else if opc = 0x17 then [.v (wA w), .v (wE w)]
  else [.v (wA w)]

/-- The stages of a chain before its first END. -/
def chainStages (w : BitVec 119) : List Nat :=
  ((List.range 8).map (wStage w)).takeWhile (fun st => stageOp st != 0)

/-- Stage operations that take an operand (R158). -/
def stageHasOperand (sop : Nat) : Bool :=
  (decide (1 ≤ sop) && decide (sop ≤ 6)) || sop == 0x0F || sop == 0x10 || sop == 0x11 || sop == 0x12

/-- Vector registers that a chain's stages name (R158). -/
def chainVregs (w : BitVec 119) : List Nat :=
  ((chainStages w).filter (fun st => stageHasOperand (stageOp st) && decide (stageSel st < 8))).map
    (fun st => (wC w + stageSel st) % 32)

/-- Scalar registers that a chain's stages name (R158). -/
def chainSregs (w : BitVec 119) : List Nat :=
  ((chainStages w).filter (fun st => stageHasOperand (stageOp st) && decide (8 ≤ stageSel st))).map
    (fun st => (wE w + stageSel st - 8) % 32)

/-- Whether a memory format code is block-scaled. -/
def codeIsBlock (c : Nat) : Bool := decide (c ≤ 3)

/-- Registers that a ticketed instruction reads among V, M and T (R90). -/
def opReads (cls opc : Nat) (w : BitVec 119) : List RegRef :=
  match cls with
  | 1 => hatchReads opc w
  | 2 =>
    let k (n : Nat) : RegRef := if opc = 1 then .t (n % 8) else .v n
    [k (wB w)] ++ (chainVregs w).map RegRef.v ++ (if wUM w then [] else [RegRef.m (wMK w)])
  | 3 => [.t (wTA w)] ++ (if wINIT w = 1 then [.t (wTDST w)] else if wINIT w = 2 then [.t (wTC w)] else [])
  | 4 =>
    (match opc with
     | 1 => [RegRef.v (wA w)]
     | 3 => [.t (wA w % 8)]
     | _ => []) ++ (if decide (opc ≤ 3) && !wUM w then [RegRef.m (wMK w)] else [])
  | _ => []

/-- Registers that a ticketed instruction writes (R90, R91). -/
def opWrites (cls opc : Nat) (w : BitVec 119) : List RegRef :=
  match cls with
  | 1 => hatchWrites opc w
  | 2 => if opc = 1 then [.t (wA w % 8)] else [.v (wA w)]
  | 3 => [.t (wTDST w)]
  | 4 =>
    (match opc with
     | 0 => [.v (wA w)]
     | 2 => [.t (wA w % 8)]
     | 4 => [.s (wA w)]
     | 6 => if wBS w = 1 then [.s (wA w)] else []
     | 7 => [.s (wA w)]
     | _ => [])
  | _ => []

/-- Every V, M or T register that an instruction names, for the grants of R89. -/
def opNames (cls opc : Nat) (w : BitVec 119) : List RegRef :=
  let t := opReads cls opc w ++ opWrites cls opc w
  t.filter (fun r => match r with | .s _ => false | .v _ => true | .m _ => true | .t _ => true)

/-- The scalar result register of a ticketed instruction, pending until its ticket completes (R91, R147, R177, R178). -/
def opScalarDest (cls opc : Nat) (w : BitVec 119) : Option Nat :=
  match opWrites cls opc w with
  | [.s n] => some n
  | _ => none

/-- Scalar registers read as addresses, whose poison faults the thread (R93). -/
def addrRegs (cls opc : Nat) (w : BitVec 119) : List Nat :=
  match cls with
  | 3 => [wXSB w] ++ (if codeIsBlock (wFB w) then [wXSC w] else [])
  | 4 => [wB w] ++ (if decide (opc ≤ 3) && codeIsBlock (wFA w) then [wC w] else []) ++
      (if opc = 2 ∨ opc = 3 then [wE w] else [])
  | _ => []

/-- Scalar registers read as data (R92, R93), but for S[SB] of a collective or a DISP (`memberReg`); COMB does not read S[SB]
(R268). -/
def dataRegs (cls opc : Nat) (w : BitVec 119) : List Nat :=
  let sk := if wRM w = 2 then [wSK w] else []
  match cls with
  | 1 =>
    let ss := if (hatchHasY opc && wBSEL w == 1) || (opc == 0x10 && wAUX w % 2 == 0) ||
        ((opc == 0x15 || opc == 0x16) && wAUX w % 2 == 1) then [wSS w] else []
    ss ++ (if hatchRaw opc || hatchMask opc then [] else sk)
  | 2 => chainSregs w ++ sk
  | 3 => sk
  | 4 => (if opc = 6 ∨ opc = 7 then [wE w] else []) ++ (if opc = 5 then [wA w] else [])
  | 5 =>
    if opc = 0x24 then [wA w, wB w, wC w]
    else if opc = 0x20 ∨ opc = 0x21 then [wA w, wB w, wC w, wE w]
    else if opc ≤ 2 then [wA w, wC w, wE w]
    else [wA w, wC w, wE w, wF w]
  | _ => []

/-- R202, R251: the register S[SB] of a collective or a DISP, which is read only where the communicator has a local member. -/
def memberReg (cls opc : Nat) (w : BitVec 119) : List Nat := if cls = 5 ∧ opc ≤ 0x10 then [wB w] else []

/-- Scalar registers that a scalar or synchronise instruction reads (R137 to R141). -/
def scalarReads (cls opc : Nat) (w : BitVec 119) : List Nat :=
  let b := if wI w then [] else [wB w]
  match cls with
  | 0 =>
    if opc = 0 ∨ opc = 0x14 ∨ opc = 0x16 ∨ opc = 0x20 ∨ opc = 0x27 then []
    else if opc = 1 ∨ opc = 0x15 then b
    else if opc = 0x28 then [wA w]
    else if 0x21 ≤ opc ∧ opc ≤ 0x26 then [wA w, wB w]
    else [wA w] ++ b
  | 6 => if opc = 0 ∨ opc = 2 ∨ opc = 4 then [wA w] else []
  | _ => []

/-- Whether a scalar or synchronise instruction writes D. -/
def scalarWritesD (cls opc : Nat) : Bool :=
  match cls with
  | 0 => !(opc == 0 || opc == 0x15 || (decide (0x20 ≤ opc) && opc != 0x27))
  | 6 => opc == 0 || opc == 1 || opc == 2 || opc == 4
  | _ => false

/-- Every scalar register that an instruction reads or writes, for the pending check of R91. -/
def scalarTouched (cls opc : Nat) (w : BitVec 119) : List Nat :=
  match cls with
  | 0 | 6 => scalarReads cls opc w ++ (if scalarWritesD cls opc then [wD w] else [])
  | _ => addrRegs cls opc w ++ dataRegs cls opc w ++ (opScalarDest cls opc w).toList ++ [wD w]

/-- Whether a class and OP name an instruction (R131, R138, R141, R146, R157, R164, R170, R182). -/
def opDefined (cls opc : Nat) : Bool :=
  match cls with
  | 0 => decide (opc ≤ 0x16) || (decide (0x20 ≤ opc) && decide (opc ≤ 0x28))
  | 1 => decide (opc ≤ 0x1D)
  | 2 => decide (opc ≤ 1)
  | 3 => opc == 0
  | 4 => decide (opc ≤ 7)
  | 5 => decide (opc ≤ 7) || opc == 0x10 || opc == 0x11 || opc == 0x20 || opc == 0x21 || opc == 0x24
  | 6 => decide (opc ≤ 5)
  | _ => false

end Sys2Proof.Machine
end

