-- ==== Sys2Proof/Machine/Legal.lean ====
section
/-! DEFINITION. Illegal instructions (R132 to R134, R137 to R186, R608): the reasons decided on the instruction word, and
those decided on scalar operand values. -/
namespace Sys2Proof.Machine

/-- Reason codes of R134. -/
def rFIELD : Nat := 3
/-- R134. -/
def rFORMAT : Nat := 4
/-- R134. -/
def rFORMATUSE : Nat := 5
/-- R134. -/
def rROUNDING : Nat := 6
/-- R134. -/
def rALIGN : Nat := 7
/-- R134. -/
def rSHAPE : Nat := 8
/-- R134. -/
def rWINDOW : Nat := 9
/-- R134. -/
def rDETERM : Nat := 10
/-- R134. -/
def rCHAIN : Nat := 11
/-- R134. -/
def rLEVEL : Nat := 12
/-- R134. -/
def rCLASH : Nat := 13

/-- A list of conditions, each with the reason it gives when broken. -/
abbrev Conds := List (Bool × Nat)

/-- The lowest reason code among the broken conditions (R608). -/
def Conds.worst (cs : Conds) : Option Nat :=
  cs.foldl (fun (a : Option Nat) c =>
    if c.1 then some (match a with | none => c.2 | some x => min x c.2) else a) none

/-- A field that must be zero (R133). -/
def zeroField (w : BitVec 119) (lo width : Nat) : Bool × Nat := (wField w lo width != 0, rFIELD)

/-- A field that must be zero under a condition. -/
def zeroIf (c : Bool) (w : BitVec 119) (lo width : Nat) : Bool × Nat := (c && wField w lo width != 0, rFIELD)

/-- Whether a format code is one of R38. -/
def fmtKnown (c : Nat) : Bool := (Fmt.ofCode c).isSome
/-- Whether a format code is an integer format. -/
def codeIsInt (c : Nat) : Bool := match Fmt.ofCode c with | some f => f.isInt | none => false
/-- Whether a format code is a float format as R38 defines: W16, W32, Q6 or Q8. -/
def codeIsFloat (c : Nat) : Bool := match Fmt.ofCode c with | some f => f.isFloat | none => false
/-- R79: Q6 is illegal at numeric level 1. -/
def levelLacks (level c : Nat) : Bool := level == 1 && c == 1

/-- A format code in use: known (R39) and of the image's level (R79). -/
def fmtConds (level c : Nat) : Conds := [(!fmtKnown c, rFORMAT), (levelLacks level c, rLEVEL)]

/-- Rounding mode and stochastic key register (R67, R142). -/
def rmConds (w : BitVec 119) : Conds := [(wRM w == 3, rROUNDING), (wRM w != 2 && wSK w != 0, rFIELD)]

/-- R137 to R139, R141: scalar and synchronise words. -/
def scalarConds (cls opc : Nat) (w : BitVec 119) : Conds :=
  if cls = 6 then
    [zeroField w 0 109,
     zeroIf (opc == 3 || opc == 5) w 114 5,
     zeroIf (opc == 1 || opc == 3 || opc == 5) w 109 5]
  else
    let noOps := opc == 0 || opc == 0x14 || opc == 0x16 || opc == 0x20 || opc == 0x27
    let cond := decide (0x21 ≤ opc) && decide (opc ≤ 0x26)
    let br := decide (0x20 ≤ opc) && decide (opc ≤ 0x27)
    [zeroField w 64 39,
     zeroIf (noOps || opc == 1 || opc == 0x15) w 109 5,
     zeroIf (noOps || opc == 0x28 || wI w) w 104 5,
     zeroIf (noOps || cond || opc == 0x28) w 103 1,
     zeroIf (opc == 0 || opc == 0x15 || opc == 0x20 || cond || opc == 0x28) w 114 5,
     zeroIf (opc == 0 || opc == 0x14 || opc == 0x16 || opc == 0x28 || (!br && !wI w)) w 0 64,
     zeroIf br w 14 50]

/-- R142 to R153: hatch words. The reasons of a reserved code, of another IMM of VTOPK or MSETP, and what MZ may be when UM is 1,
are the model's (DESIGN CHOICE, log 69). -/
def hatchConds (opc level : Nat) (w : BitVec 119) : Conds :=
  let raw := hatchRaw opc
  let mask := hatchMask opc
  let y := hatchHasY opc
  let row := opc == 0x15 || opc == 0x16
  let aux := wAUX w
  let usesSS := (y && wBSEL w == 1) || (opc == 0x10 && aux % 2 == 0) || (row && aux % 2 == 1) || opc == 0x11 || opc == 0x1D
  let usesVB := (y && wBSEL w == 0) || opc == 0x0F || opc == 0x18 || opc == 0x19 || opc == 0x1A
  let usesFD := !(raw || mask || opc == 0x0E)
  let usesFA := !(raw || mask)
  let fixed := opc == 0x0D && aux % 2 == 1
  let reduce := opc == 0x13 || opc == 0x14
  [zeroField w 34 30,
   zeroIf (opc == 0x11 || opc == 0x1D) w 109 5,
   zeroIf (opc == 0x10 || opc == 0x12 || opc == 0x1C) w 104 5,
   zeroIf (!usesVB) w 99 5,
   zeroIf (!(opc == 0x03 || opc == 0x17)) w 94 5,
   zeroIf (wUM w || opc == 0x11 || mask) w 91 3,
   zeroIf (mask || opc == 0x11 || opc == 0x0F || opc == 0x13 || opc == 0x17) w 90 1,
   zeroIf (mask || opc == 0x11 || opc == 0x0F) w 89 1,
   zeroIf (!usesFA) w 85 4,
   zeroIf (!usesFD) w 81 4,
   zeroIf (!usesFD) w 79 2,
   zeroIf (!usesFD || !codeIsBlock (wFD w)) w 78 1,
   zeroIf (!usesSS) w 68 5,
   zeroIf (!y) w 32 2,
   (y && wBSEL w == 3, rFIELD),
   zeroIf (y && wBSEL w != 2) w 0 32,
   -- the lanes of a V register never need an immediate beside the following operations
   zeroIf (opc == 0x09 || opc == 0x0A || opc == 0x0B || opc == 0x0C || opc == 0x0F || opc == 0x12 || reduce ||
     (mask && opc != 0x1C) || (opc == 0x0D && !fixed) || (opc == 0x10 && aux % 2 == 0) || (row && aux % 2 == 1)) w 0 32,
   zeroIf (fixed || opc == 0x11) w 8 24,
   (fixed && wField w 0 8 == 0xFF, rFIELD),
   zeroIf (row && aux % 2 == 0) w 4 28,
   -- AUX
   zeroIf (!(opc == 0x0D || opc == 0x0E || opc == 0x10 || reduce || row)) w 64 4,
   zeroIf (opc == 0x0D || opc == 0x10 || row) w 65 3,
   zeroIf (opc == 0x0E || opc == 0x13) w 67 1,
   (reduce && decide (6 ≤ aux % 8), rFIELD),
   (fixed && !codeIsBlock (wFD w), rFIELD),
   -- T and M registers named through three bits
   zeroIf (opc == 0x14 || opc == 0x15 || (mask && opc != 0x1C)) w 107 2,
   zeroIf (opc == 0x16 || opc == 0x0E || (mask && opc != 0x1D)) w 112 2,
   zeroIf (opc == 0x18 || opc == 0x19 || opc == 0x1A) w 102 2] ++
  (if usesFA then fmtConds level (wFA w) else []) ++
  (if usesFD then fmtConds level (wFD w) else []) ++
  rmConds w ++
  [(decide (6 ≤ opc) && decide (opc ≤ 8) && !codeIsInt (wFA w), rFORMATUSE),
   (usesFD && opc != 0x0D && codeIsInt (wFA w) && !codeIsInt (wFD w), rFORMATUSE),
   ((opc == 0x0B || opc == 0x0C) && !codeIsFloat (wFA w), rFORMATUSE),
   (reduce && decide (3 ≤ aux % 8) && !codeIsInt (wFA w), rFORMATUSE),
   (opc == 0x17 && !(decide (1 ≤ wImm32 w) && decide (wImm32 w ≤ 8)), rSHAPE),
   (opc == 0x1C && decide (256 < wImm32 w), rSHAPE),
   (opc == 0x17 && wA w == wE w, rCLASH),
   ((opc == 0x11 || opc == 0x1D) && wSS w == wD w, rCLASH)]

/-- R159: a chain's stages; `ended` after the first END. -/
def stagesBroken : Bool → List Nat → Bool
  | _, [] => false
  | ended, st :: rest =>
    if ended || stageOp st == 0 then st != 0 || stagesBroken true rest
    else decide (0x13 ≤ stageOp st) || (!stageHasOperand (stageOp st) && stageSel st != 0) || stagesBroken false rest

/-- R157 to R161: chain words. VBASE and SBASE may hold anything where no stage names an operand by them (DESIGN CHOICE,
log 69). -/
def chainConds (opc level : Nat) (w : BitVec 119) : Conds :=
  let t := opc == 1
  [zeroField w 72 1,
   zeroIf t w 112 2,
   zeroIf t w 107 2,
   zeroIf (wUM w) w 91 3,
   zeroIf (!codeIsBlock (wFD w)) w 78 1] ++
  fmtConds level (wFA w) ++ fmtConds level (wFD w) ++ rmConds w ++
  [(codeIsInt (wFA w) && !codeIsInt (wFD w), rFORMATUSE),
   ((chainStages w).any (fun st => (stageOp st == 9 || stageOp st == 10)) && !codeIsFloat (wFA w), rFORMATUSE),
   ((chainStages w).any (fun st => decide (0x10 ≤ stageOp st) && decide (stageOp st ≤ 0x12)) && !codeIsInt (wFA w),
     rFORMATUSE),
   (stagesBroken false ((List.range 8).map (wStage w)), rCHAIN)]

/-- Block size from a BS bit. -/
def blockSize (bs : Nat) : Nat := if bs = 1 then 32 else 16

/-- R164 to R166: crosshatch words; a reserved code has the reason FIELD (DESIGN CHOICE, log 69). -/
def xmmConds (level : Nat) (w : BitVec 119) : Conds :=
  let blk := codeIsBlock (wFA w) && codeIsBlock (wFB w)
  let w16 := wFA w == 4 && wFB w == 4
  [zeroField w 0 63,
   zeroIf (wINIT w != 2) w 105 3,
   (wINIT w == 3, rFIELD),
   zeroIf (wFB w == 4) w 93 5,
   zeroIf (!codeIsBlock (wFA w) && !codeIsBlock (wFB w) && !codeIsBlock (wFD w)) w 78 1] ++
  fmtConds level (wFA w) ++ fmtConds level (wFB w) ++ fmtConds level (wFD w) ++ rmConds w ++
  [(!blk && !w16, rFORMATUSE),
   (codeIsInt (wFD w), rFORMATUSE),
   (blk && wK w % blockSize (wBS w) != 0, rSHAPE)]

/-- R170 to R180: memory words. -/
def memConds (opc level : Nat) (determ : Bool) (w : BitVec 119) : Conds :=
  let vec := decide (opc ≤ 3)
  let t := opc == 2 || opc == 3
  let atomic := opc == 6 || opc == 7
  let blk := vec && codeIsBlock (wFA w)
  let ret := wBS w == 1
  [zeroField w 79 6, zeroField w 76 2, zeroField w 32 40,
   zeroIf t w 112 2,
   zeroIf (!blk) w 99 5,
   zeroIf (!t && !atomic) w 94 5,
   zeroIf (!vec || wUM w) w 91 3,
   zeroIf (!(opc == 0 || opc == 2)) w 90 1,
   zeroIf (!vec) w 89 1,
   zeroIf (opc == 4 || opc == 5) w 85 4,
   zeroIf (!blk && !atomic) w 78 1,
   zeroIf (!t) w 72 4,
   (opc == 7 && !ret, rFIELD),
   zeroIf (opc == 6 && !ret) w 109 5] ++
  (if vec || atomic then fmtConds level (wFA w) else []) ++
  [(atomic && !(wFA w == 10 || wFA w == 14 || wFA w == 5), rFORMATUSE),
   (determ && (opc == 7 || (opc == 6 && (ret || wFA w == 5))), rDETERM),
   ((opc == 4 || opc == 7 || (opc == 6 && ret)) && wA w == wD w, rCLASH)]

/-- R182 to R186: communicate words. -/
def commConds (opc : Nat) (w : BitVec 119) : Conds :=
  let coll := decide (opc ≤ 0x11)
  let red := opc == 0 || opc == 1 || opc == 4 || opc == 7
  let rm := red || opc == 6 || opc == 0x10 || opc == 0x11
  [zeroField w 81 1, zeroField w 0 79,
   zeroIf (opc == 0x24) w 94 5,
   zeroIf (opc ≤ 2 || 0x20 ≤ opc) w 89 5,
   zeroIf (!coll) w 85 4,
   zeroIf (!red) w 82 3,
   zeroIf (!rm) w 79 2,
   (decide (6 ≤ wRED w), rFIELD),
   (coll && !fmtKnown (wFA w), rFORMAT),
   (red && decide (3 ≤ wRED w) && !codeIsInt (wFA w), rFORMATUSE),
   (wRM w == 3, rROUNDING)]

/-- R608 step 3: the reason decided on the instruction word, with the image's numeric level and GLB_MODE.DETERM. -/
def wordReason (cls opc level : Nat) (determ : Bool) (w : BitVec 119) : Option Nat :=
  (match cls with
   | 0 | 6 => scalarConds cls opc w
   | 1 => hatchConds opc level w
   | 2 => chainConds opc level w
   | 3 => xmmConds level w
   | 4 => memConds opc level determ w
   | 5 => commConds opc w
   | _ => []).worst

/-- The element plane of an access: S[SA] + OFS, modulo 2^64 (R170). -/
def elemBase (w : BitVec 119) (sa : Nat) : Nat := wrapInt ((sa : Int) + wOFS w) 64

/-- Whether a range lies wholly within the plate window (R166, R178). -/
def inPlates (a n : Nat) : Bool := decide (0x100000000 ≤ a) && decide (a + n ≤ 0x100000000 + 64 * 0x800000)

/-- Bytes of the right operand's element plane (R48, R166). -/
def xmmBytes (w : BitVec 119) : Nat :=
  match Fmt.ofCode (wFB w) with | some f => wN w * wK w * f.bits / 8 | none => 0

/-- Bytes of the right operand's scale plane; none for W16. -/
def xmmScaleBytes (w : BitVec 119) : Nat := if codeIsBlock (wFB w) then wN w * wK w / blockSize (wBS w) else 0

/-- Whether a fabric address names the burin cores or the plates endpoint of a die (R30, R184). -/
def tileEndpoint (dst : Nat) : Bool := decide (32 ≤ dst % 64) && decide ((dst % 64 - 32) % 8 < 2)

/-- R608 step 6: the reason decided on scalar operand values, given by register number; that of zero bits which are not zero is
FIELD (DESIGN CHOICE, log 69). Local addresses of collectives and the
vectors of ARAP need no alignment (DESIGN CHOICE beside R44, log 60). -/
def valueReason (cls opc : Nat) (w : BitVec 119) (s : Nat → Nat) : Option Nat :=
  Conds.worst (match cls with
   | 3 =>
     let a := s (wXSB w)
     let c := s (wXSC w)
     let blk := codeIsBlock (wFB w)
     [(a % 64 != 0 || (blk && c % 64 != 0), rALIGN),
      (!inPlates a (xmmBytes w) || (blk && !inPlates c (xmmScaleBytes w)), rWINDOW)]
   | 4 =>
     let a := elemBase w (s (wB w))
     if opc ≤ 3 then
       [(a % 64 != 0 || (codeIsBlock (wFA w) && s (wC w) % 64 != 0) ||
          (decide (2 ≤ opc) && fieldOf (s (wE w)) 0 32 % 64 != 0), rALIGN)]
     else if opc ≤ 5 then [(a % 8 != 0, rALIGN)]
     else [(a % 4 != 0, rALIGN), (!inPlates a 4, rWINDOW)]
   | 5 =>
     let a := s (wA w)
     if opc ≤ 0x11 then [(a / 2 ^ 52 != 0, rFIELD)]
     else if opc = 0x24 then [(a / 2 ^ 12 != 0, rFIELD)]
     else
       [(a / 2 ^ 40 != 0, rFIELD),
        (!tileEndpoint (a % 2 ^ 16) && fieldOf a 36 4 != 0, rFIELD),
        (s (wE w) / 2 ^ 32 != 0, rFIELD),
        (s (wE w) == 0, rSHAPE)]
   | _ => [])

end Sys2Proof.Machine
end

