-- ==== Sys2Proof/Machine/Memory.lean ====
section
/-! DEFINITION. Byte memory: one list of cells in one canonical form, and the list of poisoned 64-bit words
(R424, R430, R434). -/
namespace Sys2Proof.Machine

/-- Memory is the list of the cells that differ from what an unlisted address reads as, addresses rising. -/
abbrev Memory := List Host.Cell

/-- What an unlisted address reads as: plates are zeroed at power-on (R430); for HBM and DDR5 the byte is a
DESIGN CHOICE (log 4). -/
def Memory.blank : Byte := 0

/-- Canonical form: addresses strictly rising from `lo`, no cell equal to the blank byte. -/
def Memory.wfFrom (lo : Nat) : Memory → Bool
  | [] => true
  | (a, b) :: t => decide (lo ≤ a) && (b != Memory.blank) && Memory.wfFrom (a + 1) t

/-- The canonical form of a memory. -/
def Memory.wf (m : Memory) : Bool := Memory.wfFrom 0 m

/-- The byte at an address. -/
def Memory.readByte (a : Nat) : Memory → Byte
  | [] => Memory.blank
  | (k, b) :: t => if k = a then b else if a < k then Memory.blank else Memory.readByte a t

/-- A cell put in front of later cells, unless it is blank. -/
def Memory.consCell (a : Nat) (b : Byte) (t : Memory) : Memory :=
  if b = Memory.blank then t else (a, b) :: t

/-- One byte written. -/
def Memory.writeByte (a : Nat) (b : Byte) : Memory → Memory
  | [] => Memory.consCell a b []
  | (k, c) :: t =>
    if a < k then Memory.consCell a b ((k, c) :: t)
    else if a = k then Memory.consCell a b t
    else (k, c) :: Memory.writeByte a b t

/-- `n` bytes from an address. -/
def Memory.read (m : Memory) (a n : Nat) : List Byte :=
  (List.range n).map (fun i => Memory.readByte (a + i) m)

/-- Bytes written at consecutive addresses. -/
def Memory.write (m : Memory) (a : Nat) : List Byte → Memory
  | [] => m
  | b :: bs => Memory.write (Memory.writeByte a b m) (a + 1) bs

/-- Cells of a range removed: the range reads as blank again (wipes and zeroing, R429, R430). -/
def Memory.clear (m : Memory) (a n : Nat) : Memory :=
  m.filter (fun c => !(decide (a ≤ c.1) && decide (c.1 < a + n)))

/-- A sorted list of word numbers with one added. -/
def addWord (w : Nat) : List Nat → List Nat
  | [] => [w]
  | x :: t => if w < x then w :: x :: t else if w = x then x :: t else x :: addWord w t

/-- The word numbers without those of a list. -/
def dropWords (ws : List Nat) (l : List Nat) : List Nat := l.filter (fun x => !ws.contains x)

/-- The 64-bit words that a range of bytes touches. -/
def wordsOf (a n : Nat) : List Nat :=
  if n = 0 then [] else (List.range ((a + n - 1) / 8 - a / 8 + 1)).map (· + a / 8)

/-- The 64-bit words that a range of bytes covers whole. -/
def wholeWords (a n : Nat) : List Nat :=
  (wordsOf a n).filter (fun w => decide (a ≤ 8 * w) && decide (8 * w + 8 ≤ a + n))

end Sys2Proof.Machine
end

