-- ==== Sys2Proof/Machine/Compute.lean ====
section
/-! DEFINITION. What the hatch and crosshatch engines compute (R142 to R169), as functions of a tile's registers and the
operation. -/
namespace Sys2Proof.Machine

/-- What an engine operation leaves: its status and DETAIL, flags, and the registers it writes; T rows are numbered
16 × register + row. -/
structure EngOut where
  status : Nat
  detail : Nat
  flags : Flags
  vs : List (Nat × BitVec 8192)
  ms : List (Nat × BitVec 256)
  ts : List (Nat × BitVec 8192)
  sv : Option Word
  deriving DecidableEq, Repr

/-- An operation that ends with an error writes nothing (R136). -/
def EngOut.fail (status detail : Nat) (fl : Flags) : EngOut := ⟨status, detail, fl, [], [], [], none⟩

/-- A V register. -/
def Tile.vReg (tl : Tile) (n : Nat) : BitVec 8192 := Tbl.look 0 tl.v n
/-- A row of a T register. -/
def Tile.tRow (tl : Tile) (n r : Nat) : BitVec 8192 := Tbl.look 0 tl.t (16 * n + r)
/-- A mask register. -/
def Tile.mReg (tl : Tile) (n : Nat) : BitVec 256 := Tbl.look 0 tl.m n

/-- The lanes of a register in order. -/
def lanes256 (v : BitVec 8192) : List Nat := (List.range 256).map (laneOf v)

/-- R143: the active lanes. -/
def activeMask (tl : Tile) (w : BitVec 119) : List Bool :=
  (List.range 256).map (fun i => wUM w || (tl.mReg (wMK w)).getLsbD i)

/-- What a lane of a destination receives: a value, an element of zero, or its old content. -/
inductive Cell where
  | val (v : Val)
  | zero
  | keep
  deriving DecidableEq, Repr

/-- How an operation stores: destination format, block size, rounding, and a fixed scale code. -/
structure StoreForm where
  fmt : Fmt
  bs : Nat
  mode : Mode
  level : Nat
  seed : Nat
  chunk : Nat
  fixed : Option Nat
  deriving DecidableEq, Repr

/-- The rounding of the element at an index (R71, R144). -/
def StoreForm.rnd (sf : StoreForm) (index : Nat) : Rnd := ⟨sf.mode, sf.level, ⟨sf.seed, 0xFFFFF, sf.chunk, index⟩⟩

/-- The element code of one value outside a block (R62, R63). -/
def StoreForm.elem (sf : StoreForm) (index : Nat) (v : Val) : Nat × Flags :=
  match v with
  | .int z =>
    if sf.fmt.isInt then storeInt z sf.fmt else storeElem (Acc.ofInt z) sf.fmt (sf.rnd index)
  | .acc a => storeElem a sf.fmt (sf.rnd index)

/-- A block of a block-scaled destination (R145): zero lanes count as zero values. -/
def StoreForm.block (sf : StoreForm) (index : Nat) (cells : List Cell) : List Nat × Flags :=
  let blk := (cells.zip (List.range cells.length)).map (fun p =>
    ((match p.1 with | .val v => v.toAcc | .zero => .zero false | .keep => .zero false), sf.rnd (index + p.2)))
  match sf.fixed with
  | some c => storeFixed sf.fmt c blk
  | none => storeBlock sf.fmt sf.level blk

/-- R145: destination cells stored over the old lanes; `base` is the index of the first cell. Whole blocks are either
kept or written. -/
def StoreForm.store (sf : StoreForm) (base : Nat) (cells : List Cell) (old : List Nat) : List Nat × Flags :=
  if sf.fmt.isBlock then
    let n := ceilDiv cells.length sf.bs
    let cs := pieces sf.bs n cells
    let os := pieces sf.bs n old
    let rs := ((cs.zip os).zip (List.range n)).map (fun p =>
      if p.1.1.all (fun c => c == .keep) then (p.1.2, Flags.none)
      else sf.block (base + p.2 * sf.bs) p.1.1)
    ((rs.map (·.1)).flatten, rs.foldl (fun f r => f.join r.2) .none)
  else
    let rs := ((cells.zip old).zip (List.range cells.length)).map (fun p =>
      match p.1.1 with
      | .keep => (p.1.2, Flags.none)
      | .zero => (0, Flags.none)
      | .val v => let r := sf.elem (base + p.2) v; (toLane sf.fmt r.1 0, r.2))
    (rs.map (·.1), rs.foldl (fun f r => f.join r.2) .none)

/-- R145: the first block with both active and inactive lanes. -/
def splitBlock (bs : Nat) (active : List Bool) : Option Nat :=
  (List.range (ceilDiv active.length bs)).find? (fun j =>
    let b := (active.drop (j * bs)).take bs
    b.any id && b.any (fun x => !x))

/-- R168, R175: the first block whose lanes carry different scale codes. -/
def mixedBlock (bs : Nat) (lanes : List Nat) : Option Nat :=
  (List.range (ceilDiv lanes.length bs)).find? (fun j =>
    let b := (lanes.drop (j * bs)).take bs
    b.any (fun l => fieldOf l 24 8 != fieldOf (nth 0 b 0) 24 8))

/-- The store form of a hatch, chain or crosshatch word. -/
def storeFormOf (op : EngOp) (fixed : Option Nat) : Option StoreForm :=
  match Fmt.ofCode (wFD op.w), Mode.ofCode (wRM op.w) with
  | some f, some m => some ⟨f, if wBS op.w = 1 then 32 else 16, m, op.level, op.seed, op.sc.sk % 2 ^ 32, fixed⟩
  | _, _ => none

/-- Values at active lanes, MZ's zero or the old content elsewhere (R143). -/
def maskedCells (mz : Bool) (active : List Bool) (vals : List Val) : List Cell :=
  (active.zip vals).map (fun p => if p.1 then .val p.2 else if mz then .zero else .keep)

/-- Raw lanes at active places, MZ's zero or the old content elsewhere (R143, R146). -/
def maskedRaw (mz : Bool) (active : List Bool) (vals old : List Nat) : BitVec 8192 :=
  ofLanes (((active.zip vals).zip old).map (fun p => if p.1.1 then p.1.2 else if mz then 0 else p.2))

/-- Lanes decoded from a format; only active lanes can set a flag (R73, R143). -/
def decodeLanes (f : Fmt) (active : List Bool) (ls : List Nat) : List Val × Flags :=
  let rs := (active.zip ls).map (fun p => if p.1 then Val.ofLane f p.2 else (Val.int 0, Flags.none))
  (rs.map (·.1), rs.foldl (fun fl r => fl.join r.2) .none)

/-- A function applied at the active lanes, flags gathered. -/
def mapActive (active : List Bool) (vals : List Val) (f : Val → Val × Flags) : List Val × Flags :=
  let rs := (active.zip vals).map (fun p => if p.1 then f p.2 else (p.2, Flags.none))
  (rs.map (·.1), rs.foldl (fun fl r => fl.join r.2) .none)

/-- A binary operator at the active lanes. -/
def zipActive (active : List Bool) (xs ys : List Val) (f : Val → Val → Val × Flags) : List Val × Flags :=
  let rs := (active.zip (xs.zip ys)).map (fun p => if p.1 then f p.2.1 p.2.2 else (p.2.1, Flags.none))
  (rs.map (·.1), rs.foldl (fun fl r => fl.join r.2) .none)

/-- R143, R146: the lanes of the second operand that BSEL chooses. -/
def yLanes (tl : Tile) (op : EngOp) : List Nat :=
  match wBSEL op.w with
  | 1 => List.replicate 256 (op.sc.ss % 2 ^ 32)
  | 2 => List.replicate 256 (wImm32 op.w)
  | _ => lanes256 (tl.vReg (wC op.w))

/-- The binary operator of a hatch operation (R146). -/
def hatchBin : Nat → BinOp
  | 0x00 => .add | 0x01 => .sub | 0x02 => .mul | 0x04 => .max | 0x05 => .min
  | 0x06 => .and | 0x07 => .or | _ => .xor

/-- The operator of a reduction (R149, R182). -/
def redOp : Nat → BinOp
  | 0 => .add | 1 => .max | 2 => .min | 3 => .and | 4 => .or | _ => .xor

/-- Reciprocal or reciprocal square root of a value (R154, R155). -/
def Val.recip (sqrt : Bool) (v : Val) : Val × Flags :=
  let r := if sqrt then rsqAcc v.toAcc else rcpAcc v.toAcc
  (.acc r.1, r.2)

/-- A value is NaN. -/
def Val.isNan (v : Val) : Bool := v == .acc .nan

/-- One value is below another (R148). -/
def Val.lt (a b : Val) : Bool :=
  match a, b with
  | .int x, .int y => decide (x < y)
  | x, y => x.toAcc.lt y.toAcc

/-- Two values are equal; −0 equals +0 (R148). -/
def Val.eqv (a b : Val) : Bool :=
  match a, b with
  | .int x, .int y => decide (x = y)
  | x, y => x.toAcc.eqv y.toAcc

/-- R148: the condition of VCMP. -/
def Val.cond (c : Nat) (a b : Val) : Bool :=
  let nan := a.isNan || b.isNan
  match c with
  | 0 => !nan && a.eqv b
  | 1 => nan || !a.eqv b
  | 2 => !nan && a.lt b
  | 3 => !nan && (a.lt b || a.eqv b)
  | 4 => !nan && b.lt a
  | 5 => !nan && (b.lt a || a.eqv b)
  | 6 => nan
  | _ => !nan

/-- R152: whether `a` ranks before `b` by value. -/
def Val.ranksAbove (a b : Val) : Bool :=
  if a.isNan then false else if b.isNan then true else b.lt a

/-- R152: the lane of the largest element among numbered ones, lower lanes first among equals. -/
def topLane : List (Nat × Val) → Option (Nat × Val)
  | [] => none
  | x :: t =>
    match topLane t with
    | none => some x
    | some y => if y.2.ranksAbove x.2 then some y else some x

/-- R152: the `k` largest elements with their lanes. -/
def topK : Nat → List (Nat × Val) → List (Nat × Val)
  | 0, _ => []
  | k + 1, l =>
    match topLane l with
    | none => []
    | some x => x :: topK k (l.filter (fun y => y.1 != x.1))

/-- A zero value of a format. -/
def Val.zeroOf (f : Fmt) : Val := if f.isInt then .int 0 else .acc (.zero false)

/-- A register result stored lane by lane, or MASK_SPLIT_BLOCK (R145), which sets no flag (DESIGN CHOICE, log 60). -/
def storeV (sf : StoreForm) (active : List Bool) (cells : List Cell) (old : BitVec 8192) (fl : Flags)
    (dest : Nat) : EngOut :=
  match (if sf.fmt.isBlock then splitBlock sf.bs active else none) with
  | some j => .fail 0x10 j .none
  | none =>
    let r := sf.store 0 cells (lanes256 old)
    ⟨0, 0, fl.join r.2, [(dest, ofLanes r.1)], [], [], none⟩

/-- Mask operations 0x18 to 0x1D (R146, R147). -/
def maskOp (tl : Tile) (opc : Nat) (w : BitVec 119) : EngOut :=
  let a := tl.mReg (wB w % 8)
  let b := tl.mReg (wC w % 8)
  let out (m : BitVec 256) : EngOut := ⟨0, 0, .none, [], [(wA w % 8, m)], [], none⟩
  match opc with
  | 0x18 => out (a &&& b)
  | 0x19 => out (a ||| b)
  | 0x1A => out (a ^^^ b)
  | 0x1B => out (~~~ a)
  | 0x1C => out (BitVec.ofNat 256 (2 ^ wImm32 w - 1))
  | _ => ⟨0, 0, .none, [], [], [],
      some (BitVec.ofNat 64 ((List.range 256).filter (fun i => a.getLsbD i)).length)⟩

/-- Raw operations: VSEL, VBCST, VEXT, VIDX, TROW, TPUT (R146, R147). -/
def rawOp (tl : Tile) (op : EngOp) : EngOut :=
  let w := op.w
  let act := activeMask tl w
  let row := if wAUX w % 2 = 1 then op.sc.ss % 16 else wImm32 w % 16
  let va := lanes256 (tl.vReg (wB w))
  let vd := lanes256 (tl.vReg (wA w))
  let out (v : BitVec 8192) : EngOut := ⟨0, 0, .none, [(wA w, v)], [], [], none⟩
  match op.opc with
  | 0x0F => out (maskedRaw false ((List.range 256).map (fun i => (tl.mReg (wMK w)).getLsbD i)) va
      (lanes256 (tl.vReg (wC w))))
  | 0x10 => out (maskedRaw (wMZ w) act
      (List.replicate 256 (if wAUX w % 2 = 1 then wImm32 w else op.sc.ss % 2 ^ 32)) vd)
  | 0x11 => ⟨0, 0, .none, [], [], [], some (BitVec.ofNat 64 (nth 0 va (wImm32 w % 256)))⟩
  | 0x12 => out (maskedRaw (wMZ w) act (List.range 256) vd)
  | 0x15 => out (maskedRaw (wMZ w) act (lanes256 (tl.tRow (wB w % 8) row)) vd)
  | _ =>
    let t := wA w % 8
    ⟨0, 0, .none, [], [], [(16 * t + row, maskedRaw (wMZ w) act va (lanes256 (tl.tRow t row)))], none⟩

/-- The leaves of a reduction: active lanes only (R149 to R151). -/
def leaves (active : List Bool) (vals : List Val) : List (Option Val) :=
  (active.zip vals).map (fun p => if p.1 then some p.2 else none)

/-- R150: VRED. -/
def vredOut (tl : Tile) (op : EngOp) (f : Fmt) (sf : StoreForm) : EngOut :=
  let act := activeMask tl op.w
  let d := decodeLanes f act (lanes256 (tl.vReg (wB op.w)))
  let r := treeOf (Val.bin f (redOp (wAUX op.w % 8))) 8 (leaves act d.1)
  let cells := .val (r.1.getD (Val.zeroOf sf.fmt)) :: List.replicate 255 Cell.zero
  storeV sf (List.replicate 256 true) cells 0 (d.2.join r.2) (wA op.w)

/-- R151: TRED along either axis. -/
def tredOut (tl : Tile) (op : EngOp) (f : Fmt) (sf : StoreForm) : EngOut :=
  let act := activeMask tl op.w
  let o := redOp (wAUX op.w % 8)
  let rows := (List.range 16).map (fun r => decodeLanes f act (lanes256 (tl.tRow (wB op.w % 8) r)))
  let fl := rows.foldl (fun a r => a.join r.2) Flags.none
  if wAUX op.w < 8 then
    let cols := (List.range 256).map (fun c =>
      if nth false act c then treeOf (Val.bin f o) 4 (rows.map (fun r => r.1[c]?)) else (none, Flags.none))
    let fl := cols.foldl (fun a c => a.join c.2) fl
    storeV sf act (maskedCells (wMZ op.w) act (cols.map (fun c => c.1.getD (Val.zeroOf sf.fmt))))
      (tl.vReg (wA op.w)) fl (wA op.w)
  else
    let rs := rows.map (fun r => treeOf (Val.bin f o) 8 (leaves act r.1))
    let fl := rs.foldl (fun a c => a.join c.2) fl
    let cells := rs.map (fun r => Cell.val (r.1.getD (Val.zeroOf sf.fmt))) ++ List.replicate 240 Cell.zero
    storeV sf (List.replicate 256 true) cells 0 fl (wA op.w)

/-- R152, R153: VTOPK. -/
def topkOut (tl : Tile) (op : EngOp) (f : Fmt) (sf : StoreForm) : EngOut :=
  let act := activeMask tl op.w
  let d := decodeLanes f act (lanes256 (tl.vReg (wB op.w)))
  let k := wImm32 op.w
  let cand := ((List.range 256).zip (act.zip d.1)).filterMap (fun p => if p.2.1 then some (p.1, p.2.2) else none)
  let sel := topK k cand
  let short := k - sel.length
  let vals := sel.map (fun x => Cell.val x.2) ++ List.replicate short (Cell.val (Val.zeroOf sf.fmt))
  let idx := sel.map (·.1) ++ List.replicate short 0xFFFFFFFF
  let out := storeV sf (List.replicate 256 true) (vals ++ List.replicate (256 - k) Cell.zero) 0 d.2 (wA op.w)
  { out with vs := out.vs ++ [(wE op.w, ofLanes idx)] }

/-- R148: VCMP. -/
def vcmpOut (tl : Tile) (op : EngOp) (f : Fmt) : EngOut :=
  let act := activeMask tl op.w
  let x := decodeLanes f act (lanes256 (tl.vReg (wB op.w)))
  let y := decodeLanes f act (yLanes tl op)
  let old := tl.mReg (wA op.w % 8)
  let bits := (List.range 256).map (fun i =>
    if nth false act i then Val.cond (wAUX op.w % 8) (nth (.int 0) x.1 i) (nth (.int 0) y.1 i)
    else if wMZ op.w then false else old.getLsbD i)
  ⟨0, 0, x.2.join y.2, [], [(wA op.w % 8, BitVec.ofNat 256 (bits.foldr (fun b n => b2n b + 2 * n) 0))], [], none⟩

/-- R144, R146: lane arithmetic. -/
def laneOut (tl : Tile) (op : EngOp) (f : Fmt) (sf : StoreForm) : EngOut :=
  let act := activeMask tl op.w
  let x := decodeLanes f act (lanes256 (tl.vReg (wB op.w)))
  let un (g : Val → Val × Flags) : List Val × Flags :=
    let r := mapActive act x.1 g
    (r.1, x.2.join r.2)
  let r : List Val × Flags :=
    match op.opc with
    | 0x09 => un (fun v => (v.mag f, .none))
    | 0x0A => un (fun v => (v.neg f, .none))
    | 0x0B => un (Val.recip false)
    | 0x0C => un (Val.recip true)
    | 0x0D => x
    | 0x03 =>
      let y := decodeLanes f act (yLanes tl op)
      let z := decodeLanes f act (lanes256 (tl.vReg (wE op.w)))
      let p := zipActive act x.1 y.1 (Val.bin f .mul)
      let q := zipActive act p.1 z.1 (Val.bin f .add)
      (q.1, (((x.2.join y.2).join z.2).join p.2).join q.2)
    | o =>
      let y := decodeLanes f act (yLanes tl op)
      let p := zipActive act x.1 y.1 (Val.bin f (hatchBin o))
      (p.1, (x.2.join y.2).join p.2)
  storeV sf act (maskedCells (wMZ op.w) act r.1) (tl.vReg (wA op.w)) r.2 (wA op.w)

/-- The hatch instructions (R142 to R156). -/
def hatchOut (tl : Tile) (op : EngOp) : EngOut :=
  if hatchMask op.opc then maskOp tl op.opc op.w
  else if hatchRaw op.opc then rawOp tl op
  else
    let fixed := if op.opc = 0x0D ∧ wAUX op.w % 2 = 1 then some (wImm32 op.w % 256) else none
    match Fmt.ofCode (wFA op.w), storeFormOf op fixed with
    | some f, some sf =>
      if op.opc = 0x0E then vcmpOut tl op f
      else if op.opc = 0x13 then vredOut tl op f sf
      else if op.opc = 0x14 then tredOut tl op f sf
      else if op.opc = 0x17 then topkOut tl op f sf
      else laneOut tl op f sf
    | _, _ => .fail 0 0 .none

/-- One stage of a chain on one lane: `x`, `p` and the operand (R158, R161). -/
def stageStep (f : Fmt) (sop : Nat) (x p y : Val) : Val × Val × Flags :=
  let b (o : BinOp) (c : Val) : Val × Val × Flags := let r := Val.bin f o x c; (r.1, p, r.2)
  match sop with
  | 0x01 => b .add y
  | 0x02 => b .sub y
  | 0x03 => b .rsub y
  | 0x04 => b .mul y
  | 0x05 => b .max y
  | 0x06 => b .min y
  | 0x07 => (x.mag f, p, .none)
  | 0x08 => (x.neg f, p, .none)
  | 0x09 => let r := x.recip false; (r.1, p, r.2)
  | 0x0A => let r := x.recip true; (r.1, p, r.2)
  | 0x0B => b .mul x
  | 0x0C => (x, x, .none)
  | 0x0D => b .add p
  | 0x0E => b .mul p
  | 0x0F => (y, p, .none)
  | 0x10 => b .and y
  | 0x11 => b .or y
  | 0x12 => b .xor y
  | _ => (x, p, .none)

/-- R160, R79: the rounding between stages at numeric level 1. -/
def levelRound (level : Nat) (v : Val) : Val × Flags :=
  match v with
  | .acc a => if level = 1 then let r := roundW32 a; (.acc r.1, r.2) else (.acc a, .none)
  | .int z => (.int z, .none)

/-- The stages of a chain on one lane, with the operand lanes of each stage. -/
def chainLane (f : Fmt) (level : Nat) : List (Nat × Nat) → Val → Val → Flags → Val × Flags
  | [], x, _, fl => (x, fl)
  | (sop, y) :: rest, x, p, fl =>
    let yv := if stageHasOperand sop then Val.ofLane f y else (Val.zeroOf f, Flags.none)
    let r := stageStep f sop x p yv.1
    let q := levelRound level r.1
    let p' := if sop = 0x0C then q.1 else r.2.1
    chainLane f level rest q.1 p' (((fl.join yv.2).join r.2.2).join q.2)

/-- The operand lane of a stage (R158). -/
def stageOperand (tl : Tile) (op : EngOp) (st i : Nat) : Nat :=
  if stageSel st < 8 then laneOf (tl.vReg ((wC op.w + stageSel st) % 32)) i
  else nth 0 op.sc.chain (stageSel st - 8) % 2 ^ 32

/-- R160: a chain over one row of 256 lanes. -/
def chainRow (tl : Tile) (op : EngOp) (f : Fmt) (act : List Bool) (row : BitVec 8192) : List Val × Flags :=
  let sts := chainStages op.w
  let rs := (List.range 256).map (fun i =>
    if nth false act i then
      let x := Val.ofLane f (laneOf row i)
      chainLane f op.level (sts.map (fun st => (stageOp st, stageOperand tl op st i))) x.1 (Val.zeroOf f) x.2
    else (Val.int 0, Flags.none))
  (rs.map (·.1), rs.foldl (fun a r => a.join r.2) .none)

/-- The chain instructions (R157 to R162). -/
def chainOut (tl : Tile) (op : EngOp) : EngOut :=
  match Fmt.ofCode (wFA op.w), storeFormOf op none with
  | some f, some sf =>
    let act := activeMask tl op.w
    if op.opc = 0 then
      let r := chainRow tl op f act (tl.vReg (wB op.w))
      storeV sf act (maskedCells (wMZ op.w) act r.1) (tl.vReg (wA op.w)) r.2 (wA op.w)
    else
      let t := wA op.w % 8
      match (if sf.fmt.isBlock then splitBlock sf.bs act else none) with
      | some j => .fail 0x10 j .none
      | none =>
        let rs := (List.range 16).map (fun r =>
          let c := chainRow tl op f act (tl.tRow (wB op.w % 8) r)
          let o := sf.store (256 * r) (maskedCells (wMZ op.w) act c.1) (lanes256 (tl.tRow t r))
          ((16 * t + r, ofLanes o.1), c.2.join o.2))
        ⟨0, 0, rs.foldl (fun a x => a.join x.2) .none, [], [], rs.map (·.1), none⟩
  | _, _ => .fail 0 0 .none

/-- Element `i` of a packed element plane (R43). -/
def planeElem (bytes : List Byte) (bits i : Nat) : Nat :=
  fieldOf (leAt bytes (i * bits / 8) (if bits ≤ 8 then 2 else bits / 8)) (i * bits % 8) bits

/-- R168: the first row and block of the left operand whose scale codes differ. -/
def xmmMixed (tl : Tile) (w : BitVec 119) : Option Nat :=
  if codeIsBlock (wFA w) then
    (List.range (wXRows w)).findSome? (fun r =>
      (mixedBlock (blockSize (wBS w)) ((lanes256 (tl.tRow (wTA w) r)).take (wK w))).map (fun j => j + 256 * r))
  else none

/-- R165: the product, from the bytes of the right operand's element and scale planes. -/
def xmmOut (tl : Tile) (op : EngOp) (elems scales : List Byte) : EngOut :=
  let w := op.w
  match Fmt.ofCode (wFA w), Fmt.ofCode (wFB w), storeFormOf op none with
  | some fa, some fb, some sf =>
    let k := wK w
    let n := wN w
    let b := blockSize (wBS w)
    let cols := (List.range n).map (fun j =>
      ((List.range k).map (fun i => planeElem elems fb.bits (j * k + i)),
       (List.range (k / b)).map (fun i => (nth 0 scales (j * (k / b) + i)).toNat)))
    let rows := (List.range (wXRows w)).map (fun r =>
      let left := (lanes256 (tl.tRow (wTA w) r)).take k
      let old := lanes256 (tl.tRow (wTDST w) r)
      let init := if wINIT w = 2 then lanes256 (tl.tRow (wTC w) r) else old
      let sums := (cols.zip init).map (fun c =>
        let a0 := if wINIT w = 0 then (Acc.zero false, Flags.none) else decodeLane sf.fmt c.2
        let s := sumInto a0.1 (if fa.isBlock then dotBlocks fa fb b left c.1.1 c.1.2 else dotW16 left c.1.1)
        (s.1, a0.2.join s.2))
      let o := sf.store (256 * r) (sums.map (fun x => Cell.val (.acc x.1)) ++ List.replicate (256 - n) Cell.keep) old
      ((16 * wTDST w + r, ofLanes o.1), sums.foldl (fun f x => f.join x.2) o.2))
    ⟨0, 0, rows.foldl (fun f x => f.join x.2) .none, [], [], rows.map (·.1), none⟩
  | _, _, _ => .fail 0 0 .none

/-- R511: how many residue checks an operation makes: one for a hatch or chain instruction that computes, one for each
block pair or W16 output element of a product. -/
def residueChecks (op : EngOp) : Nat :=
  match op.cls with
  | 1 => if hatchMask op.opc || hatchRaw op.opc then 0 else 1
  | 2 => 1
  | 3 => wXRows op.w * wN op.w * (if codeIsBlock (wFB op.w) then wK op.w / blockSize (wBS op.w) else 1)
  | _ => 0

end Sys2Proof.Machine
end

