-- ==== Sys2Proof/Config.lean ====
section
/-! DEFINITION. What the spec fixes by standards outside it, and the values it leaves free. The functions without a
body are free: nothing can be proved about a value of theirs (log 9, log 10). -/
namespace Sys2Proof.Config

/-- The identity private key that was generated at manufacture, before it is brought into 1 to q - 1 (R571). -/
opaque identityKey : BitVec 384

/-- The device secret of 48 bytes, read big-endian (R571). -/
opaque deviceSecret : BitVec 384

/-- The nonce of a signature, for each draw, before it is brought into 1 to q - 1 (R572, R575). -/
opaque nonce : Nat → BitVec 384

/-- The subject key identifier of a public key of 96 bytes: R572 names the extension and no method (log 9). -/
opaque keyId : List Byte → List Byte

/-- Whether names in the alias certificate are UTF8String; else PrintableString (log 9). -/
opaque certUtf8 : Bool

/-- A free word, drawn anew for each count: values that the spec leaves open (log 10). -/
opaque freeWord : Nat → BitVec 64

/-- The random draw of R364, below 2^16, for each count. -/
opaque randomDraw : Nat → BitVec 16

/-- The Filavo key hashes fused at manufacture with their marks: bit 0 firmware, 1 RMA, 2 factory, 3 revoked (R568, R574,
R579; log 42). -/
opaque fusedKeys : List (BitVec 384 × BitVec 4)

/-- The device serial number (R585; log 42). -/
opaque serial : BitVec 64

/-- The DER device certificate installed before shipping (R572, R606; log 42). -/
opaque deviceCert : List Byte

/-- The RMA key block in flash (R574; log 42). -/
opaque rmaKeys : List (List Byte)

/-- What GETPID, GETBCR and GETDCR answer: the spec names the commands and not their bytes (R491; log 43). -/
opaque i3cPid : List Byte
/-- As above. -/
opaque i3cBcr : Byte
/-- As above. -/
opaque i3cDcr : Byte

/-- Silicon revision of the module (R602, R606; log 13). -/
def revision : Nat := 0

end Sys2Proof.Config
end

