-- ==== Sys2Proof/Machine/RegTable.lean ====
section
/-! DEFINITION. The register map: every register of the spec's field tables with its addresses, fields, access codes
and reset values (R4 to R10, R489, and the rule named at each register). -/
namespace Sys2Proof.Machine

/-- The access codes of R6. -/
inductive Access where
  | rw | ro | w1c | rc | wo | rws
  deriving DecidableEq, Repr

/-- One field of a register: bits [lo+width-1:lo], its access code and its reset value (R4, R6, R7). -/
structure FieldDesc where
  lo : Nat
  width : Nat
  access : Access
  reset : Nat
  deriving DecidableEq, Repr

/-- The registers, each named as the manual names it, with the rule that defines it. -/
inductive RegName where
  /-- GLB_COORD (R33). -/
  | glbCoord
  /-- GLB_NUMLEVEL (R82). -/
  | glbNumlevel
  /-- GLB_MODE (R555). -/
  | glbMode
  /-- GLB_RESET_CMD (R583). -/
  | glbResetCmd
  /-- GLB_RESET_CAUSE (R583). -/
  | glbResetCause
  /-- GLB_MGMT_WDOG (R584). -/
  | glbMgmtWdog
  /-- GLB_COMM_CMD (R235). -/
  | glbCommCmd
  /-- GLB_COMM_SRC (R236). -/
  | glbCommSrc
  /-- GLB_COMM_STATUS (R237). -/
  | glbCommStatus
  /-- GLB_STAGE_POOL (R238). -/
  | glbStagePool
  /-- GLB_STAGE_HBM_BASE (R238). -/
  | glbStageHbmBase
  /-- GLB_COMM_TIMEOUT (R239). -/
  | glbCommTimeout
  /-- GLB_GATE_CMD (R281). -/
  | glbGateCmd
  /-- GLB_GATE_SRC (R282). -/
  | glbGateSrc
  /-- GLB_GATE_STATUS (R283). -/
  | glbGateStatus
  /-- GLB_GATE_POOL (R284). -/
  | glbGatePool
  /-- GLB_GATE_SLOT (R285). -/
  | glbGateSlot
  /-- GLB_GATE_ID (R285). -/
  | glbGateId
  /-- GLB_PAUSE_CMD (R556). -/
  | glbPauseCmd
  /-- GLB_PAUSE_ARG (R556). -/
  | glbPauseArg
  /-- GLB_PAUSE_AT (R556). -/
  | glbPauseAt
  /-- GLB_PAUSE_STATUS (R556). -/
  | glbPauseStatus
  /-- GLB_STYLUS_STATUS (R493). -/
  | glbStylusStatus
  /-- GLB_STYLUS_CFG (R493). -/
  | glbStylusCfg
  /-- GLB_STYLUS_ERR (R493). -/
  | glbStylusErr
  /-- GLB_STYLUS_CNT (R494). -/
  | glbStylusCnt
  /-- GLB_SQ_BASE (R495). -/
  | glbSqBase
  /-- GLB_SQ_CFG (R495). -/
  | glbSqCfg
  /-- GLB_SQ_IDX (R495). -/
  | glbSqIdx
  /-- GLB_SQ_MAILBOX (R495). -/
  | glbSqMailbox
  /-- GLB_CQ_BASE (R496). -/
  | glbCqBase
  /-- GLB_CQ_SHADOW (R496). -/
  | glbCqShadow
  /-- GLB_CQ_CFG (R496). -/
  | glbCqCfg
  /-- GLB_CQ_IDX (R496). -/
  | glbCqIdx
  /-- FLT_PAIR (R520). -/
  | fltPair
  /-- FLT_RECOVERY (R521). -/
  | fltRecovery
  /-- FLT_ESC (R522). -/
  | fltEsc
  /-- FLT_CFG_ERR (R523). -/
  | fltCfgErr
  /-- FLT_INJECT (R524). -/
  | fltInject
  /-- FLT_BLKRST (R525). -/
  | fltBlkrst
  /-- FLT_DIE_CFG (R526). -/
  | fltDieCfg
  /-- FLT_DIE_STATUS (R526). -/
  | fltDieStatus
  /-- FLT_DIE_LAST0 (R526). -/
  | fltDieLast0
  /-- FLT_DIE_LAST1 (R526). -/
  | fltDieLast1
  /-- FLT_DIE_CNT (R526). -/
  | fltDieCnt
  /-- FLT_ASELFTEST (R527). -/
  | fltAselftest
  /-- PWR_DOMAIN (R558). -/
  | pwrDomain
  /-- PWR_THERM (R604). -/
  | pwrTherm
  /-- PWR_INPUT (R605). -/
  | pwrInput
  /-- GC_COUNT (R557). -/
  | gcCount
  /-- GC_STATUS (R557). -/
  | gcStatus
  /-- GC_CFG (R557). -/
  | gcCfg
  /-- GC_SET (R557). -/
  | gcSet
  /-- TILE_IMG_CMD (R124). -/
  | tileImgCmd
  /-- TILE_IMG_SRC (R125). -/
  | tileImgSrc
  /-- TILE_IMG_STATUS (R126). -/
  | tileImgStatus
  /-- TILE_START_ARG (R127). -/
  | tileStartArg
  /-- TILE_CORE_STATUS (R128). -/
  | tileCoreStatus
  /-- TILE_WDOG (R128). -/
  | tileWdog
  /-- TILE_ILLEGAL_INFO (R188). -/
  | tileIllegalInfo
  /-- TILE_ENGINE_OCC (R189). -/
  | tileEngineOcc
  /-- TILE_HATCH_FLAGS (R74). -/
  | tileHatchFlags
  /-- TILE_XH_FLAGS (R74). -/
  | tileXhFlags
  /-- TILE_SR_SEED (R75). -/
  | tileSrSeed
  /-- TILE_RESIDUE_STATUS (R78). -/
  | tileResidueStatus
  /-- TILE_RESIDUE_CNT (R78). -/
  | tileResidueCnt
  /-- PLATE_OWNER (R455). -/
  | plateOwner
  /-- PLATE_ECC_STATUS (R456). -/
  | plateEccStatus
  /-- PLATE_ECC_CNT (R456). -/
  | plateEccCnt
  /-- PLATE_SCRUB (R456). -/
  | plateScrub
  /-- TILE_THREAD_STATUS (R129). -/
  | tileThreadStatus
  /-- LANE_CTRL (R411). -/
  | laneCtrl
  /-- LANE_STATUS (R412). -/
  | laneStatus
  /-- LANE_CW_CNT (R412). -/
  | laneCwCnt
  /-- LANE_PRBS (R413). -/
  | lanePrbs
  /-- LANE_PRBS_ERR (R413). -/
  | lanePrbsErr
  /-- LINK_PORT_CFG (R414). -/
  | linkPortCfg
  /-- LINK_PORT_STATUS (R414). -/
  | linkPortStatus
  /-- LINK_CNT (R415). -/
  | linkCnt
  /-- LINK_CNT_SAT (R415). -/
  | linkCntSat
  /-- LINK_ETH_CFG (R416). -/
  | linkEthCfg
  /-- LINK_ETH_MAC (R416). -/
  | linkEthMac
  /-- LINK_ETH_IP6_HI (R416). -/
  | linkEthIp6Hi
  /-- LINK_ETH_IP6_LO (R416). -/
  | linkEthIp6Lo
  /-- LINK_ETH_STATUS (R417). -/
  | linkEthStatus
  /-- LINK_ETH_CNT (R418). -/
  | linkEthCnt
  /-- LINK_GW_ENTRY (R419). -/
  | linkGwEntry
  /-- TM_BUF_CFG (R369). -/
  | tmBufCfg
  /-- TM_BUF_STATUS (R369). -/
  | tmBufStatus
  /-- TM_QSTATE_BASE (R369). -/
  | tmQstateBase
  /-- TM_AUDIT_CFG (R372). -/
  | tmAuditCfg
  /-- TM_AUDIT_STATUS (R372). -/
  | tmAuditStatus
  /-- TM_PORT_SHAPE (R373). -/
  | tmPortShape
  /-- TM_DSCP_COLOUR0 (R378). -/
  | tmDscpColour0
  /-- TM_DSCP_COLOUR1 (R378). -/
  | tmDscpColour1
  /-- TM_CNT_SAT (R379). -/
  | tmCntSat
  /-- TM_BUF_CLASS (R370). -/
  | tmBufClass
  /-- TM_RED (R371). -/
  | tmRed
  /-- TM_CLASS_SCHED (R373). -/
  | tmClassSched
  /-- TM_QMAP (R374). -/
  | tmQmap
  /-- TM_PMAP (R375). -/
  | tmPmap
  /-- TM_SAMPLE (R376). -/
  | tmSample
  /-- TM_SRING_CFG (R377). -/
  | tmSringCfg
  /-- TM_SRING_IDX (R377). -/
  | tmSringIdx
  /-- TM_CNT (R379). -/
  | tmCnt
  /-- TM_GROUP (R380). -/
  | tmGroup
  /-- TM_POLICER (R381). -/
  | tmPolicer
  /-- TM_POL_CNT (R381). -/
  | tmPolCnt
  /-- TM_QCFG (R382). -/
  | tmQcfg
  /-- RT_CMD (R329). -/
  | rtCmd
  /-- RT_STATUS (R330). -/
  | rtStatus
  /-- RT_TABLE_SRC (R331). -/
  | rtTableSrc
  /-- RT_E2E (R332). -/
  | rtE2e
  /-- RT_FABLEVEL (R333). -/
  | rtFablevel
  /-- RT_BRINGUP (R334). -/
  | rtBringup
  /-- RT_CNT_SAT (R337). -/
  | rtCntSat
  /-- RT_DRAIN_CNT (R335). -/
  | rtDrainCnt
  /-- RT_PORT (R336). -/
  | rtPort
  /-- RT_CNT (R337). -/
  | rtCnt
  /-- RT_ENTRY (R338). -/
  | rtEntry
  /-- HBM_CTRL (R457). -/
  | hbmCtrl
  /-- HBM_STATUS (R457). -/
  | hbmStatus
  /-- HBM_ECC_CNT (R457). -/
  | hbmEccCnt
  /-- DDR_CH_STATUS (R458). -/
  | ddrChStatus
  /-- DDR_ECC_CNT (R458). -/
  | ddrEccCnt
  /-- DDR_CTRL (R458). -/
  | ddrCtrl
  /-- DM_CTRL (R461). -/
  | dmCtrl
  /-- DM_STATUS (R461). -/
  | dmStatus
  /-- DM_ERR_ADDR (R461). -/
  | dmErrAddr
  /-- DM_CH_CTRL (R462). -/
  | dmChCtrl
  /-- DM_CH_DESC (R462). -/
  | dmChDesc
  /-- DM_CH_STATUS (R462). -/
  | dmChStatus
  /-- DM_CH_NEXT (R462). -/
  | dmChNext
  /-- BP_POOL_BASE (R459). -/
  | bpPoolBase
  /-- BP_POOL_CFG (R459). -/
  | bpPoolCfg
  /-- BP_POOL_RING (R459). -/
  | bpPoolRing
  /-- BP_POOL_STATUS (R459). -/
  | bpPoolStatus
  /-- BP_ALLOC (R459). -/
  | bpAlloc
  /-- BP_FREE (R460). -/
  | bpFree
  /-- BP_ERR (R460). -/
  | bpErr
  /-- BP_BAD_CNT (R460). -/
  | bpBadCnt
  /-- SEC_LC (R585). -/
  | secLc
  /-- SEC_SERIAL (R585). -/
  | secSerial
  /-- SEC_BOOT_STATUS (R586). -/
  | secBootStatus
  /-- SEC_CMD (R587). -/
  | secCmd
  /-- SEC_CMD_SRC (R587). -/
  | secCmdSrc
  /-- SEC_CMD_DST (R587). -/
  | secCmdDst
  /-- SEC_CMD_STATUS (R587). -/
  | secCmdStatus
  /-- SEC_TAMPER (R588). -/
  | secTamper
  deriving DecidableEq, Repr

/-! Every register name, in the order of the manual's chapters. -/
/-- Names, part 1. -/
def RegName.part1 : List RegName :=
  [RegName.glbCoord, RegName.glbNumlevel, RegName.glbMode, RegName.glbResetCmd, RegName.glbResetCause,
   RegName.glbMgmtWdog, RegName.glbCommCmd, RegName.glbCommSrc, RegName.glbCommStatus, RegName.glbStagePool,
   RegName.glbStageHbmBase, RegName.glbCommTimeout, RegName.glbGateCmd, RegName.glbGateSrc, RegName.glbGateStatus,
   RegName.glbGatePool, RegName.glbGateSlot, RegName.glbGateId, RegName.glbPauseCmd, RegName.glbPauseArg]
/-- Names, part 2. -/
def RegName.part2 : List RegName :=
  [RegName.glbPauseAt, RegName.glbPauseStatus, RegName.glbStylusStatus, RegName.glbStylusCfg, RegName.glbStylusErr,
   RegName.glbStylusCnt, RegName.glbSqBase, RegName.glbSqCfg, RegName.glbSqIdx, RegName.glbSqMailbox,
   RegName.glbCqBase, RegName.glbCqShadow, RegName.glbCqCfg, RegName.glbCqIdx, RegName.fltPair,
   RegName.fltRecovery, RegName.fltEsc, RegName.fltCfgErr, RegName.fltInject, RegName.fltBlkrst]
/-- Names, part 3. -/
def RegName.part3 : List RegName :=
  [RegName.fltDieCfg, RegName.fltDieStatus, RegName.fltDieLast0, RegName.fltDieLast1, RegName.fltDieCnt,
   RegName.fltAselftest, RegName.pwrDomain, RegName.pwrTherm, RegName.pwrInput, RegName.gcCount,
   RegName.gcStatus, RegName.gcCfg, RegName.gcSet, RegName.tileImgCmd, RegName.tileImgSrc,
   RegName.tileImgStatus, RegName.tileStartArg, RegName.tileCoreStatus, RegName.tileWdog, RegName.tileIllegalInfo]
/-- Names, part 4. -/
def RegName.part4 : List RegName :=
  [RegName.tileEngineOcc, RegName.tileHatchFlags, RegName.tileXhFlags, RegName.tileSrSeed, RegName.tileResidueStatus,
   RegName.tileResidueCnt, RegName.plateOwner, RegName.plateEccStatus, RegName.plateEccCnt, RegName.plateScrub,
   RegName.tileThreadStatus, RegName.laneCtrl, RegName.laneStatus, RegName.laneCwCnt, RegName.lanePrbs,
   RegName.lanePrbsErr, RegName.linkPortCfg, RegName.linkPortStatus, RegName.linkCnt, RegName.linkCntSat]
/-- Names, part 5. -/
def RegName.part5 : List RegName :=
  [RegName.linkEthCfg, RegName.linkEthMac, RegName.linkEthIp6Hi, RegName.linkEthIp6Lo, RegName.linkEthStatus,
   RegName.linkEthCnt, RegName.linkGwEntry, RegName.tmBufCfg, RegName.tmBufStatus, RegName.tmQstateBase,
   RegName.tmAuditCfg, RegName.tmAuditStatus, RegName.tmPortShape, RegName.tmDscpColour0, RegName.tmDscpColour1,
   RegName.tmCntSat, RegName.tmBufClass, RegName.tmRed, RegName.tmClassSched, RegName.tmQmap]
/-- Names, part 6. -/
def RegName.part6 : List RegName :=
  [RegName.tmPmap, RegName.tmSample, RegName.tmSringCfg, RegName.tmSringIdx, RegName.tmCnt,
   RegName.tmGroup, RegName.tmPolicer, RegName.tmPolCnt, RegName.tmQcfg, RegName.rtCmd,
   RegName.rtStatus, RegName.rtTableSrc, RegName.rtE2e, RegName.rtFablevel, RegName.rtBringup,
   RegName.rtCntSat, RegName.rtDrainCnt, RegName.rtPort, RegName.rtCnt, RegName.rtEntry]
/-- Names, part 7. -/
def RegName.part7 : List RegName :=
  [RegName.hbmCtrl, RegName.hbmStatus, RegName.hbmEccCnt, RegName.ddrChStatus, RegName.ddrEccCnt,
   RegName.ddrCtrl, RegName.dmCtrl, RegName.dmStatus, RegName.dmErrAddr, RegName.dmChCtrl,
   RegName.dmChDesc, RegName.dmChStatus, RegName.dmChNext, RegName.bpPoolBase, RegName.bpPoolCfg,
   RegName.bpPoolRing, RegName.bpPoolStatus, RegName.bpAlloc, RegName.bpFree, RegName.bpErr]
/-- Names, part 8. -/
def RegName.part8 : List RegName :=
  [RegName.bpBadCnt, RegName.secLc, RegName.secSerial, RegName.secBootStatus, RegName.secCmd,
   RegName.secCmdSrc, RegName.secCmdDst, RegName.secCmdStatus, RegName.secTamper]
/-- Every register name. -/
def RegName.all : List RegName := RegName.part1 ++ RegName.part2 ++ RegName.part3 ++ RegName.part4 ++ RegName.part5 ++ RegName.part6 ++ RegName.part7 ++ RegName.part8

/-- The address of a register's first copy (R489 and the rule of the register). -/
def RegName.base : RegName → Nat
  | .glbCoord => 0x40
  | .glbNumlevel => 0x48
  | .glbMode => 0x50
  | .glbResetCmd => 0x60
  | .glbResetCause => 0x68
  | .glbMgmtWdog => 0x70
  | .glbCommCmd => 0x800
  | .glbCommSrc => 0x808
  | .glbCommStatus => 0x810
  | .glbStagePool => 0x818
  | .glbStageHbmBase => 0x820
  | .glbCommTimeout => 0x828
  | .glbGateCmd => 0x900
  | .glbGateSrc => 0x908
  | .glbGateStatus => 0x910
  | .glbGatePool => 0x918
  | .glbGateSlot => 0x980
  | .glbGateId => 0xA00
  | .glbPauseCmd => 0xB00
  | .glbPauseArg => 0xB08
  | .glbPauseAt => 0xB10
  | .glbPauseStatus => 0xB18
  | .glbStylusStatus => 0x10000
  | .glbStylusCfg => 0x10010
  | .glbStylusErr => 0x10018
  | .glbStylusCnt => 0x10100
  | .glbSqBase => 0x20000
  | .glbSqCfg => 0x20008
  | .glbSqIdx => 0x20010
  | .glbSqMailbox => 0x20018
  | .glbCqBase => 0x40000
  | .glbCqShadow => 0x40008
  | .glbCqCfg => 0x40010
  | .glbCqIdx => 0x40018
  | .fltPair => 0x100000
  | .fltRecovery => 0x100008
  | .fltEsc => 0x100010
  | .fltCfgErr => 0x100018
  | .fltInject => 0x100020
  | .fltBlkrst => 0x100028
  | .fltDieCfg => 0x100100
  | .fltDieStatus => 0x100108
  | .fltDieLast0 => 0x100110
  | .fltDieLast1 => 0x100118
  | .fltDieCnt => 0x100120
  | .fltAselftest => 0x100400
  | .pwrDomain => 0x200000
  | .pwrTherm => 0x201000
  | .pwrInput => 0x201008
  | .gcCount => 0x300000
  | .gcStatus => 0x300008
  | .gcCfg => 0x300010
  | .gcSet => 0x300018
  | .tileImgCmd => 0x10000100
  | .tileImgSrc => 0x10000108
  | .tileImgStatus => 0x10000110
  | .tileStartArg => 0x10000118
  | .tileCoreStatus => 0x10000120
  | .tileWdog => 0x10000128
  | .tileIllegalInfo => 0x10000200
  | .tileEngineOcc => 0x10000208
  | .tileHatchFlags => 0x10000400
  | .tileXhFlags => 0x10000408
  | .tileSrSeed => 0x10000410
  | .tileResidueStatus => 0x10000418
  | .tileResidueCnt => 0x10000420
  | .plateOwner => 0x10000600
  | .plateEccStatus => 0x10000608
  | .plateEccCnt => 0x10000610
  | .plateScrub => 0x10000618
  | .tileThreadStatus => 0x10001000
  | .laneCtrl => 0x20000000
  | .laneStatus => 0x20000008
  | .laneCwCnt => 0x20000010
  | .lanePrbs => 0x20000018
  | .lanePrbsErr => 0x20000020
  | .linkPortCfg => 0x30000000
  | .linkPortStatus => 0x30000008
  | .linkCnt => 0x30000100
  | .linkCntSat => 0x30000180
  | .linkEthCfg => 0x30010000
  | .linkEthMac => 0x30010008
  | .linkEthIp6Hi => 0x30010010
  | .linkEthIp6Lo => 0x30010018
  | .linkEthStatus => 0x30010020
  | .linkEthCnt => 0x30010040
  | .linkGwEntry => 0x30020000
  | .tmBufCfg => 0x40000000
  | .tmBufStatus => 0x40000008
  | .tmQstateBase => 0x40000010
  | .tmAuditCfg => 0x40000100
  | .tmAuditStatus => 0x40000108
  | .tmPortShape => 0x40000240
  | .tmDscpColour0 => 0x40000380
  | .tmDscpColour1 => 0x40000388
  | .tmCntSat => 0x40000600
  | .tmBufClass => 0x40000040
  | .tmRed => 0x40000140
  | .tmClassSched => 0x40000200
  | .tmQmap => 0x40000280
  | .tmPmap => 0x400002C0
  | .tmSample => 0x40000300
  | .tmSringCfg => 0x40000340
  | .tmSringIdx => 0x40000350
  | .tmCnt => 0x40000400
  | .tmGroup => 0x40001000
  | .tmPolicer => 0x40010000
  | .tmPolCnt => 0x40020000
  | .tmQcfg => 0x40040000
  | .rtCmd => 0x50000000
  | .rtStatus => 0x50000008
  | .rtTableSrc => 0x50000010
  | .rtE2e => 0x50000018
  | .rtFablevel => 0x50000020
  | .rtBringup => 0x50000028
  | .rtCntSat => 0x50000480
  | .rtDrainCnt => 0x50000100
  | .rtPort => 0x50000200
  | .rtCnt => 0x50000400
  | .rtEntry => 0x50080000
  | .hbmCtrl => 0x60000000
  | .hbmStatus => 0x60000008
  | .hbmEccCnt => 0x60000100
  | .ddrChStatus => 0x68000000
  | .ddrEccCnt => 0x68000100
  | .ddrCtrl => 0x68000200
  | .dmCtrl => 0x70000000
  | .dmStatus => 0x70000008
  | .dmErrAddr => 0x70000010
  | .dmChCtrl => 0x70001000
  | .dmChDesc => 0x70001008
  | .dmChStatus => 0x70001010
  | .dmChNext => 0x70001018
  | .bpPoolBase => 0x78000000
  | .bpPoolCfg => 0x78000008
  | .bpPoolRing => 0x78000010
  | .bpPoolStatus => 0x78000018
  | .bpAlloc => 0x78000020
  | .bpFree => 0x78000100
  | .bpErr => 0x78000108
  | .bpBadCnt => 0x78000110
  | .secLc => 0x7C000000
  | .secSerial => 0x7C000008
  | .secBootStatus => 0x7C000010
  | .secCmd => 0x7C000018
  | .secCmdSrc => 0x7C000020
  | .secCmdDst => 0x7C000028
  | .secCmdStatus => 0x7C000030
  | .secTamper => 0x7C000038

/-- Strides and counts of a register's copies, widest stride first. -/
def RegName.dims : RegName → List (Nat × Nat)
  | .glbCoord => []
  | .glbNumlevel => []
  | .glbMode => []
  | .glbResetCmd => []
  | .glbResetCause => []
  | .glbMgmtWdog => []
  | .glbCommCmd => []
  | .glbCommSrc => []
  | .glbCommStatus => []
  | .glbStagePool => []
  | .glbStageHbmBase => []
  | .glbCommTimeout => []
  | .glbGateCmd => []
  | .glbGateSrc => []
  | .glbGateStatus => []
  | .glbGatePool => []
  | .glbGateSlot => [(0x8, 16)]
  | .glbGateId => [(0x8, 16)]
  | .glbPauseCmd => []
  | .glbPauseArg => []
  | .glbPauseAt => []
  | .glbPauseStatus => []
  | .glbStylusStatus => [(0x8, 2)]
  | .glbStylusCfg => []
  | .glbStylusErr => []
  | .glbStylusCnt => [(0x40, 2), (0x8, 5)]
  | .glbSqBase => [(0x20, 4096)]
  | .glbSqCfg => [(0x20, 4096)]
  | .glbSqIdx => [(0x20, 4096)]
  | .glbSqMailbox => [(0x20, 4096)]
  | .glbCqBase => [(0x20, 4096)]
  | .glbCqShadow => [(0x20, 4096)]
  | .glbCqCfg => [(0x20, 4096)]
  | .glbCqIdx => [(0x20, 4096)]
  | .fltPair => []
  | .fltRecovery => []
  | .fltEsc => []
  | .fltCfgErr => []
  | .fltInject => []
  | .fltBlkrst => []
  | .fltDieCfg => [(0x80, 4)]
  | .fltDieStatus => [(0x80, 4)]
  | .fltDieLast0 => [(0x80, 4)]
  | .fltDieLast1 => [(0x80, 4)]
  | .fltDieCnt => [(0x80, 4), (0x8, 5)]
  | .fltAselftest => [(0x8, 64)]
  | .pwrDomain => [(0x8, 200)]
  | .pwrTherm => []
  | .pwrInput => []
  | .gcCount => []
  | .gcStatus => []
  | .gcCfg => []
  | .gcSet => []
  | .tileImgCmd => [(0x100000, 64)]
  | .tileImgSrc => [(0x100000, 64)]
  | .tileImgStatus => [(0x100000, 64)]
  | .tileStartArg => [(0x100000, 64)]
  | .tileCoreStatus => [(0x100000, 64)]
  | .tileWdog => [(0x100000, 64)]
  | .tileIllegalInfo => [(0x100000, 64)]
  | .tileEngineOcc => [(0x100000, 64)]
  | .tileHatchFlags => [(0x100000, 64)]
  | .tileXhFlags => [(0x100000, 64)]
  | .tileSrSeed => [(0x100000, 64)]
  | .tileResidueStatus => [(0x100000, 64)]
  | .tileResidueCnt => [(0x100000, 64)]
  | .plateOwner => [(0x100000, 64)]
  | .plateEccStatus => [(0x100000, 64)]
  | .plateEccCnt => [(0x100000, 64)]
  | .plateScrub => [(0x100000, 64)]
  | .tileThreadStatus => [(0x100000, 64), (0x8, 128)]
  | .laneCtrl => [(0x40, 512)]
  | .laneStatus => [(0x40, 512)]
  | .laneCwCnt => [(0x40, 512)]
  | .lanePrbs => [(0x40, 512)]
  | .lanePrbsErr => [(0x40, 512)]
  | .linkPortCfg => [(0x400, 26)]
  | .linkPortStatus => [(0x400, 26)]
  | .linkCnt => [(0x400, 26), (0x8, 9)]
  | .linkCntSat => [(0x400, 26)]
  | .linkEthCfg => [(0x100, 4)]
  | .linkEthMac => [(0x100, 4)]
  | .linkEthIp6Hi => [(0x100, 4)]
  | .linkEthIp6Lo => [(0x100, 4)]
  | .linkEthStatus => [(0x100, 4)]
  | .linkEthCnt => [(0x100, 4), (0x8, 13)]
  | .linkGwEntry => [(0x8, 16)]
  | .tmBufCfg => [(0x100000, 64)]
  | .tmBufStatus => [(0x100000, 64)]
  | .tmQstateBase => [(0x100000, 64)]
  | .tmAuditCfg => [(0x100000, 64)]
  | .tmAuditStatus => [(0x100000, 64)]
  | .tmPortShape => [(0x100000, 64)]
  | .tmDscpColour0 => [(0x100000, 64)]
  | .tmDscpColour1 => [(0x100000, 64)]
  | .tmCntSat => [(0x100000, 64)]
  | .tmBufClass => [(0x100000, 64), (0x8, 8)]
  | .tmRed => [(0x100000, 64), (0x8, 3)]
  | .tmClassSched => [(0x100000, 64), (0x8, 8)]
  | .tmQmap => [(0x100000, 64), (0x8, 8)]
  | .tmPmap => [(0x100000, 64), (0x8, 8)]
  | .tmSample => [(0x100000, 64), (0x8, 8)]
  | .tmSringCfg => [(0x100000, 64), (0x8, 2)]
  | .tmSringIdx => [(0x100000, 64), (0x8, 2)]
  | .tmCnt => [(0x100000, 64), (0x8, 32)]
  | .tmGroup => [(0x100000, 64), (0x8, 256)]
  | .tmPolicer => [(0x100000, 64), (0x8, 4096)]
  | .tmPolCnt => [(0x100000, 64), (0x20, 4096), (0x8, 4)]
  | .tmQcfg => [(0x100000, 64), (0x8, 16384)]
  | .rtCmd => []
  | .rtStatus => []
  | .rtTableSrc => []
  | .rtE2e => []
  | .rtFablevel => []
  | .rtBringup => []
  | .rtCntSat => []
  | .rtDrainCnt => [(0x8, 16)]
  | .rtPort => [(0x8, 26)]
  | .rtCnt => [(0x8, 14)]
  | .rtEntry => [(0x8, 65536)]
  | .hbmCtrl => []
  | .hbmStatus => []
  | .hbmEccCnt => [(0x8, 8)]
  | .ddrChStatus => [(0x8, 8)]
  | .ddrEccCnt => [(0x8, 8)]
  | .ddrCtrl => []
  | .dmCtrl => [(0x100000, 4)]
  | .dmStatus => [(0x100000, 4)]
  | .dmErrAddr => [(0x100000, 4)]
  | .dmChCtrl => [(0x100000, 4), (0x20, 64)]
  | .dmChDesc => [(0x100000, 4), (0x20, 64)]
  | .dmChStatus => [(0x100000, 4), (0x20, 64)]
  | .dmChNext => [(0x100000, 4), (0x20, 64)]
  | .bpPoolBase => [(0x40, 4)]
  | .bpPoolCfg => [(0x40, 4)]
  | .bpPoolRing => [(0x40, 4)]
  | .bpPoolStatus => [(0x40, 4)]
  | .bpAlloc => [(0x40, 4)]
  | .bpFree => []
  | .bpErr => []
  | .bpBadCnt => []
  | .secLc => []
  | .secSerial => []
  | .secBootStatus => []
  | .secCmd => []
  | .secCmdSrc => []
  | .secCmdDst => []
  | .secCmdStatus => []
  | .secTamper => []

/-! The fields of each register as the manual's table lists them; bits in no field are reserved (R9). -/
namespace Flds
/-- GLB_COORD (R33). -/
def glbCoord : List FieldDesc :=
  [⟨0, 4, .ro, 0x0⟩,
   ⟨4, 3, .rws, 0x0⟩,
   ⟨7, 3, .rws, 0x0⟩,
   ⟨10, 1, .rws, 0x0⟩,
   ⟨12, 2, .rws, 0x1⟩,
   ⟨16, 4, .ro, 0x0⟩,
   ⟨20, 10, .ro, 0x0⟩]
/-- GLB_NUMLEVEL (R82). -/
def glbNumlevel : List FieldDesc :=
  [⟨0, 16, .ro, 0x6⟩]
/-- GLB_MODE (R555). -/
def glbMode : List FieldDesc :=
  [⟨0, 1, .rw, 0x0⟩]
/-- GLB_RESET_CMD (R583). -/
def glbResetCmd : List FieldDesc :=
  [⟨0, 16, .wo, 0x0⟩,
   ⟨16, 1, .wo, 0x0⟩]
/-- GLB_RESET_CAUSE (R583). -/
def glbResetCause : List FieldDesc :=
  [⟨0, 3, .ro, 0x0⟩,
   ⟨16, 16, .rws, 0x0⟩]
/-- GLB_MGMT_WDOG (R584). -/
def glbMgmtWdog : List FieldDesc :=
  [⟨0, 16, .rw, 0x3E8⟩,
   ⟨16, 1, .wo, 0x0⟩]
/-- GLB_COMM_CMD (R235). -/
def glbCommCmd : List FieldDesc :=
  [⟨0, 20, .rw, 0x0⟩,
   ⟨20, 3, .rw, 0x0⟩,
   ⟨23, 1, .wo, 0x0⟩]
/-- GLB_COMM_SRC (R236). -/
def glbCommSrc : List FieldDesc :=
  [⟨0, 64, .rw, 0x0⟩]
/-- GLB_COMM_STATUS (R237). -/
def glbCommStatus : List FieldDesc :=
  [⟨0, 4, .ro, 0x0⟩,
   ⟨4, 1, .ro, 0x0⟩,
   ⟨5, 1, .w1c, 0x0⟩,
   ⟨8, 3, .ro, 0x0⟩,
   ⟨12, 13, .ro, 0x0⟩,
   ⟨25, 4, .ro, 0x0⟩,
   ⟨32, 32, .ro, 0x0⟩]
/-- GLB_STAGE_POOL (R238). -/
def glbStagePool : List FieldDesc :=
  [⟨0, 14, .rw, 0x0⟩,
   ⟨16, 32, .rw, 0x0⟩]
/-- GLB_STAGE_HBM_BASE (R238). -/
def glbStageHbmBase : List FieldDesc :=
  [⟨0, 64, .rw, 0x0⟩]
/-- GLB_COMM_TIMEOUT (R239). -/
def glbCommTimeout : List FieldDesc :=
  [⟨0, 32, .rw, 0x4E20⟩]
/-- GLB_GATE_CMD (R281). -/
def glbGateCmd : List FieldDesc :=
  [⟨0, 4, .rw, 0x0⟩,
   ⟨4, 3, .rw, 0x0⟩,
   ⟨7, 1, .wo, 0x0⟩]
/-- GLB_GATE_SRC (R282). -/
def glbGateSrc : List FieldDesc :=
  [⟨0, 64, .rw, 0x0⟩]
/-- GLB_GATE_STATUS (R283). -/
def glbGateStatus : List FieldDesc :=
  [⟨0, 4, .ro, 0x0⟩,
   ⟨4, 1, .ro, 0x0⟩,
   ⟨5, 1, .w1c, 0x0⟩]
/-- GLB_GATE_POOL (R284). -/
def glbGatePool : List FieldDesc :=
  [⟨0, 14, .rw, 0x0⟩,
   ⟨16, 5, .rw, 0x0⟩]
/-- GLB_GATE_SLOT (R285). -/
def glbGateSlot : List FieldDesc :=
  [⟨0, 2, .ro, 0x0⟩,
   ⟨2, 1, .ro, 0x0⟩,
   ⟨3, 1, .ro, 0x0⟩,
   ⟨4, 13, .ro, 0x0⟩]
/-- GLB_GATE_ID (R285). -/
def glbGateId : List FieldDesc :=
  [⟨0, 64, .ro, 0x0⟩]
/-- GLB_PAUSE_CMD (R556). -/
def glbPauseCmd : List FieldDesc :=
  [⟨0, 20, .rw, 0x0⟩,
   ⟨20, 2, .rw, 0x0⟩,
   ⟨22, 1, .wo, 0x0⟩,
   ⟨32, 16, .rw, 0x258⟩]
/-- GLB_PAUSE_ARG (R556). -/
def glbPauseArg : List FieldDesc :=
  [⟨0, 64, .rw, 0x0⟩]
/-- GLB_PAUSE_AT (R556). -/
def glbPauseAt : List FieldDesc :=
  [⟨0, 64, .rw, 0x0⟩]
/-- GLB_PAUSE_STATUS (R556). -/
def glbPauseStatus : List FieldDesc :=
  [⟨0, 4, .ro, 0x0⟩,
   ⟨4, 1, .ro, 0x0⟩,
   ⟨5, 1, .w1c, 0x0⟩,
   ⟨8, 4, .ro, 0x0⟩,
   ⟨32, 32, .ro, 0x0⟩]
/-- GLB_STYLUS_STATUS (R493). -/
def glbStylusStatus : List FieldDesc :=
  [⟨0, 2, .ro, 0x0⟩,
   ⟨2, 1, .w1c, 0x0⟩,
   ⟨8, 8, .ro, 0x0⟩]
/-- GLB_STYLUS_CFG (R493). -/
def glbStylusCfg : List FieldDesc :=
  [⟨0, 16, .rw, 0x32⟩,
   ⟨16, 16, .rw, 0x3E8⟩,
   ⟨32, 1, .wo, 0x0⟩,
   ⟨33, 1, .wo, 0x0⟩]
/-- GLB_STYLUS_ERR (R493). -/
def glbStylusErr : List FieldDesc :=
  [⟨0, 64, .ro, 0x0⟩]
/-- GLB_STYLUS_CNT (R494). -/
def glbStylusCnt : List FieldDesc :=
  [⟨0, 64, .ro, 0x0⟩]
/-- GLB_SQ_BASE (R495). -/
def glbSqBase : List FieldDesc :=
  [⟨0, 64, .rw, 0x0⟩]
/-- GLB_SQ_CFG (R495). -/
def glbSqCfg : List FieldDesc :=
  [⟨0, 4, .rw, 0x4⟩,
   ⟨4, 1, .rw, 0x0⟩,
   ⟨5, 6, .rw, 0x0⟩,
   ⟨11, 1, .rw, 0x0⟩,
   ⟨12, 1, .w1c, 0x0⟩]
/-- GLB_SQ_IDX (R495). -/
def glbSqIdx : List FieldDesc :=
  [⟨0, 16, .ro, 0x0⟩,
   ⟨16, 16, .ro, 0x0⟩]
/-- GLB_SQ_MAILBOX (R495). -/
def glbSqMailbox : List FieldDesc :=
  [⟨0, 64, .rw, 0x0⟩]
/-- GLB_CQ_BASE (R496). -/
def glbCqBase : List FieldDesc :=
  [⟨0, 64, .rw, 0x0⟩]
/-- GLB_CQ_SHADOW (R496). -/
def glbCqShadow : List FieldDesc :=
  [⟨0, 64, .rw, 0x0⟩]
/-- GLB_CQ_CFG (R496). -/
def glbCqCfg : List FieldDesc :=
  [⟨0, 4, .rw, 0x4⟩,
   ⟨4, 1, .rw, 0x0⟩,
   ⟨5, 1, .rw, 0x0⟩,
   ⟨6, 1, .rw, 0x0⟩,
   ⟨7, 1, .ro, 0x0⟩,
   ⟨8, 16, .rw, 0x0⟩,
   ⟨24, 8, .rw, 0x1⟩,
   ⟨32, 8, .rw, 0x0⟩,
   ⟨40, 1, .ro, 0x0⟩,
   ⟨41, 1, .w1c, 0x0⟩]
/-- GLB_CQ_IDX (R496). -/
def glbCqIdx : List FieldDesc :=
  [⟨0, 16, .ro, 0x0⟩,
   ⟨16, 16, .ro, 0x0⟩]
/-- FLT_PAIR (R520). -/
def fltPair : List FieldDesc :=
  [⟨0, 2, .ro, 0x1⟩,
   ⟨2, 1, .wo, 0x0⟩,
   ⟨3, 1, .w1c, 0x0⟩,
   ⟨8, 24, .rw, 0xFA⟩,
   ⟨32, 3, .rw, 0x3⟩]
/-- FLT_RECOVERY (R521). -/
def fltRecovery : List FieldDesc :=
  [⟨0, 16, .rws, 0x0⟩]
/-- FLT_ESC (R522). -/
def fltEsc : List FieldDesc :=
  [⟨0, 16, .rw, 0x3E8⟩,
   ⟨16, 8, .rw, 0x10⟩,
   ⟨24, 4, .rw, 0x3⟩,
   ⟨32, 8, .rw, 0x3C⟩,
   ⟨40, 1, .rw, 0x0⟩]
/-- FLT_CFG_ERR (R523). -/
def fltCfgErr : List FieldDesc :=
  [⟨0, 1, .w1c, 0x0⟩,
   ⟨1, 1, .w1c, 0x0⟩,
   ⟨32, 32, .ro, 0x0⟩]
/-- FLT_INJECT (R524). -/
def fltInject : List FieldDesc :=
  [⟨0, 8, .rw, 0x0⟩,
   ⟨8, 2, .rw, 0x0⟩,
   ⟨10, 4, .rw, 0x0⟩,
   ⟨14, 2, .rw, 0x0⟩,
   ⟨16, 10, .rw, 0x0⟩,
   ⟨26, 8, .rw, 0x1⟩,
   ⟨34, 1, .rw, 0x0⟩,
   ⟨35, 1, .wo, 0x0⟩,
   ⟨36, 1, .ro, 0x0⟩,
   ⟨37, 1, .w1c, 0x0⟩]
/-- FLT_BLKRST (R525). -/
def fltBlkrst : List FieldDesc :=
  [⟨0, 4, .rw, 0x0⟩,
   ⟨8, 6, .rw, 0x0⟩,
   ⟨14, 1, .wo, 0x0⟩,
   ⟨15, 1, .ro, 0x0⟩,
   ⟨16, 2, .ro, 0x0⟩]
/-- FLT_DIE_CFG (R526). -/
def fltDieCfg : List FieldDesc :=
  [⟨0, 12, .rw, 0x0⟩,
   ⟨12, 1, .rw, 0x0⟩,
   ⟨16, 8, .rw, 0x64⟩]
/-- FLT_DIE_STATUS (R526). -/
def fltDieStatus : List FieldDesc :=
  [⟨0, 1, .w1c, 0x0⟩,
   ⟨1, 1, .w1c, 0x0⟩,
   ⟨2, 1, .w1c, 0x0⟩,
   ⟨3, 1, .w1c, 0x0⟩,
   ⟨4, 1, .w1c, 0x0⟩,
   ⟨5, 1, .w1c, 0x0⟩,
   ⟨6, 1, .w1c, 0x0⟩,
   ⟨8, 7, .ro, 0x0⟩]
/-- FLT_DIE_LAST0 (R526). -/
def fltDieLast0 : List FieldDesc :=
  [⟨0, 64, .rws, 0x0⟩]
/-- FLT_DIE_LAST1 (R526). -/
def fltDieLast1 : List FieldDesc :=
  [⟨0, 64, .rws, 0x0⟩]
/-- FLT_DIE_CNT (R526). -/
def fltDieCnt : List FieldDesc :=
  [⟨0, 64, .ro, 0x0⟩]
/-- FLT_ASELFTEST (R527). -/
def fltAselftest : List FieldDesc :=
  [⟨0, 1, .wo, 0x0⟩,
   ⟨1, 3, .ro, 0x0⟩,
   ⟨16, 16, .ro, 0x0⟩]
/-- PWR_DOMAIN (R558). -/
def pwrDomain : List FieldDesc :=
  [⟨0, 32, .rw, 0x0⟩,
   ⟨32, 2, .ro, 0x0⟩,
   ⟨48, 16, .ro, 0x0⟩]
/-- PWR_THERM (R604). -/
def pwrTherm : List FieldDesc :=
  [⟨0, 16, .ro, 0x0⟩,
   ⟨16, 8, .rw, 0x64⟩,
   ⟨24, 8, .rw, 0x67⟩,
   ⟨32, 1, .ro, 0x0⟩,
   ⟨33, 1, .ro, 0x0⟩,
   ⟨34, 1, .w1c, 0x0⟩]
/-- PWR_INPUT (R605). -/
def pwrInput : List FieldDesc :=
  [⟨0, 16, .ro, 0x0⟩,
   ⟨16, 16, .ro, 0x0⟩,
   ⟨32, 16, .rw, 0x79E⟩,
   ⟨48, 1, .ro, 0x0⟩,
   ⟨49, 1, .w1c, 0x0⟩]
/-- GC_COUNT (R557). -/
def gcCount : List FieldDesc :=
  [⟨0, 64, .ro, 0x0⟩]
/-- GC_STATUS (R557). -/
def gcStatus : List FieldDesc :=
  [⟨0, 1, .ro, 0x0⟩,
   ⟨1, 1, .ro, 0x0⟩,
   ⟨2, 1, .ro, 0x0⟩,
   ⟨3, 1, .ro, 0x0⟩,
   ⟨4, 1, .w1c, 0x0⟩,
   ⟨8, 5, .ro, 0x1F⟩,
   ⟨16, 8, .ro, 0xFF⟩,
   ⟨24, 10, .ro, 0x0⟩,
   ⟨48, 16, .ro, 0x0⟩]
/-- GC_CFG (R557). -/
def gcCfg : List FieldDesc :=
  [⟨0, 16, .rw, 0x64⟩,
   ⟨16, 1, .rw, 0x1⟩]
/-- GC_SET (R557). -/
def gcSet : List FieldDesc :=
  [⟨0, 64, .wo, 0x0⟩]
/-- TILE_IMG_CMD (R124). -/
def tileImgCmd : List FieldDesc :=
  [⟨0, 2, .rw, 0x0⟩,
   ⟨4, 3, .rw, 0x0⟩,
   ⟨8, 1, .wo, 0x0⟩]
/-- TILE_IMG_SRC (R125). -/
def tileImgSrc : List FieldDesc :=
  [⟨0, 64, .rw, 0x0⟩]
/-- TILE_IMG_STATUS (R126). -/
def tileImgStatus : List FieldDesc :=
  [⟨0, 4, .ro, 0x0⟩,
   ⟨4, 2, .ro, 0x0⟩,
   ⟨6, 1, .ro, 0x0⟩,
   ⟨7, 1, .w1c, 0x0⟩,
   ⟨8, 3, .ro, 0x0⟩,
   ⟨11, 3, .ro, 0x0⟩,
   ⟨14, 3, .ro, 0x0⟩,
   ⟨17, 3, .ro, 0x0⟩]
/-- TILE_START_ARG (R127). -/
def tileStartArg : List FieldDesc :=
  [⟨0, 64, .rw, 0x0⟩]
/-- TILE_CORE_STATUS (R128). -/
def tileCoreStatus : List FieldDesc :=
  [⟨0, 1, .w1c, 0x0⟩,
   ⟨1, 1, .w1c, 0x0⟩,
   ⟨2, 1, .w1c, 0x0⟩,
   ⟨3, 1, .w1c, 0x0⟩,
   ⟨4, 1, .w1c, 0x0⟩,
   ⟨5, 1, .w1c, 0x0⟩,
   ⟨6, 1, .w1c, 0x0⟩]
/-- TILE_WDOG (R128). -/
def tileWdog : List FieldDesc :=
  [⟨0, 32, .rw, 0x3E8⟩]
/-- TILE_ILLEGAL_INFO (R188). -/
def tileIllegalInfo : List FieldDesc :=
  [⟨0, 8, .ro, 0x0⟩,
   ⟨16, 7, .ro, 0x0⟩,
   ⟨24, 14, .ro, 0x0⟩,
   ⟨38, 2, .ro, 0x0⟩,
   ⟨40, 1, .w1c, 0x0⟩,
   ⟨41, 1, .w1c, 0x0⟩]
/-- TILE_ENGINE_OCC (R189). -/
def tileEngineOcc : List FieldDesc :=
  [⟨0, 7, .ro, 0x0⟩,
   ⟨8, 5, .ro, 0x0⟩,
   ⟨16, 9, .ro, 0x0⟩,
   ⟨32, 10, .ro, 0x0⟩]
/-- TILE_HATCH_FLAGS (R74). -/
def tileHatchFlags : List FieldDesc :=
  [⟨0, 1, .w1c, 0x0⟩,
   ⟨1, 1, .w1c, 0x0⟩,
   ⟨2, 1, .w1c, 0x0⟩,
   ⟨3, 1, .w1c, 0x0⟩]
/-- TILE_XH_FLAGS (R74). -/
def tileXhFlags : List FieldDesc :=
  [⟨0, 1, .w1c, 0x0⟩,
   ⟨1, 1, .w1c, 0x0⟩,
   ⟨2, 1, .w1c, 0x0⟩,
   ⟨3, 1, .w1c, 0x0⟩]
/-- TILE_SR_SEED (R75). -/
def tileSrSeed : List FieldDesc :=
  [⟨0, 64, .rw, 0x0⟩]
/-- TILE_RESIDUE_STATUS (R78). -/
def tileResidueStatus : List FieldDesc :=
  [⟨0, 1, .w1c, 0x0⟩,
   ⟨1, 1, .w1c, 0x0⟩,
   ⟨2, 1, .w1c, 0x0⟩]
/-- TILE_RESIDUE_CNT (R78). -/
def tileResidueCnt : List FieldDesc :=
  [⟨0, 64, .ro, 0x0⟩]
/-- PLATE_OWNER (R455). -/
def plateOwner : List FieldDesc :=
  [⟨0, 2, .rws, 0x0⟩,
   ⟨2, 4, .rws, 0x0⟩,
   ⟨8, 1, .ro, 0x0⟩]
/-- PLATE_ECC_STATUS (R456). -/
def plateEccStatus : List FieldDesc :=
  [⟨0, 1, .w1c, 0x0⟩,
   ⟨1, 1, .w1c, 0x0⟩,
   ⟨2, 1, .w1c, 0x0⟩,
   ⟨3, 17, .ro, 0x0⟩]
/-- PLATE_ECC_CNT (R456). -/
def plateEccCnt : List FieldDesc :=
  [⟨0, 32, .ro, 0x0⟩,
   ⟨32, 32, .ro, 0x0⟩]
/-- PLATE_SCRUB (R456). -/
def plateScrub : List FieldDesc :=
  [⟨0, 16, .rw, 0x100⟩,
   ⟨32, 16, .ro, 0x0⟩]
/-- TILE_THREAD_STATUS (R129). -/
def tileThreadStatus : List FieldDesc :=
  [⟨0, 3, .ro, 0x0⟩,
   ⟨4, 2, .ro, 0x0⟩,
   ⟨8, 4, .ro, 0x0⟩,
   ⟨12, 4, .ro, 0x0⟩,
   ⟨16, 14, .ro, 0x0⟩,
   ⟨32, 10, .ro, 0x0⟩]
/-- LANE_CTRL (R411). -/
def laneCtrl : List FieldDesc :=
  [⟨0, 1, .rw, 0x1⟩,
   ⟨1, 1, .rw, 0x1⟩,
   ⟨2, 1, .rw, 0x0⟩,
   ⟨3, 1, .rw, 0x0⟩]
/-- LANE_STATUS (R412). -/
def laneStatus : List FieldDesc :=
  [⟨0, 3, .ro, 0x0⟩,
   ⟨3, 1, .ro, 0x0⟩,
   ⟨4, 1, .ro, 0x0⟩,
   ⟨5, 1, .ro, 0x0⟩,
   ⟨8, 8, .ro, 0x0⟩,
   ⟨16, 8, .ro, 0x0⟩]
/-- LANE_CW_CNT (R412). -/
def laneCwCnt : List FieldDesc :=
  [⟨0, 32, .ro, 0x0⟩,
   ⟨32, 32, .ro, 0x0⟩]
/-- LANE_PRBS (R413). -/
def lanePrbs : List FieldDesc :=
  [⟨0, 2, .rw, 0x1⟩,
   ⟨2, 1, .rw, 0x0⟩,
   ⟨3, 1, .rw, 0x0⟩,
   ⟨4, 1, .wo, 0x0⟩,
   ⟨5, 3, .ro, 0x0⟩,
   ⟨8, 1, .rw, 0x0⟩,
   ⟨9, 1, .rw, 0x0⟩,
   ⟨10, 1, .rw, 0x0⟩,
   ⟨11, 32, .rw, 0x0⟩,
   ⟨43, 8, .rw, 0x1⟩,
   ⟨51, 11, .rw, 0x64⟩]
/-- LANE_PRBS_ERR (R413). -/
def lanePrbsErr : List FieldDesc :=
  [⟨0, 64, .rc, 0x0⟩]
/-- LINK_PORT_CFG (R414). -/
def linkPortCfg : List FieldDesc :=
  [⟨0, 6, .rw, 0x0⟩,
   ⟨6, 1, .rw, 0x1⟩,
   ⟨7, 1, .wo, 0x0⟩,
   ⟨8, 8, .rw, 0x8⟩,
   ⟨16, 1, .rw, 0x1⟩]
/-- LINK_PORT_STATUS (R414). -/
def linkPortStatus : List FieldDesc :=
  [⟨0, 6, .ro, 0x0⟩,
   ⟨6, 1, .ro, 0x0⟩,
   ⟨7, 1, .w1c, 0x0⟩,
   ⟨8, 32, .ro, 0x0⟩]
/-- LINK_CNT (R415). -/
def linkCnt : List FieldDesc :=
  [⟨0, 64, .ro, 0x0⟩]
/-- LINK_CNT_SAT (R415). -/
def linkCntSat : List FieldDesc :=
  [⟨0, 9, .w1c, 0x0⟩]
/-- LINK_ETH_CFG (R416). -/
def linkEthCfg : List FieldDesc :=
  [⟨0, 16, .rw, 0x0⟩,
   ⟨16, 12, .rw, 0x0⟩,
   ⟨28, 1, .rw, 0x0⟩,
   ⟨29, 8, .rw, 0x0⟩,
   ⟨37, 8, .rw, 0x0⟩,
   ⟨45, 3, .rw, 0x0⟩,
   ⟨48, 1, .rw, 0x1⟩,
   ⟨49, 1, .rw, 0x1⟩,
   ⟨50, 1, .rw, 0x0⟩]
/-- LINK_ETH_MAC (R416). -/
def linkEthMac : List FieldDesc :=
  [⟨0, 48, .rw, 0x0⟩]
/-- LINK_ETH_IP6_HI (R416). -/
def linkEthIp6Hi : List FieldDesc :=
  [⟨0, 64, .rw, 0x0⟩]
/-- LINK_ETH_IP6_LO (R416). -/
def linkEthIp6Lo : List FieldDesc :=
  [⟨0, 64, .rw, 0x0⟩]
/-- LINK_ETH_STATUS (R417). -/
def linkEthStatus : List FieldDesc :=
  [⟨0, 3, .ro, 0x0⟩,
   ⟨3, 1, .w1c, 0x0⟩,
   ⟨4, 1, .ro, 0x0⟩,
   ⟨5, 1, .ro, 0x0⟩,
   ⟨6, 1, .ro, 0x0⟩,
   ⟨7, 1, .ro, 0x0⟩,
   ⟨16, 16, .ro, 0x0⟩]
/-- LINK_ETH_CNT (R418). -/
def linkEthCnt : List FieldDesc :=
  [⟨0, 64, .ro, 0x0⟩]
/-- LINK_GW_ENTRY (R419). -/
def linkGwEntry : List FieldDesc :=
  [⟨0, 48, .rw, 0x0⟩,
   ⟨48, 2, .rw, 0x0⟩,
   ⟨50, 3, .rw, 0x0⟩,
   ⟨53, 1, .rw, 0x0⟩,
   ⟨54, 1, .rw, 0x0⟩]
/-- TM_BUF_CFG (R369). -/
def tmBufCfg : List FieldDesc :=
  [⟨0, 15, .rw, 0x800⟩,
   ⟨16, 16, .rw, 0x3E8⟩,
   ⟨32, 4, .rw, 0x9⟩]
/-- TM_BUF_STATUS (R369). -/
def tmBufStatus : List FieldDesc :=
  [⟨0, 15, .ro, 0x4000⟩,
   ⟨16, 15, .ro, 0x2632⟩,
   ⟨32, 15, .ro, 0x0⟩,
   ⟨48, 15, .ro, 0x0⟩]
/-- TM_QSTATE_BASE (R369). -/
def tmQstateBase : List FieldDesc :=
  [⟨0, 64, .rw, 0x0⟩]
/-- TM_AUDIT_CFG (R372). -/
def tmAuditCfg : List FieldDesc :=
  [⟨0, 24, .rw, 0x2710⟩,
   ⟨24, 1, .rw, 0x0⟩,
   ⟨25, 1, .rw, 0x1⟩]
/-- TM_AUDIT_STATUS (R372). -/
def tmAuditStatus : List FieldDesc :=
  [⟨0, 15, .ro, 0x0⟩,
   ⟨16, 1, .w1c, 0x0⟩,
   ⟨17, 1, .w1c, 0x0⟩,
   ⟨32, 16, .ro, 0x0⟩]
/-- TM_PORT_SHAPE (R373). -/
def tmPortShape : List FieldDesc :=
  [⟨18, 1, .rw, 0x0⟩,
   ⟨19, 22, .rw, 0x0⟩,
   ⟨41, 16, .rw, 0x0⟩]
/-- TM_DSCP_COLOUR0 (R378). -/
def tmDscpColour0 : List FieldDesc :=
  [⟨0, 64, .rw, 0x0⟩]
/-- TM_DSCP_COLOUR1 (R378). -/
def tmDscpColour1 : List FieldDesc :=
  [⟨0, 64, .rw, 0x0⟩]
/-- TM_CNT_SAT (R379). -/
def tmCntSat : List FieldDesc :=
  [⟨0, 32, .w1c, 0x0⟩]
/-- TM_BUF_CLASS (R370). -/
def tmBufClass : List FieldDesc :=
  [⟨0, 15, .rw, 0x200⟩,
   ⟨16, 15, .rw, 0x2000⟩,
   ⟨32, 10, .rw, 0x42⟩,
   ⟨48, 15, .ro, 0x0⟩]
/-- TM_RED (R371). -/
def tmRed : List FieldDesc :=
  [⟨0, 15, .rw, 0x0⟩,
   ⟨16, 15, .rw, 0x0⟩,
   ⟨32, 8, .rw, 0x0⟩,
   ⟨40, 1, .rw, 0x1⟩]
/-- TM_CLASS_SCHED (R373). -/
def tmClassSched : List FieldDesc :=
  [⟨0, 16, .rw, 0x1⟩,
   ⟨16, 2, .rw, 0x0⟩,
   ⟨18, 1, .rw, 0x0⟩,
   ⟨19, 22, .rw, 0x0⟩,
   ⟨41, 16, .rw, 0x0⟩]
/-- TM_QMAP (R374). -/
def tmQmap : List FieldDesc :=
  [⟨0, 14, .rw, 0x0⟩,
   ⟨14, 4, .rw, 0x0⟩]
/-- TM_PMAP (R375). -/
def tmPmap : List FieldDesc :=
  [⟨0, 12, .rw, 0x0⟩,
   ⟨12, 4, .rw, 0x0⟩,
   ⟨16, 1, .rw, 0x0⟩]
/-- TM_SAMPLE (R376). -/
def tmSample : List FieldDesc :=
  [⟨0, 16, .rw, 0x0⟩,
   ⟨16, 1, .rw, 0x0⟩]
/-- TM_SRING_CFG (R377). -/
def tmSringCfg : List FieldDesc :=
  [⟨6, 42, .rw, 0x0⟩,
   ⟨48, 4, .rw, 0x4⟩,
   ⟨52, 4, .rw, 0x3⟩,
   ⟨56, 1, .rw, 0x0⟩]
/-- TM_SRING_IDX (R377). -/
def tmSringIdx : List FieldDesc :=
  [⟨0, 16, .ro, 0x0⟩,
   ⟨16, 16, .rw, 0x0⟩]
/-- TM_CNT (R379). -/
def tmCnt : List FieldDesc :=
  [⟨0, 64, .ro, 0x0⟩]
/-- TM_GROUP (R380). -/
def tmGroup : List FieldDesc :=
  [⟨0, 16, .rw, 0x1⟩,
   ⟨16, 1, .rw, 0x0⟩,
   ⟨18, 1, .rw, 0x0⟩,
   ⟨19, 22, .rw, 0x0⟩,
   ⟨41, 16, .rw, 0x0⟩,
   ⟨57, 3, .rw, 0x0⟩,
   ⟨60, 1, .rw, 0x0⟩]
/-- TM_POLICER (R381). -/
def tmPolicer : List FieldDesc :=
  [⟨0, 22, .rw, 0x0⟩,
   ⟨22, 16, .rw, 0x0⟩,
   ⟨38, 16, .rw, 0x0⟩,
   ⟨54, 1, .rw, 0x0⟩,
   ⟨55, 1, .rw, 0x0⟩,
   ⟨56, 1, .rw, 0x1⟩,
   ⟨57, 1, .rw, 0x0⟩]
/-- TM_POL_CNT (R381). -/
def tmPolCnt : List FieldDesc :=
  [⟨0, 64, .ro, 0x0⟩]
/-- TM_QCFG (R382). -/
def tmQcfg : List FieldDesc :=
  [⟨0, 16, .rw, 0x1⟩,
   ⟨16, 8, .rw, 0x0⟩,
   ⟨32, 16, .ro, 0x0⟩,
   ⟨48, 1, .ro, 0x0⟩]
/-- RT_CMD (R329). -/
def rtCmd : List FieldDesc :=
  [⟨0, 4, .rw, 0x0⟩,
   ⟨4, 3, .rw, 0x0⟩,
   ⟨7, 1, .wo, 0x0⟩]
/-- RT_STATUS (R330). -/
def rtStatus : List FieldDesc :=
  [⟨0, 4, .ro, 0x0⟩,
   ⟨4, 1, .ro, 0x0⟩,
   ⟨5, 1, .w1c, 0x0⟩,
   ⟨8, 16, .ro, 0x0⟩,
   ⟨24, 1, .ro, 0x0⟩]
/-- RT_TABLE_SRC (R331). -/
def rtTableSrc : List FieldDesc :=
  [⟨0, 64, .rw, 0x0⟩]
/-- RT_E2E (R332). -/
def rtE2e : List FieldDesc :=
  [⟨0, 16, .rw, 0x64⟩,
   ⟨16, 8, .rw, 0x10⟩,
   ⟨24, 8, .rw, 0x4⟩,
   ⟨32, 16, .rw, 0x64⟩]
/-- RT_FABLEVEL (R333). -/
def rtFablevel : List FieldDesc :=
  [⟨0, 4, .ro, 0x1⟩,
   ⟨4, 4, .ro, 0x3⟩,
   ⟨8, 4, .rw, 0x1⟩,
   ⟨12, 4, .rw, 0x1⟩,
   ⟨16, 2, .ro, 0x0⟩]
/-- RT_BRINGUP (R334). -/
def rtBringup : List FieldDesc :=
  [⟨0, 4, .ro, 0x0⟩,
   ⟨4, 9, .ro, 0x0⟩,
   ⟨13, 4, .ro, 0xF⟩,
   ⟨17, 1, .ro, 0x0⟩,
   ⟨18, 1, .ro, 0x0⟩,
   ⟨19, 1, .ro, 0x0⟩,
   ⟨20, 1, .ro, 0x0⟩]
/-- RT_CNT_SAT (R337). -/
def rtCntSat : List FieldDesc :=
  [⟨0, 14, .w1c, 0x0⟩]
/-- RT_DRAIN_CNT (R335). -/
def rtDrainCnt : List FieldDesc :=
  [⟨0, 32, .ro, 0x0⟩]
/-- RT_PORT (R336). -/
def rtPort : List FieldDesc :=
  [⟨0, 3, .ro, 0x0⟩,
   ⟨4, 4, .ro, 0x0⟩,
   ⟨8, 4, .ro, 0x0⟩,
   ⟨12, 10, .ro, 0x0⟩,
   ⟨22, 5, .ro, 0x0⟩,
   ⟨32, 1, .w1c, 0x0⟩]
/-- RT_CNT (R337). -/
def rtCnt : List FieldDesc :=
  [⟨0, 64, .ro, 0x0⟩]
/-- RT_ENTRY (R338). -/
def rtEntry : List FieldDesc :=
  [⟨0, 32, .rw, 0x0⟩]
/-- HBM_CTRL (R457). -/
def hbmCtrl : List FieldDesc :=
  [⟨0, 1, .rws, 0x0⟩,
   ⟨1, 1, .wo, 0x0⟩]
/-- HBM_STATUS (R457). -/
def hbmStatus : List FieldDesc :=
  [⟨0, 1, .ro, 0x0⟩,
   ⟨1, 1, .ro, 0x0⟩,
   ⟨8, 8, .ro, 0x0⟩,
   ⟨16, 8, .ro, 0x0⟩,
   ⟨24, 1, .w1c, 0x0⟩]
/-- HBM_ECC_CNT (R457). -/
def hbmEccCnt : List FieldDesc :=
  [⟨0, 32, .ro, 0x0⟩,
   ⟨32, 32, .ro, 0x0⟩]
/-- DDR_CH_STATUS (R458). -/
def ddrChStatus : List FieldDesc :=
  [⟨0, 1, .ro, 0x0⟩,
   ⟨1, 1, .ro, 0x0⟩,
   ⟨2, 1, .ro, 0x0⟩,
   ⟨3, 8, .ro, 0x0⟩,
   ⟨11, 2, .ro, 0x0⟩,
   ⟨13, 2, .ro, 0x0⟩,
   ⟨15, 1, .w1c, 0x0⟩]
/-- DDR_ECC_CNT (R458). -/
def ddrEccCnt : List FieldDesc :=
  [⟨0, 32, .ro, 0x0⟩,
   ⟨32, 32, .ro, 0x0⟩]
/-- DDR_CTRL (R458). -/
def ddrCtrl : List FieldDesc :=
  [⟨0, 1, .wo, 0x0⟩,
   ⟨1, 2, .rw, 0x3⟩]
/-- DM_CTRL (R461). -/
def dmCtrl : List FieldDesc :=
  [⟨0, 1, .wo, 0x0⟩]
/-- DM_STATUS (R461). -/
def dmStatus : List FieldDesc :=
  [⟨0, 1, .ro, 0x0⟩,
   ⟨1, 1, .w1c, 0x0⟩,
   ⟨2, 2, .ro, 0x0⟩,
   ⟨8, 9, .ro, 0x0⟩,
   ⟨32, 16, .ro, 0x0⟩]
/-- DM_ERR_ADDR (R461). -/
def dmErrAddr : List FieldDesc :=
  [⟨0, 64, .ro, 0x0⟩]
/-- DM_CH_CTRL (R462). -/
def dmChCtrl : List FieldDesc :=
  [⟨0, 1, .wo, 0x0⟩,
   ⟨1, 1, .wo, 0x0⟩,
   ⟨2, 8, .rw, 0x0⟩,
   ⟨10, 12, .rw, 0x0⟩,
   ⟨22, 1, .rw, 0x0⟩]
/-- DM_CH_DESC (R462). -/
def dmChDesc : List FieldDesc :=
  [⟨0, 64, .rw, 0x0⟩]
/-- DM_CH_STATUS (R462). -/
def dmChStatus : List FieldDesc :=
  [⟨0, 3, .ro, 0x0⟩,
   ⟨8, 8, .ro, 0x0⟩,
   ⟨16, 32, .ro, 0x0⟩,
   ⟨48, 16, .ro, 0x0⟩]
/-- DM_CH_NEXT (R462). -/
def dmChNext : List FieldDesc :=
  [⟨0, 64, .ro, 0x0⟩]
/-- BP_POOL_BASE (R459). -/
def bpPoolBase : List FieldDesc :=
  [⟨0, 64, .rw, 0x0⟩]
/-- BP_POOL_CFG (R459). -/
def bpPoolCfg : List FieldDesc :=
  [⟨0, 24, .rw, 0x0⟩,
   ⟨24, 1, .rw, 0x0⟩,
   ⟨25, 1, .wo, 0x0⟩]
/-- BP_POOL_RING (R459). -/
def bpPoolRing : List FieldDesc :=
  [⟨0, 64, .rw, 0x0⟩]
/-- BP_POOL_STATUS (R459). -/
def bpPoolStatus : List FieldDesc :=
  [⟨0, 24, .ro, 0x0⟩,
   ⟨24, 10, .ro, 0x0⟩,
   ⟨34, 1, .ro, 0x0⟩]
/-- BP_ALLOC (R459). -/
def bpAlloc : List FieldDesc :=
  [⟨0, 1, .rc, 0x0⟩,
   ⟨1, 2, .rc, 0x0⟩,
   ⟨3, 1, .rc, 0x0⟩,
   ⟨8, 56, .rc, 0x0⟩]
/-- BP_FREE (R460). -/
def bpFree : List FieldDesc :=
  [⟨0, 64, .wo, 0x0⟩]
/-- BP_ERR (R460). -/
def bpErr : List FieldDesc :=
  [⟨0, 1, .w1c, 0x0⟩,
   ⟨8, 56, .ro, 0x0⟩]
/-- BP_BAD_CNT (R460). -/
def bpBadCnt : List FieldDesc :=
  [⟨0, 64, .ro, 0x0⟩]
/-- SEC_LC (R585). -/
def secLc : List FieldDesc :=
  [⟨0, 3, .ro, 0x0⟩,
   ⟨3, 1, .ro, 0x0⟩,
   ⟨4, 1, .ro, 0x0⟩,
   ⟨5, 1, .ro, 0x0⟩,
   ⟨8, 7, .ro, 0x0⟩]
/-- SEC_SERIAL (R585). -/
def secSerial : List FieldDesc :=
  [⟨0, 64, .ro, 0x0⟩]
/-- SEC_BOOT_STATUS (R586). -/
def secBootStatus : List FieldDesc :=
  [⟨0, 3, .ro, 0x0⟩,
   ⟨3, 1, .ro, 0x0⟩,
   ⟨4, 4, .ro, 0x1⟩,
   ⟨8, 4, .ro, 0x1⟩,
   ⟨12, 7, .ro, 0x0⟩]
/-- SEC_CMD (R587). -/
def secCmd : List FieldDesc :=
  [⟨0, 3, .rw, 0x0⟩,
   ⟨3, 1, .wo, 0x0⟩]
/-- SEC_CMD_SRC (R587). -/
def secCmdSrc : List FieldDesc :=
  [⟨0, 64, .rw, 0x0⟩]
/-- SEC_CMD_DST (R587). -/
def secCmdDst : List FieldDesc :=
  [⟨0, 64, .rw, 0x0⟩]
/-- SEC_CMD_STATUS (R587). -/
def secCmdStatus : List FieldDesc :=
  [⟨0, 4, .ro, 0x0⟩,
   ⟨4, 1, .ro, 0x0⟩,
   ⟨5, 1, .w1c, 0x0⟩,
   ⟨32, 32, .ro, 0x0⟩]
/-- SEC_TAMPER (R588). -/
def secTamper : List FieldDesc :=
  [⟨0, 1, .w1c, 0x0⟩,
   ⟨1, 1, .w1c, 0x0⟩,
   ⟨2, 1, .w1c, 0x0⟩,
   ⟨3, 1, .w1c, 0x0⟩,
   ⟨16, 16, .rws, 0x0⟩]
end Flds

/-- The fields of a register. -/
def RegName.fields : RegName → List FieldDesc
  | .glbCoord => Flds.glbCoord
  | .glbNumlevel => Flds.glbNumlevel
  | .glbMode => Flds.glbMode
  | .glbResetCmd => Flds.glbResetCmd
  | .glbResetCause => Flds.glbResetCause
  | .glbMgmtWdog => Flds.glbMgmtWdog
  | .glbCommCmd => Flds.glbCommCmd
  | .glbCommSrc => Flds.glbCommSrc
  | .glbCommStatus => Flds.glbCommStatus
  | .glbStagePool => Flds.glbStagePool
  | .glbStageHbmBase => Flds.glbStageHbmBase
  | .glbCommTimeout => Flds.glbCommTimeout
  | .glbGateCmd => Flds.glbGateCmd
  | .glbGateSrc => Flds.glbGateSrc
  | .glbGateStatus => Flds.glbGateStatus
  | .glbGatePool => Flds.glbGatePool
  | .glbGateSlot => Flds.glbGateSlot
  | .glbGateId => Flds.glbGateId
  | .glbPauseCmd => Flds.glbPauseCmd
  | .glbPauseArg => Flds.glbPauseArg
  | .glbPauseAt => Flds.glbPauseAt
  | .glbPauseStatus => Flds.glbPauseStatus
  | .glbStylusStatus => Flds.glbStylusStatus
  | .glbStylusCfg => Flds.glbStylusCfg
  | .glbStylusErr => Flds.glbStylusErr
  | .glbStylusCnt => Flds.glbStylusCnt
  | .glbSqBase => Flds.glbSqBase
  | .glbSqCfg => Flds.glbSqCfg
  | .glbSqIdx => Flds.glbSqIdx
  | .glbSqMailbox => Flds.glbSqMailbox
  | .glbCqBase => Flds.glbCqBase
  | .glbCqShadow => Flds.glbCqShadow
  | .glbCqCfg => Flds.glbCqCfg
  | .glbCqIdx => Flds.glbCqIdx
  | .fltPair => Flds.fltPair
  | .fltRecovery => Flds.fltRecovery
  | .fltEsc => Flds.fltEsc
  | .fltCfgErr => Flds.fltCfgErr
  | .fltInject => Flds.fltInject
  | .fltBlkrst => Flds.fltBlkrst
  | .fltDieCfg => Flds.fltDieCfg
  | .fltDieStatus => Flds.fltDieStatus
  | .fltDieLast0 => Flds.fltDieLast0
  | .fltDieLast1 => Flds.fltDieLast1
  | .fltDieCnt => Flds.fltDieCnt
  | .fltAselftest => Flds.fltAselftest
  | .pwrDomain => Flds.pwrDomain
  | .pwrTherm => Flds.pwrTherm
  | .pwrInput => Flds.pwrInput
  | .gcCount => Flds.gcCount
  | .gcStatus => Flds.gcStatus
  | .gcCfg => Flds.gcCfg
  | .gcSet => Flds.gcSet
  | .tileImgCmd => Flds.tileImgCmd
  | .tileImgSrc => Flds.tileImgSrc
  | .tileImgStatus => Flds.tileImgStatus
  | .tileStartArg => Flds.tileStartArg
  | .tileCoreStatus => Flds.tileCoreStatus
  | .tileWdog => Flds.tileWdog
  | .tileIllegalInfo => Flds.tileIllegalInfo
  | .tileEngineOcc => Flds.tileEngineOcc
  | .tileHatchFlags => Flds.tileHatchFlags
  | .tileXhFlags => Flds.tileXhFlags
  | .tileSrSeed => Flds.tileSrSeed
  | .tileResidueStatus => Flds.tileResidueStatus
  | .tileResidueCnt => Flds.tileResidueCnt
  | .plateOwner => Flds.plateOwner
  | .plateEccStatus => Flds.plateEccStatus
  | .plateEccCnt => Flds.plateEccCnt
  | .plateScrub => Flds.plateScrub
  | .tileThreadStatus => Flds.tileThreadStatus
  | .laneCtrl => Flds.laneCtrl
  | .laneStatus => Flds.laneStatus
  | .laneCwCnt => Flds.laneCwCnt
  | .lanePrbs => Flds.lanePrbs
  | .lanePrbsErr => Flds.lanePrbsErr
  | .linkPortCfg => Flds.linkPortCfg
  | .linkPortStatus => Flds.linkPortStatus
  | .linkCnt => Flds.linkCnt
  | .linkCntSat => Flds.linkCntSat
  | .linkEthCfg => Flds.linkEthCfg
  | .linkEthMac => Flds.linkEthMac
  | .linkEthIp6Hi => Flds.linkEthIp6Hi
  | .linkEthIp6Lo => Flds.linkEthIp6Lo
  | .linkEthStatus => Flds.linkEthStatus
  | .linkEthCnt => Flds.linkEthCnt
  | .linkGwEntry => Flds.linkGwEntry
  | .tmBufCfg => Flds.tmBufCfg
  | .tmBufStatus => Flds.tmBufStatus
  | .tmQstateBase => Flds.tmQstateBase
  | .tmAuditCfg => Flds.tmAuditCfg
  | .tmAuditStatus => Flds.tmAuditStatus
  | .tmPortShape => Flds.tmPortShape
  | .tmDscpColour0 => Flds.tmDscpColour0
  | .tmDscpColour1 => Flds.tmDscpColour1
  | .tmCntSat => Flds.tmCntSat
  | .tmBufClass => Flds.tmBufClass
  | .tmRed => Flds.tmRed
  | .tmClassSched => Flds.tmClassSched
  | .tmQmap => Flds.tmQmap
  | .tmPmap => Flds.tmPmap
  | .tmSample => Flds.tmSample
  | .tmSringCfg => Flds.tmSringCfg
  | .tmSringIdx => Flds.tmSringIdx
  | .tmCnt => Flds.tmCnt
  | .tmGroup => Flds.tmGroup
  | .tmPolicer => Flds.tmPolicer
  | .tmPolCnt => Flds.tmPolCnt
  | .tmQcfg => Flds.tmQcfg
  | .rtCmd => Flds.rtCmd
  | .rtStatus => Flds.rtStatus
  | .rtTableSrc => Flds.rtTableSrc
  | .rtE2e => Flds.rtE2e
  | .rtFablevel => Flds.rtFablevel
  | .rtBringup => Flds.rtBringup
  | .rtCntSat => Flds.rtCntSat
  | .rtDrainCnt => Flds.rtDrainCnt
  | .rtPort => Flds.rtPort
  | .rtCnt => Flds.rtCnt
  | .rtEntry => Flds.rtEntry
  | .hbmCtrl => Flds.hbmCtrl
  | .hbmStatus => Flds.hbmStatus
  | .hbmEccCnt => Flds.hbmEccCnt
  | .ddrChStatus => Flds.ddrChStatus
  | .ddrEccCnt => Flds.ddrEccCnt
  | .ddrCtrl => Flds.ddrCtrl
  | .dmCtrl => Flds.dmCtrl
  | .dmStatus => Flds.dmStatus
  | .dmErrAddr => Flds.dmErrAddr
  | .dmChCtrl => Flds.dmChCtrl
  | .dmChDesc => Flds.dmChDesc
  | .dmChStatus => Flds.dmChStatus
  | .dmChNext => Flds.dmChNext
  | .bpPoolBase => Flds.bpPoolBase
  | .bpPoolCfg => Flds.bpPoolCfg
  | .bpPoolRing => Flds.bpPoolRing
  | .bpPoolStatus => Flds.bpPoolStatus
  | .bpAlloc => Flds.bpAlloc
  | .bpFree => Flds.bpFree
  | .bpErr => Flds.bpErr
  | .bpBadCnt => Flds.bpBadCnt
  | .secLc => Flds.secLc
  | .secSerial => Flds.secSerial
  | .secBootStatus => Flds.secBootStatus
  | .secCmd => Flds.secCmd
  | .secCmdSrc => Flds.secCmdSrc
  | .secCmdDst => Flds.secCmdDst
  | .secCmdStatus => Flds.secCmdStatus
  | .secTamper => Flds.secTamper

/-- A field by register and place. -/
structure Fld where
  reg : RegName
  lo : Nat
  width : Nat
  deriving DecidableEq, Repr

namespace F
/-- GLB_COORD.Z (R33). -/
def GLB_COORD_Z : Fld := ⟨.glbCoord, 0, 4⟩
/-- GLB_COORD.X (R33). -/
def GLB_COORD_X : Fld := ⟨.glbCoord, 4, 3⟩
/-- GLB_COORD.Y (R33). -/
def GLB_COORD_Y : Fld := ⟨.glbCoord, 7, 3⟩
/-- GLB_COORD.XY_VALID (R33). -/
def GLB_COORD_XY_VALID : Fld := ⟨.glbCoord, 10, 1⟩
/-- GLB_COORD.ROLE (R33). -/
def GLB_COORD_ROLE : Fld := ⟨.glbCoord, 12, 2⟩
/-- GLB_COORD.SLOT_CODE (R33). -/
def GLB_COORD_SLOT_CODE : Fld := ⟨.glbCoord, 16, 4⟩
/-- GLB_COORD.SWITCH_ID (R33). -/
def GLB_COORD_SWITCH_ID : Fld := ⟨.glbCoord, 20, 10⟩
/-- GLB_NUMLEVEL.SUPPORTED (R82). -/
def GLB_NUMLEVEL_SUPPORTED : Fld := ⟨.glbNumlevel, 0, 16⟩
/-- GLB_MODE.DETERM (R555). -/
def GLB_MODE_DETERM : Fld := ⟨.glbMode, 0, 1⟩
/-- GLB_RESET_CMD.KEY (R583). -/
def GLB_RESET_CMD_KEY : Fld := ⟨.glbResetCmd, 0, 16⟩
/-- GLB_RESET_CMD.WARM (R583). -/
def GLB_RESET_CMD_WARM : Fld := ⟨.glbResetCmd, 16, 1⟩
/-- GLB_RESET_CAUSE.CAUSE (R583). -/
def GLB_RESET_CAUSE_CAUSE : Fld := ⟨.glbResetCause, 0, 3⟩
/-- GLB_RESET_CAUSE.WARM_COUNT (R583). -/
def GLB_RESET_CAUSE_WARM_COUNT : Fld := ⟨.glbResetCause, 16, 16⟩
/-- GLB_MGMT_WDOG.PERIOD_MS (R584). -/
def GLB_MGMT_WDOG_PERIOD_MS : Fld := ⟨.glbMgmtWdog, 0, 16⟩
/-- GLB_MGMT_WDOG.KICK (R584). -/
def GLB_MGMT_WDOG_KICK : Fld := ⟨.glbMgmtWdog, 16, 1⟩
/-- GLB_COMM_CMD.COMM_ID (R235). -/
def GLB_COMM_CMD_COMM_ID : Fld := ⟨.glbCommCmd, 0, 20⟩
/-- GLB_COMM_CMD.OP (R235). -/
def GLB_COMM_CMD_OP : Fld := ⟨.glbCommCmd, 20, 3⟩
/-- GLB_COMM_CMD.GO (R235). -/
def GLB_COMM_CMD_GO : Fld := ⟨.glbCommCmd, 23, 1⟩
/-- GLB_COMM_SRC.ARG (R236). -/
def GLB_COMM_SRC_ARG : Fld := ⟨.glbCommSrc, 0, 64⟩
/-- GLB_COMM_STATUS.LAST_RESULT (R237). -/
def GLB_COMM_STATUS_LAST_RESULT : Fld := ⟨.glbCommStatus, 0, 4⟩
/-- GLB_COMM_STATUS.BUSY (R237). -/
def GLB_COMM_STATUS_BUSY : Fld := ⟨.glbCommStatus, 4, 1⟩
/-- GLB_COMM_STATUS.CMD_LOST (R237). -/
def GLB_COMM_STATUS_CMD_LOST : Fld := ⟨.glbCommStatus, 5, 1⟩
/-- GLB_COMM_STATUS.STATE (R237). -/
def GLB_COMM_STATUS_STATE : Fld := ⟨.glbCommStatus, 8, 3⟩
/-- GLB_COMM_STATUS.ACTIVE_COUNT (R237). -/
def GLB_COMM_STATUS_ACTIVE_COUNT : Fld := ⟨.glbCommStatus, 12, 13⟩
/-- GLB_COMM_STATUS.EXPRESS_COUNT (R237). -/
def GLB_COMM_STATUS_EXPRESS_COUNT : Fld := ⟨.glbCommStatus, 25, 4⟩
/-- GLB_COMM_STATUS.NEXT_SEQ (R237). -/
def GLB_COMM_STATUS_NEXT_SEQ : Fld := ⟨.glbCommStatus, 32, 32⟩
/-- GLB_STAGE_POOL.PLATE_KIB (R238). -/
def GLB_STAGE_POOL_PLATE_KIB : Fld := ⟨.glbStagePool, 0, 14⟩
/-- GLB_STAGE_POOL.HBM_MIB (R238). -/
def GLB_STAGE_POOL_HBM_MIB : Fld := ⟨.glbStagePool, 16, 32⟩
/-- GLB_STAGE_HBM_BASE.BASE (R238). -/
def GLB_STAGE_HBM_BASE_BASE : Fld := ⟨.glbStageHbmBase, 0, 64⟩
/-- GLB_COMM_TIMEOUT.LIMIT (R239). -/
def GLB_COMM_TIMEOUT_LIMIT : Fld := ⟨.glbCommTimeout, 0, 32⟩
/-- GLB_GATE_CMD.SLOT (R281). -/
def GLB_GATE_CMD_SLOT : Fld := ⟨.glbGateCmd, 0, 4⟩
/-- GLB_GATE_CMD.OP (R281). -/
def GLB_GATE_CMD_OP : Fld := ⟨.glbGateCmd, 4, 3⟩
/-- GLB_GATE_CMD.GO (R281). -/
def GLB_GATE_CMD_GO : Fld := ⟨.glbGateCmd, 7, 1⟩
/-- GLB_GATE_SRC.ADDR (R282). -/
def GLB_GATE_SRC_ADDR : Fld := ⟨.glbGateSrc, 0, 64⟩
/-- GLB_GATE_STATUS.LAST_RESULT (R283). -/
def GLB_GATE_STATUS_LAST_RESULT : Fld := ⟨.glbGateStatus, 0, 4⟩
/-- GLB_GATE_STATUS.BUSY (R283). -/
def GLB_GATE_STATUS_BUSY : Fld := ⟨.glbGateStatus, 4, 1⟩
/-- GLB_GATE_STATUS.CMD_LOST (R283). -/
def GLB_GATE_STATUS_CMD_LOST : Fld := ⟨.glbGateStatus, 5, 1⟩
/-- GLB_GATE_POOL.SLOT_KIB (R284). -/
def GLB_GATE_POOL_SLOT_KIB : Fld := ⟨.glbGatePool, 0, 14⟩
/-- GLB_GATE_POOL.SLOTS (R284). -/
def GLB_GATE_POOL_SLOTS : Fld := ⟨.glbGatePool, 16, 5⟩
/-- GLB_GATE_SLOT.STATE (R285). -/
def GLB_GATE_SLOT_STATE : Fld := ⟨.glbGateSlot, 0, 2⟩
/-- GLB_GATE_SLOT.PIN (R285). -/
def GLB_GATE_SLOT_PIN : Fld := ⟨.glbGateSlot, 2, 1⟩
/-- GLB_GATE_SLOT.AUTO (R285). -/
def GLB_GATE_SLOT_AUTO : Fld := ⟨.glbGateSlot, 3, 1⟩
/-- GLB_GATE_SLOT.USE (R285). -/
def GLB_GATE_SLOT_USE : Fld := ⟨.glbGateSlot, 4, 13⟩
/-- GLB_GATE_ID.GATE_ID (R285). -/
def GLB_GATE_ID_GATE_ID : Fld := ⟨.glbGateId, 0, 64⟩
/-- GLB_PAUSE_CMD.COMM_ID (R556). -/
def GLB_PAUSE_CMD_COMM_ID : Fld := ⟨.glbPauseCmd, 0, 20⟩
/-- GLB_PAUSE_CMD.OP (R556). -/
def GLB_PAUSE_CMD_OP : Fld := ⟨.glbPauseCmd, 20, 2⟩
/-- GLB_PAUSE_CMD.GO (R556). -/
def GLB_PAUSE_CMD_GO : Fld := ⟨.glbPauseCmd, 22, 1⟩
/-- GLB_PAUSE_CMD.QUIET_US (R556). -/
def GLB_PAUSE_CMD_QUIET_US : Fld := ⟨.glbPauseCmd, 32, 16⟩
/-- GLB_PAUSE_ARG.ADDR (R556). -/
def GLB_PAUSE_ARG_ADDR : Fld := ⟨.glbPauseArg, 0, 64⟩
/-- GLB_PAUSE_AT.AT (R556). -/
def GLB_PAUSE_AT_AT : Fld := ⟨.glbPauseAt, 0, 64⟩
/-- GLB_PAUSE_STATUS.LAST_RESULT (R556). -/
def GLB_PAUSE_STATUS_LAST_RESULT : Fld := ⟨.glbPauseStatus, 0, 4⟩
/-- GLB_PAUSE_STATUS.BUSY (R556). -/
def GLB_PAUSE_STATUS_BUSY : Fld := ⟨.glbPauseStatus, 4, 1⟩
/-- GLB_PAUSE_STATUS.CMD_LOST (R556). -/
def GLB_PAUSE_STATUS_CMD_LOST : Fld := ⟨.glbPauseStatus, 5, 1⟩
/-- GLB_PAUSE_STATUS.OPS (R556). -/
def GLB_PAUSE_STATUS_OPS : Fld := ⟨.glbPauseStatus, 8, 4⟩
/-- GLB_PAUSE_STATUS.BYTES (R556). -/
def GLB_PAUSE_STATUS_BYTES : Fld := ⟨.glbPauseStatus, 32, 32⟩
/-- GLB_STYLUS_STATUS.STATE (R493). -/
def GLB_STYLUS_STATUS_STATE : Fld := ⟨.glbStylusStatus, 0, 2⟩
/-- GLB_STYLUS_STATUS.CHANGED (R493). -/
def GLB_STYLUS_STATUS_CHANGED : Fld := ⟨.glbStylusStatus, 2, 1⟩
/-- GLB_STYLUS_STATUS.LAST_ERR (R493). -/
def GLB_STYLUS_STATUS_LAST_ERR : Fld := ⟨.glbStylusStatus, 8, 8⟩
/-- GLB_STYLUS_CFG.ACK_US (R493). -/
def GLB_STYLUS_CFG_ACK_US : Fld := ⟨.glbStylusCfg, 0, 16⟩
/-- GLB_STYLUS_CFG.POLL_US (R493). -/
def GLB_STYLUS_CFG_POLL_US : Fld := ⟨.glbStylusCfg, 16, 16⟩
/-- GLB_STYLUS_CFG.RETRAIN0 (R493). -/
def GLB_STYLUS_CFG_RETRAIN0 : Fld := ⟨.glbStylusCfg, 32, 1⟩
/-- GLB_STYLUS_CFG.RETRAIN1 (R493). -/
def GLB_STYLUS_CFG_RETRAIN1 : Fld := ⟨.glbStylusCfg, 33, 1⟩
/-- GLB_STYLUS_ERR.ADDR (R493). -/
def GLB_STYLUS_ERR_ADDR : Fld := ⟨.glbStylusErr, 0, 64⟩
/-- GLB_STYLUS_CNT.COUNT (R494). -/
def GLB_STYLUS_CNT_COUNT : Fld := ⟨.glbStylusCnt, 0, 64⟩
/-- GLB_SQ_BASE.BASE (R495). -/
def GLB_SQ_BASE_BASE : Fld := ⟨.glbSqBase, 0, 64⟩
/-- GLB_SQ_CFG.ENTRIES_LOG2 (R495). -/
def GLB_SQ_CFG_ENTRIES_LOG2 : Fld := ⟨.glbSqCfg, 0, 4⟩
/-- GLB_SQ_CFG.CONSUMER (R495). -/
def GLB_SQ_CFG_CONSUMER : Fld := ⟨.glbSqCfg, 4, 1⟩
/-- GLB_SQ_CFG.TILE (R495). -/
def GLB_SQ_CFG_TILE : Fld := ⟨.glbSqCfg, 5, 6⟩
/-- GLB_SQ_CFG.EN (R495). -/
def GLB_SQ_CFG_EN : Fld := ⟨.glbSqCfg, 11, 1⟩
/-- GLB_SQ_CFG.ERR (R495). -/
def GLB_SQ_CFG_ERR : Fld := ⟨.glbSqCfg, 12, 1⟩
/-- GLB_SQ_IDX.HEAD (R495). -/
def GLB_SQ_IDX_HEAD : Fld := ⟨.glbSqIdx, 0, 16⟩
/-- GLB_SQ_IDX.TAIL (R495). -/
def GLB_SQ_IDX_TAIL : Fld := ⟨.glbSqIdx, 16, 16⟩
/-- GLB_SQ_MAILBOX.ADDR (R495). -/
def GLB_SQ_MAILBOX_ADDR : Fld := ⟨.glbSqMailbox, 0, 64⟩
/-- GLB_CQ_BASE.BASE (R496). -/
def GLB_CQ_BASE_BASE : Fld := ⟨.glbCqBase, 0, 64⟩
/-- GLB_CQ_SHADOW.ADDR (R496). -/
def GLB_CQ_SHADOW_ADDR : Fld := ⟨.glbCqShadow, 0, 64⟩
/-- GLB_CQ_CFG.ENTRIES_LOG2 (R496). -/
def GLB_CQ_CFG_ENTRIES_LOG2 : Fld := ⟨.glbCqCfg, 0, 4⟩
/-- GLB_CQ_CFG.EN (R496). -/
def GLB_CQ_CFG_EN : Fld := ⟨.glbCqCfg, 4, 1⟩
/-- GLB_CQ_CFG.PORT (R496). -/
def GLB_CQ_CFG_PORT : Fld := ⟨.glbCqCfg, 5, 1⟩
/-- GLB_CQ_CFG.IRQ_EN (R496). -/
def GLB_CQ_CFG_IRQ_EN : Fld := ⟨.glbCqCfg, 6, 1⟩
/-- GLB_CQ_CFG.ARMED (R496). -/
def GLB_CQ_CFG_ARMED : Fld := ⟨.glbCqCfg, 7, 1⟩
/-- GLB_CQ_CFG.VECTOR (R496). -/
def GLB_CQ_CFG_VECTOR : Fld := ⟨.glbCqCfg, 8, 16⟩
/-- GLB_CQ_CFG.MOD_COUNT (R496). -/
def GLB_CQ_CFG_MOD_COUNT : Fld := ⟨.glbCqCfg, 24, 8⟩
/-- GLB_CQ_CFG.MOD_US (R496). -/
def GLB_CQ_CFG_MOD_US : Fld := ⟨.glbCqCfg, 32, 8⟩
/-- GLB_CQ_CFG.STALLED (R496). -/
def GLB_CQ_CFG_STALLED : Fld := ⟨.glbCqCfg, 40, 1⟩
/-- GLB_CQ_CFG.ERR (R496). -/
def GLB_CQ_CFG_ERR : Fld := ⟨.glbCqCfg, 41, 1⟩
/-- GLB_CQ_IDX.HEAD (R496). -/
def GLB_CQ_IDX_HEAD : Fld := ⟨.glbCqIdx, 0, 16⟩
/-- GLB_CQ_IDX.TAIL (R496). -/
def GLB_CQ_IDX_TAIL : Fld := ⟨.glbCqIdx, 16, 16⟩
/-- FLT_PAIR.STATE (R520). -/
def FLT_PAIR_STATE : Fld := ⟨.fltPair, 0, 2⟩
/-- FLT_PAIR.FORCE (R520). -/
def FLT_PAIR_FORCE : Fld := ⟨.fltPair, 2, 1⟩
/-- FLT_PAIR.SENSE_ERR (R520). -/
def FLT_PAIR_SENSE_ERR : Fld := ⟨.fltPair, 3, 1⟩
/-- FLT_PAIR.QUIET_MS (R520). -/
def FLT_PAIR_QUIET_MS : Fld := ⟨.fltPair, 8, 24⟩
/-- FLT_PAIR.LEVEL (R520). -/
def FLT_PAIR_LEVEL : Fld := ⟨.fltPair, 32, 3⟩
/-- FLT_RECOVERY.COUNT (R521). -/
def FLT_RECOVERY_COUNT : Fld := ⟨.fltRecovery, 0, 16⟩
/-- FLT_ESC.CE_LIMIT (R522). -/
def FLT_ESC_CE_LIMIT : Fld := ⟨.fltEsc, 0, 16⟩
/-- FLT_ESC.UC_LIMIT (R522). -/
def FLT_ESC_UC_LIMIT : Fld := ⟨.fltEsc, 16, 8⟩
/-- FLT_ESC.UL_LIMIT (R522). -/
def FLT_ESC_UL_LIMIT : Fld := ⟨.fltEsc, 24, 4⟩
/-- FLT_ESC.WINDOW_S (R522). -/
def FLT_ESC_WINDOW_S : Fld := ⟨.fltEsc, 32, 8⟩
/-- FLT_ESC.UF_ACTION (R522). -/
def FLT_ESC_UF_ACTION : Fld := ⟨.fltEsc, 40, 1⟩
/-- FLT_CFG_ERR.ERR (R523). -/
def FLT_CFG_ERR_ERR : Fld := ⟨.fltCfgErr, 0, 1⟩
/-- FLT_CFG_ERR.OVERRUN (R523). -/
def FLT_CFG_ERR_OVERRUN : Fld := ⟨.fltCfgErr, 1, 1⟩
/-- FLT_CFG_ERR.ADDR (R523). -/
def FLT_CFG_ERR_ADDR : Fld := ⟨.fltCfgErr, 32, 32⟩
/-- FLT_INJECT.CHECKER (R524). -/
def FLT_INJECT_CHECKER : Fld := ⟨.fltInject, 0, 8⟩
/-- FLT_INJECT.DIE (R524). -/
def FLT_INJECT_DIE : Fld := ⟨.fltInject, 8, 2⟩
/-- FLT_INJECT.TILE (R524). -/
def FLT_INJECT_TILE : Fld := ⟨.fltInject, 10, 4⟩
/-- FLT_INJECT.MODE (R524). -/
def FLT_INJECT_MODE : Fld := ⟨.fltInject, 14, 2⟩
/-- FLT_INJECT.INDEX (R524). -/
def FLT_INJECT_INDEX : Fld := ⟨.fltInject, 16, 10⟩
/-- FLT_INJECT.COUNT (R524). -/
def FLT_INJECT_COUNT : Fld := ⟨.fltInject, 26, 8⟩
/-- FLT_INJECT.NO_ESC (R524). -/
def FLT_INJECT_NO_ESC : Fld := ⟨.fltInject, 34, 1⟩
/-- FLT_INJECT.GO (R524). -/
def FLT_INJECT_GO : Fld := ⟨.fltInject, 35, 1⟩
/-- FLT_INJECT.ARMED (R524). -/
def FLT_INJECT_ARMED : Fld := ⟨.fltInject, 36, 1⟩
/-- FLT_INJECT.DONE (R524). -/
def FLT_INJECT_DONE : Fld := ⟨.fltInject, 37, 1⟩
/-- FLT_BLKRST.DOMAIN (R525). -/
def FLT_BLKRST_DOMAIN : Fld := ⟨.fltBlkrst, 0, 4⟩
/-- FLT_BLKRST.INSTANCE (R525). -/
def FLT_BLKRST_INSTANCE : Fld := ⟨.fltBlkrst, 8, 6⟩
/-- FLT_BLKRST.GO (R525). -/
def FLT_BLKRST_GO : Fld := ⟨.fltBlkrst, 14, 1⟩
/-- FLT_BLKRST.BUSY (R525). -/
def FLT_BLKRST_BUSY : Fld := ⟨.fltBlkrst, 15, 1⟩
/-- FLT_BLKRST.RESULT (R525). -/
def FLT_BLKRST_RESULT : Fld := ⟨.fltBlkrst, 16, 2⟩
/-- FLT_DIE_CFG.RING (R526). -/
def FLT_DIE_CFG_RING : Fld := ⟨.fltDieCfg, 0, 12⟩
/-- FLT_DIE_CFG.RING_EN (R526). -/
def FLT_DIE_CFG_RING_EN : Fld := ⟨.fltDieCfg, 12, 1⟩
/-- FLT_DIE_CFG.CE_HOLDOFF_MS (R526). -/
def FLT_DIE_CFG_CE_HOLDOFF_MS : Fld := ⟨.fltDieCfg, 16, 8⟩
/-- FLT_DIE_STATUS.EVENT (R526). -/
def FLT_DIE_STATUS_EVENT : Fld := ⟨.fltDieStatus, 0, 1⟩
/-- FLT_DIE_STATUS.CE (R526). -/
def FLT_DIE_STATUS_CE : Fld := ⟨.fltDieStatus, 1, 1⟩
/-- FLT_DIE_STATUS.UC (R526). -/
def FLT_DIE_STATUS_UC : Fld := ⟨.fltDieStatus, 2, 1⟩
/-- FLT_DIE_STATUS.UL (R526). -/
def FLT_DIE_STATUS_UL : Fld := ⟨.fltDieStatus, 3, 1⟩
/-- FLT_DIE_STATUS.UF (R526). -/
def FLT_DIE_STATUS_UF : Fld := ⟨.fltDieStatus, 4, 1⟩
/-- FLT_DIE_STATUS.LOST (R526). -/
def FLT_DIE_STATUS_LOST : Fld := ⟨.fltDieStatus, 5, 1⟩
/-- FLT_DIE_STATUS.SAT (R526). -/
def FLT_DIE_STATUS_SAT : Fld := ⟨.fltDieStatus, 6, 1⟩
/-- FLT_DIE_STATUS.HELD (R526). -/
def FLT_DIE_STATUS_HELD : Fld := ⟨.fltDieStatus, 8, 7⟩
/-- FLT_DIE_LAST0.WORD (R526). -/
def FLT_DIE_LAST0_WORD : Fld := ⟨.fltDieLast0, 0, 64⟩
/-- FLT_DIE_LAST1.WORD (R526). -/
def FLT_DIE_LAST1_WORD : Fld := ⟨.fltDieLast1, 0, 64⟩
/-- FLT_DIE_CNT.COUNT (R526). -/
def FLT_DIE_CNT_COUNT : Fld := ⟨.fltDieCnt, 0, 64⟩
/-- FLT_ASELFTEST.GO (R527). -/
def FLT_ASELFTEST_GO : Fld := ⟨.fltAselftest, 0, 1⟩
/-- FLT_ASELFTEST.RESULT (R527). -/
def FLT_ASELFTEST_RESULT : Fld := ⟨.fltAselftest, 1, 3⟩
/-- FLT_ASELFTEST.RUNS (R527). -/
def FLT_ASELFTEST_RUNS : Fld := ⟨.fltAselftest, 16, 16⟩
/-- PWR_DOMAIN.TOL_NS (R558). -/
def PWR_DOMAIN_TOL_NS : Fld := ⟨.pwrDomain, 0, 32⟩
/-- PWR_DOMAIN.STATE (R558). -/
def PWR_DOMAIN_STATE : Fld := ⟨.pwrDomain, 32, 2⟩
/-- PWR_DOMAIN.ENTRIES (R558). -/
def PWR_DOMAIN_ENTRIES : Fld := ⟨.pwrDomain, 48, 16⟩
/-- PWR_THERM.TEMP (R604). -/
def PWR_THERM_TEMP : Fld := ⟨.pwrTherm, 0, 16⟩
/-- PWR_THERM.ALERT_C (R604). -/
def PWR_THERM_ALERT_C : Fld := ⟨.pwrTherm, 16, 8⟩
/-- PWR_THERM.THROTTLE_C (R604). -/
def PWR_THERM_THROTTLE_C : Fld := ⟨.pwrTherm, 24, 8⟩
/-- PWR_THERM.ALERT (R604). -/
def PWR_THERM_ALERT : Fld := ⟨.pwrTherm, 32, 1⟩
/-- PWR_THERM.THROTTLING (R604). -/
def PWR_THERM_THROTTLING : Fld := ⟨.pwrTherm, 33, 1⟩
/-- PWR_THERM.CHANGED (R604). -/
def PWR_THERM_CHANGED : Fld := ⟨.pwrTherm, 34, 1⟩
/-- PWR_INPUT.VIN_MV (R605). -/
def PWR_INPUT_VIN_MV : Fld := ⟨.pwrInput, 0, 16⟩
/-- PWR_INPUT.PIN_W (R605). -/
def PWR_INPUT_PIN_W : Fld := ⟨.pwrInput, 16, 16⟩
/-- PWR_INPUT.CAP_W (R605). -/
def PWR_INPUT_CAP_W : Fld := ⟨.pwrInput, 32, 16⟩
/-- PWR_INPUT.CAPPING (R605). -/
def PWR_INPUT_CAPPING : Fld := ⟨.pwrInput, 48, 1⟩
/-- PWR_INPUT.CHANGED (R605). -/
def PWR_INPUT_CHANGED : Fld := ⟨.pwrInput, 49, 1⟩
/-- GC_COUNT.COUNT (R557). -/
def GC_COUNT_COUNT : Fld := ⟨.gcCount, 0, 64⟩
/-- GC_STATUS.SYNCED (R557). -/
def GC_STATUS_SYNCED : Fld := ⟨.gcStatus, 0, 1⟩
/-- GC_STATUS.EVER_SYNCED (R557). -/
def GC_STATUS_EVER_SYNCED : Fld := ⟨.gcStatus, 1, 1⟩
/-- GC_STATUS.MASTER (R557). -/
def GC_STATUS_MASTER : Fld := ⟨.gcStatus, 2, 1⟩
/-- GC_STATUS.HOLDOVER (R557). -/
def GC_STATUS_HOLDOVER : Fld := ⟨.gcStatus, 3, 1⟩
/-- GC_STATUS.CHANGED (R557). -/
def GC_STATUS_CHANGED : Fld := ⟨.gcStatus, 4, 1⟩
/-- GC_STATUS.PARENT (R557). -/
def GC_STATUS_PARENT : Fld := ⟨.gcStatus, 8, 5⟩
/-- GC_STATUS.HOPS (R557). -/
def GC_STATUS_HOPS : Fld := ⟨.gcStatus, 16, 8⟩
/-- GC_STATUS.MASTER_ID (R557). -/
def GC_STATUS_MASTER_ID : Fld := ⟨.gcStatus, 24, 10⟩
/-- GC_STATUS.OFFSET (R557). -/
def GC_STATUS_OFFSET : Fld := ⟨.gcStatus, 48, 16⟩
/-- GC_CFG.HOLDOVER_MS (R557). -/
def GC_CFG_HOLDOVER_MS : Fld := ⟨.gcCfg, 0, 16⟩
/-- GC_CFG.EN (R557). -/
def GC_CFG_EN : Fld := ⟨.gcCfg, 16, 1⟩
/-- GC_SET.COUNT (R557). -/
def GC_SET_COUNT : Fld := ⟨.gcSet, 0, 64⟩
/-- TILE_IMG_CMD.SLOT (R124). -/
def TILE_IMG_CMD_SLOT : Fld := ⟨.tileImgCmd, 0, 2⟩
/-- TILE_IMG_CMD.OP (R124). -/
def TILE_IMG_CMD_OP : Fld := ⟨.tileImgCmd, 4, 3⟩
/-- TILE_IMG_CMD.GO (R124). -/
def TILE_IMG_CMD_GO : Fld := ⟨.tileImgCmd, 8, 1⟩
/-- TILE_IMG_SRC.ADDR (R125). -/
def TILE_IMG_SRC_ADDR : Fld := ⟨.tileImgSrc, 0, 64⟩
/-- TILE_IMG_STATUS.LAST_RESULT (R126). -/
def TILE_IMG_STATUS_LAST_RESULT : Fld := ⟨.tileImgStatus, 0, 4⟩
/-- TILE_IMG_STATUS.LAST_SLOT (R126). -/
def TILE_IMG_STATUS_LAST_SLOT : Fld := ⟨.tileImgStatus, 4, 2⟩
/-- TILE_IMG_STATUS.BUSY (R126). -/
def TILE_IMG_STATUS_BUSY : Fld := ⟨.tileImgStatus, 6, 1⟩
/-- TILE_IMG_STATUS.CMD_LOST (R126). -/
def TILE_IMG_STATUS_CMD_LOST : Fld := ⟨.tileImgStatus, 7, 1⟩
/-- TILE_IMG_STATUS.SLOT0 (R126). -/
def TILE_IMG_STATUS_SLOT0 : Fld := ⟨.tileImgStatus, 8, 3⟩
/-- TILE_IMG_STATUS.SLOT1 (R126). -/
def TILE_IMG_STATUS_SLOT1 : Fld := ⟨.tileImgStatus, 11, 3⟩
/-- TILE_IMG_STATUS.SLOT2 (R126). -/
def TILE_IMG_STATUS_SLOT2 : Fld := ⟨.tileImgStatus, 14, 3⟩
/-- TILE_IMG_STATUS.SLOT3 (R126). -/
def TILE_IMG_STATUS_SLOT3 : Fld := ⟨.tileImgStatus, 17, 3⟩
/-- TILE_START_ARG.ARG (R127). -/
def TILE_START_ARG_ARG : Fld := ⟨.tileStartArg, 0, 64⟩
/-- TILE_CORE_STATUS.S_PARITY (R128). -/
def TILE_CORE_STATUS_S_PARITY : Fld := ⟨.tileCoreStatus, 0, 1⟩
/-- TILE_CORE_STATUS.REG_CE (R128). -/
def TILE_CORE_STATUS_REG_CE : Fld := ⟨.tileCoreStatus, 1, 1⟩
/-- TILE_CORE_STATUS.REG_UC (R128). -/
def TILE_CORE_STATUS_REG_UC : Fld := ⟨.tileCoreStatus, 2, 1⟩
/-- TILE_CORE_STATUS.ISTORE_CE (R128). -/
def TILE_CORE_STATUS_ISTORE_CE : Fld := ⟨.tileCoreStatus, 3, 1⟩
/-- TILE_CORE_STATUS.ISTORE_UC (R128). -/
def TILE_CORE_STATUS_ISTORE_UC : Fld := ⟨.tileCoreStatus, 4, 1⟩
/-- TILE_CORE_STATUS.TICKET_CE (R128). -/
def TILE_CORE_STATUS_TICKET_CE : Fld := ⟨.tileCoreStatus, 5, 1⟩
/-- TILE_CORE_STATUS.WDOG_FIRED (R128). -/
def TILE_CORE_STATUS_WDOG_FIRED : Fld := ⟨.tileCoreStatus, 6, 1⟩
/-- TILE_WDOG.PERIOD (R128). -/
def TILE_WDOG_PERIOD : Fld := ⟨.tileWdog, 0, 32⟩
/-- TILE_ILLEGAL_INFO.REASON (R188). -/
def TILE_ILLEGAL_INFO_REASON : Fld := ⟨.tileIllegalInfo, 0, 8⟩
/-- TILE_ILLEGAL_INFO.THREAD (R188). -/
def TILE_ILLEGAL_INFO_THREAD : Fld := ⟨.tileIllegalInfo, 16, 7⟩
/-- TILE_ILLEGAL_INFO.PC (R188). -/
def TILE_ILLEGAL_INFO_PC : Fld := ⟨.tileIllegalInfo, 24, 14⟩
/-- TILE_ILLEGAL_INFO.SLOT (R188). -/
def TILE_ILLEGAL_INFO_SLOT : Fld := ⟨.tileIllegalInfo, 38, 2⟩
/-- TILE_ILLEGAL_INFO.VALID (R188). -/
def TILE_ILLEGAL_INFO_VALID : Fld := ⟨.tileIllegalInfo, 40, 1⟩
/-- TILE_ILLEGAL_INFO.OVERRUN (R188). -/
def TILE_ILLEGAL_INFO_OVERRUN : Fld := ⟨.tileIllegalInfo, 41, 1⟩
/-- TILE_ENGINE_OCC.HATCH_Q (R189). -/
def TILE_ENGINE_OCC_HATCH_Q : Fld := ⟨.tileEngineOcc, 0, 7⟩
/-- TILE_ENGINE_OCC.XH_Q (R189). -/
def TILE_ENGINE_OCC_XH_Q : Fld := ⟨.tileEngineOcc, 8, 5⟩
/-- TILE_ENGINE_OCC.MC_Q (R189). -/
def TILE_ENGINE_OCC_MC_Q : Fld := ⟨.tileEngineOcc, 16, 9⟩
/-- TILE_ENGINE_OCC.TICKETS (R189). -/
def TILE_ENGINE_OCC_TICKETS : Fld := ⟨.tileEngineOcc, 32, 10⟩
/-- TILE_HATCH_FLAGS.OVF (R74). -/
def TILE_HATCH_FLAGS_OVF : Fld := ⟨.tileHatchFlags, 0, 1⟩
/-- TILE_HATCH_FLAGS.UNF (R74). -/
def TILE_HATCH_FLAGS_UNF : Fld := ⟨.tileHatchFlags, 1, 1⟩
/-- TILE_HATCH_FLAGS.INX (R74). -/
def TILE_HATCH_FLAGS_INX : Fld := ⟨.tileHatchFlags, 2, 1⟩
/-- TILE_HATCH_FLAGS.INV (R74). -/
def TILE_HATCH_FLAGS_INV : Fld := ⟨.tileHatchFlags, 3, 1⟩
/-- TILE_XH_FLAGS.OVF (R74). -/
def TILE_XH_FLAGS_OVF : Fld := ⟨.tileXhFlags, 0, 1⟩
/-- TILE_XH_FLAGS.UNF (R74). -/
def TILE_XH_FLAGS_UNF : Fld := ⟨.tileXhFlags, 1, 1⟩
/-- TILE_XH_FLAGS.INX (R74). -/
def TILE_XH_FLAGS_INX : Fld := ⟨.tileXhFlags, 2, 1⟩
/-- TILE_XH_FLAGS.INV (R74). -/
def TILE_XH_FLAGS_INV : Fld := ⟨.tileXhFlags, 3, 1⟩
/-- TILE_SR_SEED.SEED (R75). -/
def TILE_SR_SEED_SEED : Fld := ⟨.tileSrSeed, 0, 64⟩
/-- TILE_RESIDUE_STATUS.HATCH_ERR (R78). -/
def TILE_RESIDUE_STATUS_HATCH_ERR : Fld := ⟨.tileResidueStatus, 0, 1⟩
/-- TILE_RESIDUE_STATUS.XH_ERR (R78). -/
def TILE_RESIDUE_STATUS_XH_ERR : Fld := ⟨.tileResidueStatus, 1, 1⟩
/-- TILE_RESIDUE_STATUS.CNT_SAT (R78). -/
def TILE_RESIDUE_STATUS_CNT_SAT : Fld := ⟨.tileResidueStatus, 2, 1⟩
/-- TILE_RESIDUE_CNT.COUNT (R78). -/
def TILE_RESIDUE_CNT_COUNT : Fld := ⟨.tileResidueCnt, 0, 64⟩
/-- PLATE_OWNER.KIND (R455). -/
def PLATE_OWNER_KIND : Fld := ⟨.plateOwner, 0, 2⟩
/-- PLATE_OWNER.TILE (R455). -/
def PLATE_OWNER_TILE : Fld := ⟨.plateOwner, 2, 4⟩
/-- PLATE_OWNER.PENDING (R455). -/
def PLATE_OWNER_PENDING : Fld := ⟨.plateOwner, 8, 1⟩
/-- PLATE_ECC_STATUS.CE (R456). -/
def PLATE_ECC_STATUS_CE : Fld := ⟨.plateEccStatus, 0, 1⟩
/-- PLATE_ECC_STATUS.UC (R456). -/
def PLATE_ECC_STATUS_UC : Fld := ⟨.plateEccStatus, 1, 1⟩
/-- PLATE_ECC_STATUS.SAT (R456). -/
def PLATE_ECC_STATUS_SAT : Fld := ⟨.plateEccStatus, 2, 1⟩
/-- PLATE_ECC_STATUS.LAST_UC_LINE (R456). -/
def PLATE_ECC_STATUS_LAST_UC_LINE : Fld := ⟨.plateEccStatus, 3, 17⟩
/-- PLATE_ECC_CNT.CE_COUNT (R456). -/
def PLATE_ECC_CNT_CE_COUNT : Fld := ⟨.plateEccCnt, 0, 32⟩
/-- PLATE_ECC_CNT.UC_COUNT (R456). -/
def PLATE_ECC_CNT_UC_COUNT : Fld := ⟨.plateEccCnt, 32, 32⟩
/-- PLATE_SCRUB.PERIOD (R456). -/
def PLATE_SCRUB_PERIOD : Fld := ⟨.plateScrub, 0, 16⟩
/-- PLATE_SCRUB.PASSES (R456). -/
def PLATE_SCRUB_PASSES : Fld := ⟨.plateScrub, 32, 16⟩
/-- TILE_THREAD_STATUS.STATE (R129). -/
def TILE_THREAD_STATUS_STATE : Fld := ⟨.tileThreadStatus, 0, 3⟩
/-- TILE_THREAD_STATUS.SLOT (R129). -/
def TILE_THREAD_STATUS_SLOT : Fld := ⟨.tileThreadStatus, 4, 2⟩
/-- TILE_THREAD_STATUS.CAUSE (R129). -/
def TILE_THREAD_STATUS_CAUSE : Fld := ⟨.tileThreadStatus, 8, 4⟩
/-- TILE_THREAD_STATUS.BLOCK (R129). -/
def TILE_THREAD_STATUS_BLOCK : Fld := ⟨.tileThreadStatus, 12, 4⟩
/-- TILE_THREAD_STATUS.PC (R129). -/
def TILE_THREAD_STATUS_PC : Fld := ⟨.tileThreadStatus, 16, 14⟩
/-- TILE_THREAD_STATUS.HELD (R129). -/
def TILE_THREAD_STATUS_HELD : Fld := ⟨.tileThreadStatus, 32, 10⟩
/-- LANE_CTRL.EN (R411). -/
def LANE_CTRL_EN : Fld := ⟨.laneCtrl, 0, 1⟩
/-- LANE_CTRL.CAL_EN (R411). -/
def LANE_CTRL_CAL_EN : Fld := ⟨.laneCtrl, 1, 1⟩
/-- LANE_CTRL.TX_INV (R411). -/
def LANE_CTRL_TX_INV : Fld := ⟨.laneCtrl, 2, 1⟩
/-- LANE_CTRL.RX_INV (R411). -/
def LANE_CTRL_RX_INV : Fld := ⟨.laneCtrl, 3, 1⟩
/-- LANE_STATUS.STATE (R412). -/
def LANE_STATUS_STATE : Fld := ⟨.laneStatus, 0, 3⟩
/-- LANE_STATUS.SIGNAL (R412). -/
def LANE_STATUS_SIGNAL : Fld := ⟨.laneStatus, 3, 1⟩
/-- LANE_STATUS.CDR_LOCK (R412). -/
def LANE_STATUS_CDR_LOCK : Fld := ⟨.laneStatus, 4, 1⟩
/-- LANE_STATUS.MARKER_LOCK (R412). -/
def LANE_STATUS_MARKER_LOCK : Fld := ⟨.laneStatus, 5, 1⟩
/-- LANE_STATUS.MARGIN (R412). -/
def LANE_STATUS_MARGIN : Fld := ⟨.laneStatus, 8, 8⟩
/-- LANE_STATUS.SKEW (R412). -/
def LANE_STATUS_SKEW : Fld := ⟨.laneStatus, 16, 8⟩
/-- LANE_CW_CNT.CORRECTED (R412). -/
def LANE_CW_CNT_CORRECTED : Fld := ⟨.laneCwCnt, 0, 32⟩
/-- LANE_CW_CNT.UNCORRECTABLE (R412). -/
def LANE_CW_CNT_UNCORRECTABLE : Fld := ⟨.laneCwCnt, 32, 32⟩
/-- LANE_PRBS.PATTERN (R413). -/
def LANE_PRBS_PATTERN : Fld := ⟨.lanePrbs, 0, 2⟩
/-- LANE_PRBS.GEN_EN (R413). -/
def LANE_PRBS_GEN_EN : Fld := ⟨.lanePrbs, 2, 1⟩
/-- LANE_PRBS.CHK_EN (R413). -/
def LANE_PRBS_CHK_EN : Fld := ⟨.lanePrbs, 3, 1⟩
/-- LANE_PRBS.SELFTEST (R413). -/
def LANE_PRBS_SELFTEST : Fld := ⟨.lanePrbs, 4, 1⟩
/-- LANE_PRBS.RESULT (R413). -/
def LANE_PRBS_RESULT : Fld := ⟨.lanePrbs, 5, 3⟩
/-- LANE_PRBS.INJ_EN (R413). -/
def LANE_PRBS_INJ_EN : Fld := ⟨.lanePrbs, 8, 1⟩
/-- LANE_PRBS.INJ_MODE (R413). -/
def LANE_PRBS_INJ_MODE : Fld := ⟨.lanePrbs, 9, 1⟩
/-- LANE_PRBS.INJ_SIDE (R413). -/
def LANE_PRBS_INJ_SIDE : Fld := ⟨.lanePrbs, 10, 1⟩
/-- LANE_PRBS.INJ_PERIOD (R413). -/
def LANE_PRBS_INJ_PERIOD : Fld := ⟨.lanePrbs, 11, 32⟩
/-- LANE_PRBS.INJ_LEN (R413). -/
def LANE_PRBS_INJ_LEN : Fld := ⟨.lanePrbs, 43, 8⟩
/-- LANE_PRBS.DURATION_MS (R413). -/
def LANE_PRBS_DURATION_MS : Fld := ⟨.lanePrbs, 51, 11⟩
/-- LANE_PRBS_ERR.ERRORS (R413). -/
def LANE_PRBS_ERR_ERRORS : Fld := ⟨.lanePrbsErr, 0, 64⟩
/-- LINK_PORT_CFG.MIN_LANES (R414). -/
def LINK_PORT_CFG_MIN_LANES : Fld := ⟨.linkPortCfg, 0, 6⟩
/-- LINK_PORT_CFG.MODE (R414). -/
def LINK_PORT_CFG_MODE : Fld := ⟨.linkPortCfg, 6, 1⟩
/-- LINK_PORT_CFG.RETRAIN (R414). -/
def LINK_PORT_CFG_RETRAIN : Fld := ⟨.linkPortCfg, 7, 1⟩
/-- LINK_PORT_CFG.RETRY_LIMIT (R414). -/
def LINK_PORT_CFG_RETRY_LIMIT : Fld := ⟨.linkPortCfg, 8, 8⟩
/-- LINK_PORT_CFG.LPM_EN (R414). -/
def LINK_PORT_CFG_LPM_EN : Fld := ⟨.linkPortCfg, 16, 1⟩
/-- LINK_PORT_STATUS.ACTIVE (R414). -/
def LINK_PORT_STATUS_ACTIVE : Fld := ⟨.linkPortStatus, 0, 6⟩
/-- LINK_PORT_STATUS.REPLAYING (R414). -/
def LINK_PORT_STATUS_REPLAYING : Fld := ⟨.linkPortStatus, 6, 1⟩
/-- LINK_PORT_STATUS.WIDTH_CHG (R414). -/
def LINK_PORT_STATUS_WIDTH_CHG : Fld := ⟨.linkPortStatus, 7, 1⟩
/-- LINK_PORT_STATUS.RX_MASK (R414). -/
def LINK_PORT_STATUS_RX_MASK : Fld := ⟨.linkPortStatus, 8, 32⟩
/-- LINK_CNT.COUNT (R415). -/
def LINK_CNT_COUNT : Fld := ⟨.linkCnt, 0, 64⟩
/-- LINK_CNT_SAT.SAT (R415). -/
def LINK_CNT_SAT_SAT : Fld := ⟨.linkCntSat, 0, 9⟩
/-- LINK_ETH_CFG.SERVE_PORT (R416). -/
def LINK_ETH_CFG_SERVE_PORT : Fld := ⟨.linkEthCfg, 0, 16⟩
/-- LINK_ETH_CFG.VID (R416). -/
def LINK_ETH_CFG_VID : Fld := ⟨.linkEthCfg, 16, 12⟩
/-- LINK_ETH_CFG.TAGGED (R416). -/
def LINK_ETH_CFG_TAGGED : Fld := ⟨.linkEthCfg, 28, 1⟩
/-- LINK_ETH_CFG.PFC_RX_EN (R416). -/
def LINK_ETH_CFG_PFC_RX_EN : Fld := ⟨.linkEthCfg, 29, 8⟩
/-- LINK_ETH_CFG.PFC_TX_EN (R416). -/
def LINK_ETH_CFG_PFC_TX_EN : Fld := ⟨.linkEthCfg, 37, 8⟩
/-- LINK_ETH_CFG.DEF_PRIO (R416). -/
def LINK_ETH_CFG_DEF_PRIO : Fld := ⟨.linkEthCfg, 45, 3⟩
/-- LINK_ETH_CFG.AN_EN (R416). -/
def LINK_ETH_CFG_AN_EN : Fld := ⟨.linkEthCfg, 48, 1⟩
/-- LINK_ETH_CFG.LT_EN (R416). -/
def LINK_ETH_CFG_LT_EN : Fld := ⟨.linkEthCfg, 49, 1⟩
/-- LINK_ETH_CFG.EN (R416). -/
def LINK_ETH_CFG_EN : Fld := ⟨.linkEthCfg, 50, 1⟩
/-- LINK_ETH_MAC.MAC (R416). -/
def LINK_ETH_MAC_MAC : Fld := ⟨.linkEthMac, 0, 48⟩
/-- LINK_ETH_IP6_HI.ADDR (R416). -/
def LINK_ETH_IP6_HI_ADDR : Fld := ⟨.linkEthIp6Hi, 0, 64⟩
/-- LINK_ETH_IP6_LO.ADDR (R416). -/
def LINK_ETH_IP6_LO_ADDR : Fld := ⟨.linkEthIp6Lo, 0, 64⟩
/-- LINK_ETH_STATUS.STATE (R417). -/
def LINK_ETH_STATUS_STATE : Fld := ⟨.linkEthStatus, 0, 3⟩
/-- LINK_ETH_STATUS.CHANGED (R417). -/
def LINK_ETH_STATUS_CHANGED : Fld := ⟨.linkEthStatus, 3, 1⟩
/-- LINK_ETH_STATUS.AN_DONE (R417). -/
def LINK_ETH_STATUS_AN_DONE : Fld := ⟨.linkEthStatus, 4, 1⟩
/-- LINK_ETH_STATUS.AN_FAIL (R417). -/
def LINK_ETH_STATUS_AN_FAIL : Fld := ⟨.linkEthStatus, 5, 1⟩
/-- LINK_ETH_STATUS.PCS_LOCK (R417). -/
def LINK_ETH_STATUS_PCS_LOCK : Fld := ⟨.linkEthStatus, 6, 1⟩
/-- LINK_ETH_STATUS.FEC_ALIGN (R417). -/
def LINK_ETH_STATUS_FEC_ALIGN : Fld := ⟨.linkEthStatus, 7, 1⟩
/-- LINK_ETH_STATUS.DOWN_COUNT (R417). -/
def LINK_ETH_STATUS_DOWN_COUNT : Fld := ⟨.linkEthStatus, 16, 16⟩
/-- LINK_ETH_CNT.COUNT (R418). -/
def LINK_ETH_CNT_COUNT : Fld := ⟨.linkEthCnt, 0, 64⟩
/-- LINK_GW_ENTRY.NH_MAC (R419). -/
def LINK_GW_ENTRY_NH_MAC : Fld := ⟨.linkGwEntry, 0, 48⟩
/-- LINK_GW_ENTRY.PORT (R419). -/
def LINK_GW_ENTRY_PORT : Fld := ⟨.linkGwEntry, 48, 2⟩
/-- LINK_GW_ENTRY.PCP (R419). -/
def LINK_GW_ENTRY_PCP : Fld := ⟨.linkGwEntry, 50, 3⟩
/-- LINK_GW_ENTRY.TAG (R419). -/
def LINK_GW_ENTRY_TAG : Fld := ⟨.linkGwEntry, 53, 1⟩
/-- LINK_GW_ENTRY.VALID (R419). -/
def LINK_GW_ENTRY_VALID : Fld := ⟨.linkGwEntry, 54, 1⟩
/-- TM_BUF_CFG.REORDER (R369). -/
def TM_BUF_CFG_REORDER : Fld := ⟨.tmBufCfg, 0, 15⟩
/-- TM_BUF_CFG.HOLD_US (R369). -/
def TM_BUF_CFG_HOLD_US : Fld := ⟨.tmBufCfg, 16, 16⟩
/-- TM_BUF_CFG.AVG_W (R369). -/
def TM_BUF_CFG_AVG_W : Fld := ⟨.tmBufCfg, 32, 4⟩
/-- TM_BUF_STATUS.FREE (R369). -/
def TM_BUF_STATUS_FREE : Fld := ⟨.tmBufStatus, 0, 15⟩
/-- TM_BUF_STATUS.SHARED_FREE (R369). -/
def TM_BUF_STATUS_SHARED_FREE : Fld := ⟨.tmBufStatus, 16, 15⟩
/-- TM_BUF_STATUS.REORDER_OCC (R369). -/
def TM_BUF_STATUS_REORDER_OCC : Fld := ⟨.tmBufStatus, 32, 15⟩
/-- TM_BUF_STATUS.BE_AVG (R369). -/
def TM_BUF_STATUS_BE_AVG : Fld := ⟨.tmBufStatus, 48, 15⟩
/-- TM_QSTATE_BASE.BASE (R369). -/
def TM_QSTATE_BASE_BASE : Fld := ⟨.tmQstateBase, 0, 64⟩
/-- TM_AUDIT_CFG.PERIOD_US (R372). -/
def TM_AUDIT_CFG_PERIOD_US : Fld := ⟨.tmAuditCfg, 0, 24⟩
/-- TM_AUDIT_CFG.RECLAIM (R372). -/
def TM_AUDIT_CFG_RECLAIM : Fld := ⟨.tmAuditCfg, 24, 1⟩
/-- TM_AUDIT_CFG.EN (R372). -/
def TM_AUDIT_CFG_EN : Fld := ⟨.tmAuditCfg, 25, 1⟩
/-- TM_AUDIT_STATUS.LAST_LEAKED (R372). -/
def TM_AUDIT_STATUS_LAST_LEAKED : Fld := ⟨.tmAuditStatus, 0, 15⟩
/-- TM_AUDIT_STATUS.FOUND (R372). -/
def TM_AUDIT_STATUS_FOUND : Fld := ⟨.tmAuditStatus, 16, 1⟩
/-- TM_AUDIT_STATUS.DOUBLE (R372). -/
def TM_AUDIT_STATUS_DOUBLE : Fld := ⟨.tmAuditStatus, 17, 1⟩
/-- TM_AUDIT_STATUS.PASSES (R372). -/
def TM_AUDIT_STATUS_PASSES : Fld := ⟨.tmAuditStatus, 32, 16⟩
/-- TM_PORT_SHAPE.SH_EN (R373). -/
def TM_PORT_SHAPE_SH_EN : Fld := ⟨.tmPortShape, 18, 1⟩
/-- TM_PORT_SHAPE.RATE (R373). -/
def TM_PORT_SHAPE_RATE : Fld := ⟨.tmPortShape, 19, 22⟩
/-- TM_PORT_SHAPE.BURST (R373). -/
def TM_PORT_SHAPE_BURST : Fld := ⟨.tmPortShape, 41, 16⟩
/-- TM_DSCP_COLOUR0.COLOUR (R378). -/
def TM_DSCP_COLOUR0_COLOUR : Fld := ⟨.tmDscpColour0, 0, 64⟩
/-- TM_DSCP_COLOUR1.COLOUR (R378). -/
def TM_DSCP_COLOUR1_COLOUR : Fld := ⟨.tmDscpColour1, 0, 64⟩
/-- TM_CNT_SAT.SAT (R379). -/
def TM_CNT_SAT_SAT : Fld := ⟨.tmCntSat, 0, 32⟩
/-- TM_BUF_CLASS.MIN (R370). -/
def TM_BUF_CLASS_MIN : Fld := ⟨.tmBufClass, 0, 15⟩
/-- TM_BUF_CLASS.MAX (R370). -/
def TM_BUF_CLASS_MAX : Fld := ⟨.tmBufClass, 16, 15⟩
/-- TM_BUF_CLASS.ESC_RES (R370). -/
def TM_BUF_CLASS_ESC_RES : Fld := ⟨.tmBufClass, 32, 10⟩
/-- TM_BUF_CLASS.OCC (R370). -/
def TM_BUF_CLASS_OCC : Fld := ⟨.tmBufClass, 48, 15⟩
/-- TM_RED.MIN_TH (R371). -/
def TM_RED_MIN_TH : Fld := ⟨.tmRed, 0, 15⟩
/-- TM_RED.MAX_TH (R371). -/
def TM_RED_MAX_TH : Fld := ⟨.tmRed, 16, 15⟩
/-- TM_RED.MAX_P (R371). -/
def TM_RED_MAX_P : Fld := ⟨.tmRed, 32, 8⟩
/-- TM_RED.EN (R371). -/
def TM_RED_EN : Fld := ⟨.tmRed, 40, 1⟩
/-- TM_CLASS_SCHED.WEIGHT (R373). -/
def TM_CLASS_SCHED_WEIGHT : Fld := ⟨.tmClassSched, 0, 16⟩
/-- TM_CLASS_SCHED.TIER (R373). -/
def TM_CLASS_SCHED_TIER : Fld := ⟨.tmClassSched, 16, 2⟩
/-- TM_CLASS_SCHED.SH_EN (R373). -/
def TM_CLASS_SCHED_SH_EN : Fld := ⟨.tmClassSched, 18, 1⟩
/-- TM_CLASS_SCHED.RATE (R373). -/
def TM_CLASS_SCHED_RATE : Fld := ⟨.tmClassSched, 19, 22⟩
/-- TM_CLASS_SCHED.BURST (R373). -/
def TM_CLASS_SCHED_BURST : Fld := ⟨.tmClassSched, 41, 16⟩
/-- TM_QMAP.QUEUE (R374). -/
def TM_QMAP_QUEUE : Fld := ⟨.tmQmap, 0, 14⟩
/-- TM_QMAP.COUNT_LOG2 (R374). -/
def TM_QMAP_COUNT_LOG2 : Fld := ⟨.tmQmap, 14, 4⟩
/-- TM_PMAP.BASE (R375). -/
def TM_PMAP_BASE : Fld := ⟨.tmPmap, 0, 12⟩
/-- TM_PMAP.COUNT_LOG2 (R375). -/
def TM_PMAP_COUNT_LOG2 : Fld := ⟨.tmPmap, 12, 4⟩
/-- TM_PMAP.EN (R375). -/
def TM_PMAP_EN : Fld := ⟨.tmPmap, 16, 1⟩
/-- TM_SAMPLE.N (R376). -/
def TM_SAMPLE_N : Fld := ⟨.tmSample, 0, 16⟩
/-- TM_SAMPLE.RING (R376). -/
def TM_SAMPLE_RING : Fld := ⟨.tmSample, 16, 1⟩
/-- TM_SRING_CFG.BASE (R377). -/
def TM_SRING_CFG_BASE : Fld := ⟨.tmSringCfg, 6, 42⟩
/-- TM_SRING_CFG.ENTRIES_LOG2 (R377). -/
def TM_SRING_CFG_ENTRIES_LOG2 : Fld := ⟨.tmSringCfg, 48, 4⟩
/-- TM_SRING_CFG.SNAP (R377). -/
def TM_SRING_CFG_SNAP : Fld := ⟨.tmSringCfg, 52, 4⟩
/-- TM_SRING_CFG.EN (R377). -/
def TM_SRING_CFG_EN : Fld := ⟨.tmSringCfg, 56, 1⟩
/-- TM_SRING_IDX.HEAD (R377). -/
def TM_SRING_IDX_HEAD : Fld := ⟨.tmSringIdx, 0, 16⟩
/-- TM_SRING_IDX.TAIL (R377). -/
def TM_SRING_IDX_TAIL : Fld := ⟨.tmSringIdx, 16, 16⟩
/-- TM_CNT.COUNT (R379). -/
def TM_CNT_COUNT : Fld := ⟨.tmCnt, 0, 64⟩
/-- TM_GROUP.WEIGHT (R380). -/
def TM_GROUP_WEIGHT : Fld := ⟨.tmGroup, 0, 16⟩
/-- TM_GROUP.TIER (R380). -/
def TM_GROUP_TIER : Fld := ⟨.tmGroup, 16, 1⟩
/-- TM_GROUP.SH_EN (R380). -/
def TM_GROUP_SH_EN : Fld := ⟨.tmGroup, 18, 1⟩
/-- TM_GROUP.RATE (R380). -/
def TM_GROUP_RATE : Fld := ⟨.tmGroup, 19, 22⟩
/-- TM_GROUP.BURST (R380). -/
def TM_GROUP_BURST : Fld := ⟨.tmGroup, 41, 16⟩
/-- TM_GROUP.CLASS (R380). -/
def TM_GROUP_CLASS : Fld := ⟨.tmGroup, 57, 3⟩
/-- TM_GROUP.VALID (R380). -/
def TM_GROUP_VALID : Fld := ⟨.tmGroup, 60, 1⟩
/-- TM_POLICER.CIR (R381). -/
def TM_POLICER_CIR : Fld := ⟨.tmPolicer, 0, 22⟩
/-- TM_POLICER.CBS (R381). -/
def TM_POLICER_CBS : Fld := ⟨.tmPolicer, 22, 16⟩
/-- TM_POLICER.EBS (R381). -/
def TM_POLICER_EBS : Fld := ⟨.tmPolicer, 38, 16⟩
/-- TM_POLICER.AWARE (R381). -/
def TM_POLICER_AWARE : Fld := ⟨.tmPolicer, 54, 1⟩
/-- TM_POLICER.Y_DROP (R381). -/
def TM_POLICER_Y_DROP : Fld := ⟨.tmPolicer, 55, 1⟩
/-- TM_POLICER.R_DROP (R381). -/
def TM_POLICER_R_DROP : Fld := ⟨.tmPolicer, 56, 1⟩
/-- TM_POLICER.EN (R381). -/
def TM_POLICER_EN : Fld := ⟨.tmPolicer, 57, 1⟩
/-- TM_POL_CNT.COUNT (R381). -/
def TM_POL_CNT_COUNT : Fld := ⟨.tmPolCnt, 0, 64⟩
/-- TM_QCFG.WEIGHT (R382). -/
def TM_QCFG_WEIGHT : Fld := ⟨.tmQcfg, 0, 16⟩
/-- TM_QCFG.GROUP (R382). -/
def TM_QCFG_GROUP : Fld := ⟨.tmQcfg, 16, 8⟩
/-- TM_QCFG.LEN (R382). -/
def TM_QCFG_LEN : Fld := ⟨.tmQcfg, 32, 16⟩
/-- TM_QCFG.RESIDENT (R382). -/
def TM_QCFG_RESIDENT : Fld := ⟨.tmQcfg, 48, 1⟩
/-- RT_CMD.GROUP (R329). -/
def RT_CMD_GROUP : Fld := ⟨.rtCmd, 0, 4⟩
/-- RT_CMD.OP (R329). -/
def RT_CMD_OP : Fld := ⟨.rtCmd, 4, 3⟩
/-- RT_CMD.GO (R329). -/
def RT_CMD_GO : Fld := ⟨.rtCmd, 7, 1⟩
/-- RT_STATUS.LAST_RESULT (R330). -/
def RT_STATUS_LAST_RESULT : Fld := ⟨.rtStatus, 0, 4⟩
/-- RT_STATUS.BUSY (R330). -/
def RT_STATUS_BUSY : Fld := ⟨.rtStatus, 4, 1⟩
/-- RT_STATUS.CMD_LOST (R330). -/
def RT_STATUS_CMD_LOST : Fld := ⟨.rtStatus, 5, 1⟩
/-- RT_STATUS.HELD (R330). -/
def RT_STATUS_HELD : Fld := ⟨.rtStatus, 8, 16⟩
/-- RT_STATUS.LOADED (R330). -/
def RT_STATUS_LOADED : Fld := ⟨.rtStatus, 24, 1⟩
/-- RT_TABLE_SRC.ADDR (R331). -/
def RT_TABLE_SRC_ADDR : Fld := ⟨.rtTableSrc, 0, 64⟩
/-- RT_E2E.RETX_US (R332). -/
def RT_E2E_RETX_US : Fld := ⟨.rtE2e, 0, 16⟩
/-- RT_E2E.RETRY_LIMIT (R332). -/
def RT_E2E_RETRY_LIMIT : Fld := ⟨.rtE2e, 16, 8⟩
/-- RT_E2E.ACK_US (R332). -/
def RT_E2E_ACK_US : Fld := ⟨.rtE2e, 24, 8⟩
/-- RT_E2E.IDLE_MS (R332). -/
def RT_E2E_IDLE_MS : Fld := ⟨.rtE2e, 32, 16⟩
/-- RT_FABLEVEL.HW_MIN (R333). -/
def RT_FABLEVEL_HW_MIN : Fld := ⟨.rtFablevel, 0, 4⟩
/-- RT_FABLEVEL.HW_MAX (R333). -/
def RT_FABLEVEL_HW_MAX : Fld := ⟨.rtFablevel, 4, 4⟩
/-- RT_FABLEVEL.LOCAL (R333). -/
def RT_FABLEVEL_LOCAL : Fld := ⟨.rtFablevel, 8, 4⟩
/-- RT_FABLEVEL.FABRIC_MIN (R333). -/
def RT_FABLEVEL_FABRIC_MIN : Fld := ⟨.rtFablevel, 12, 4⟩
/-- RT_FABLEVEL.FEATURES (R333). -/
def RT_FABLEVEL_FEATURES : Fld := ⟨.rtFablevel, 16, 2⟩
/-- RT_BRINGUP.PHASE (R334). -/
def RT_BRINGUP_PHASE : Fld := ⟨.rtBringup, 0, 4⟩
/-- RT_BRINGUP.Z_PRESENT (R334). -/
def RT_BRINGUP_Z_PRESENT : Fld := ⟨.rtBringup, 4, 9⟩
/-- RT_BRINGUP.LEADER (R334). -/
def RT_BRINGUP_LEADER : Fld := ⟨.rtBringup, 13, 4⟩
/-- RT_BRINGUP.Z_OPEN (R334). -/
def RT_BRINGUP_Z_OPEN : Fld := ⟨.rtBringup, 17, 1⟩
/-- RT_BRINGUP.Z_CLASH (R334). -/
def RT_BRINGUP_Z_CLASH : Fld := ⟨.rtBringup, 18, 1⟩
/-- RT_BRINGUP.X_OPEN (R334). -/
def RT_BRINGUP_X_OPEN : Fld := ⟨.rtBringup, 19, 1⟩
/-- RT_BRINGUP.Y_OPEN (R334). -/
def RT_BRINGUP_Y_OPEN : Fld := ⟨.rtBringup, 20, 1⟩
/-- RT_CNT_SAT.SAT (R337). -/
def RT_CNT_SAT_SAT : Fld := ⟨.rtCntSat, 0, 14⟩
/-- RT_DRAIN_CNT.IN_FLIGHT (R335). -/
def RT_DRAIN_CNT_IN_FLIGHT : Fld := ⟨.rtDrainCnt, 0, 32⟩
/-- RT_PORT.STATE (R336). -/
def RT_PORT_STATE : Fld := ⟨.rtPort, 0, 3⟩
/-- RT_PORT.CAUSE (R336). -/
def RT_PORT_CAUSE : Fld := ⟨.rtPort, 4, 4⟩
/-- RT_PORT.LEVEL (R336). -/
def RT_PORT_LEVEL : Fld := ⟨.rtPort, 8, 4⟩
/-- RT_PORT.NBR_ID (R336). -/
def RT_PORT_NBR_ID : Fld := ⟨.rtPort, 12, 10⟩
/-- RT_PORT.NBR_PORT (R336). -/
def RT_PORT_NBR_PORT : Fld := ⟨.rtPort, 22, 5⟩
/-- RT_PORT.CHANGED (R336). -/
def RT_PORT_CHANGED : Fld := ⟨.rtPort, 32, 1⟩
/-- RT_CNT.COUNT (R337). -/
def RT_CNT_COUNT : Fld := ⟨.rtCnt, 0, 64⟩
/-- RT_ENTRY.ENTRY (R338). -/
def RT_ENTRY_ENTRY : Fld := ⟨.rtEntry, 0, 32⟩
/-- HBM_CTRL.MAP (R457). -/
def HBM_CTRL_MAP : Fld := ⟨.hbmCtrl, 0, 1⟩
/-- HBM_CTRL.INIT (R457). -/
def HBM_CTRL_INIT : Fld := ⟨.hbmCtrl, 1, 1⟩
/-- HBM_STATUS.READY (R457). -/
def HBM_STATUS_READY : Fld := ⟨.hbmStatus, 0, 1⟩
/-- HBM_STATUS.MAP_ACTIVE (R457). -/
def HBM_STATUS_MAP_ACTIVE : Fld := ⟨.hbmStatus, 1, 1⟩
/-- HBM_STATUS.STACK_OK (R457). -/
def HBM_STATUS_STACK_OK : Fld := ⟨.hbmStatus, 8, 8⟩
/-- HBM_STATUS.STACK_FAIL (R457). -/
def HBM_STATUS_STACK_FAIL : Fld := ⟨.hbmStatus, 16, 8⟩
/-- HBM_STATUS.UC (R457). -/
def HBM_STATUS_UC : Fld := ⟨.hbmStatus, 24, 1⟩
/-- HBM_ECC_CNT.CE_COUNT (R457). -/
def HBM_ECC_CNT_CE_COUNT : Fld := ⟨.hbmEccCnt, 0, 32⟩
/-- HBM_ECC_CNT.UC_COUNT (R457). -/
def HBM_ECC_CNT_UC_COUNT : Fld := ⟨.hbmEccCnt, 32, 32⟩
/-- DDR_CH_STATUS.PRESENT (R458). -/
def DDR_CH_STATUS_PRESENT : Fld := ⟨.ddrChStatus, 0, 1⟩
/-- DDR_CH_STATUS.TRAINED (R458). -/
def DDR_CH_STATUS_TRAINED : Fld := ⟨.ddrChStatus, 1, 1⟩
/-- DDR_CH_STATUS.FAILED (R458). -/
def DDR_CH_STATUS_FAILED : Fld := ⟨.ddrChStatus, 2, 1⟩
/-- DDR_CH_STATUS.SIZE_GIB (R458). -/
def DDR_CH_STATUS_SIZE_GIB : Fld := ⟨.ddrChStatus, 3, 8⟩
/-- DDR_CH_STATUS.SPEED (R458). -/
def DDR_CH_STATUS_SPEED : Fld := ⟨.ddrChStatus, 11, 2⟩
/-- DDR_CH_STATUS.RANKS (R458). -/
def DDR_CH_STATUS_RANKS : Fld := ⟨.ddrChStatus, 13, 2⟩
/-- DDR_CH_STATUS.UC (R458). -/
def DDR_CH_STATUS_UC : Fld := ⟨.ddrChStatus, 15, 1⟩
/-- DDR_ECC_CNT.CE_COUNT (R458). -/
def DDR_ECC_CNT_CE_COUNT : Fld := ⟨.ddrEccCnt, 0, 32⟩
/-- DDR_ECC_CNT.UC_COUNT (R458). -/
def DDR_ECC_CNT_UC_COUNT : Fld := ⟨.ddrEccCnt, 32, 32⟩
/-- DDR_CTRL.INIT (R458). -/
def DDR_CTRL_INIT : Fld := ⟨.ddrCtrl, 0, 1⟩
/-- DDR_CTRL.MAX_SPEED (R458). -/
def DDR_CTRL_MAX_SPEED : Fld := ⟨.ddrCtrl, 1, 2⟩
/-- DM_CTRL.RESUME (R461). -/
def DM_CTRL_RESUME : Fld := ⟨.dmCtrl, 0, 1⟩
/-- DM_STATUS.HALTED (R461). -/
def DM_STATUS_HALTED : Fld := ⟨.dmStatus, 0, 1⟩
/-- DM_STATUS.BUS_ERR (R461). -/
def DM_STATUS_BUS_ERR : Fld := ⟨.dmStatus, 1, 1⟩
/-- DM_STATUS.ERR_KIND (R461). -/
def DM_STATUS_ERR_KIND : Fld := ⟨.dmStatus, 2, 2⟩
/-- DM_STATUS.BUF_USED (R461). -/
def DM_STATUS_BUF_USED : Fld := ⟨.dmStatus, 8, 9⟩
/-- DM_STATUS.WB_LOST (R461). -/
def DM_STATUS_WB_LOST : Fld := ⟨.dmStatus, 32, 16⟩
/-- DM_ERR_ADDR.ADDR (R461). -/
def DM_ERR_ADDR_ADDR : Fld := ⟨.dmErrAddr, 0, 64⟩
/-- DM_CH_CTRL.GO (R462). -/
def DM_CH_CTRL_GO : Fld := ⟨.dmChCtrl, 0, 1⟩
/-- DM_CH_CTRL.ABORT (R462). -/
def DM_CH_CTRL_ABORT : Fld := ⟨.dmChCtrl, 1, 1⟩
/-- DM_CH_CTRL.RATE (R462). -/
def DM_CH_CTRL_RATE : Fld := ⟨.dmChCtrl, 2, 8⟩
/-- DM_CH_CTRL.RING (R462). -/
def DM_CH_CTRL_RING : Fld := ⟨.dmChCtrl, 10, 12⟩
/-- DM_CH_CTRL.RING_EN (R462). -/
def DM_CH_CTRL_RING_EN : Fld := ⟨.dmChCtrl, 22, 1⟩
/-- DM_CH_DESC.ADDR (R462). -/
def DM_CH_DESC_ADDR : Fld := ⟨.dmChDesc, 0, 64⟩
/-- DM_CH_STATUS.STATE (R462). -/
def DM_CH_STATUS_STATE : Fld := ⟨.dmChStatus, 0, 3⟩
/-- DM_CH_STATUS.LAST_STATUS (R462). -/
def DM_CH_STATUS_LAST_STATUS : Fld := ⟨.dmChStatus, 8, 8⟩
/-- DM_CH_STATUS.RESIDUE (R462). -/
def DM_CH_STATUS_RESIDUE : Fld := ⟨.dmChStatus, 16, 32⟩
/-- DM_CH_STATUS.DONE (R462). -/
def DM_CH_STATUS_DONE : Fld := ⟨.dmChStatus, 48, 16⟩
/-- DM_CH_NEXT.ADDR (R462). -/
def DM_CH_NEXT_ADDR : Fld := ⟨.dmChNext, 0, 64⟩
/-- BP_POOL_BASE.ADDR (R459). -/
def BP_POOL_BASE_ADDR : Fld := ⟨.bpPoolBase, 0, 64⟩
/-- BP_POOL_CFG.COUNT (R459). -/
def BP_POOL_CFG_COUNT : Fld := ⟨.bpPoolCfg, 0, 24⟩
/-- BP_POOL_CFG.EN (R459). -/
def BP_POOL_CFG_EN : Fld := ⟨.bpPoolCfg, 24, 1⟩
/-- BP_POOL_CFG.INIT (R459). -/
def BP_POOL_CFG_INIT : Fld := ⟨.bpPoolCfg, 25, 1⟩
/-- BP_POOL_RING.ADDR (R459). -/
def BP_POOL_RING_ADDR : Fld := ⟨.bpPoolRing, 0, 64⟩
/-- BP_POOL_STATUS.FREE (R459). -/
def BP_POOL_STATUS_FREE : Fld := ⟨.bpPoolStatus, 0, 24⟩
/-- BP_POOL_STATUS.CACHED (R459). -/
def BP_POOL_STATUS_CACHED : Fld := ⟨.bpPoolStatus, 24, 10⟩
/-- BP_POOL_STATUS.READY (R459). -/
def BP_POOL_STATUS_READY : Fld := ⟨.bpPoolStatus, 34, 1⟩
/-- BP_ALLOC.OK (R459). -/
def BP_ALLOC_OK : Fld := ⟨.bpAlloc, 0, 1⟩
/-- BP_ALLOC.POOL (R459). -/
def BP_ALLOC_POOL : Fld := ⟨.bpAlloc, 1, 2⟩
/-- BP_ALLOC.FALLBACK (R459). -/
def BP_ALLOC_FALLBACK : Fld := ⟨.bpAlloc, 3, 1⟩
/-- BP_ALLOC.PTR (R459). -/
def BP_ALLOC_PTR : Fld := ⟨.bpAlloc, 8, 56⟩
/-- BP_FREE.PTR (R460). -/
def BP_FREE_PTR : Fld := ⟨.bpFree, 0, 64⟩
/-- BP_ERR.BAD_FREE (R460). -/
def BP_ERR_BAD_FREE : Fld := ⟨.bpErr, 0, 1⟩
/-- BP_ERR.LAST_BAD (R460). -/
def BP_ERR_LAST_BAD : Fld := ⟨.bpErr, 8, 56⟩
/-- BP_BAD_CNT.COUNT (R460). -/
def BP_BAD_CNT_COUNT : Fld := ⟨.bpBadCnt, 0, 64⟩
/-- SEC_LC.STATE (R585). -/
def SEC_LC_STATE : Fld := ⟨.secLc, 0, 3⟩
/-- SEC_LC.PENDING (R585). -/
def SEC_LC_PENDING : Fld := ⟨.secLc, 3, 1⟩
/-- SEC_LC.OWNER (R585). -/
def SEC_LC_OWNER : Fld := ⟨.secLc, 4, 1⟩
/-- SEC_LC.TAMPERED (R585). -/
def SEC_LC_TAMPERED : Fld := ⟨.secLc, 5, 1⟩
/-- SEC_LC.SVN_FUSE (R585). -/
def SEC_LC_SVN_FUSE : Fld := ⟨.secLc, 8, 7⟩
/-- SEC_SERIAL.SERIAL (R585). -/
def SEC_SERIAL_SERIAL : Fld := ⟨.secSerial, 0, 64⟩
/-- SEC_BOOT_STATUS.PHASE (R586). -/
def SEC_BOOT_STATUS_PHASE : Fld := ⟨.secBootStatus, 0, 3⟩
/-- SEC_BOOT_STATUS.SLOT (R586). -/
def SEC_BOOT_STATUS_SLOT : Fld := ⟨.secBootStatus, 3, 1⟩
/-- SEC_BOOT_STATUS.RESULT_A (R586). -/
def SEC_BOOT_STATUS_RESULT_A : Fld := ⟨.secBootStatus, 4, 4⟩
/-- SEC_BOOT_STATUS.RESULT_B (R586). -/
def SEC_BOOT_STATUS_RESULT_B : Fld := ⟨.secBootStatus, 8, 4⟩
/-- SEC_BOOT_STATUS.FW_SVN (R586). -/
def SEC_BOOT_STATUS_FW_SVN : Fld := ⟨.secBootStatus, 12, 7⟩
/-- SEC_CMD.OP (R587). -/
def SEC_CMD_OP : Fld := ⟨.secCmd, 0, 3⟩
/-- SEC_CMD.GO (R587). -/
def SEC_CMD_GO : Fld := ⟨.secCmd, 3, 1⟩
/-- SEC_CMD_SRC.ADDR (R587). -/
def SEC_CMD_SRC_ADDR : Fld := ⟨.secCmdSrc, 0, 64⟩
/-- SEC_CMD_DST.ADDR (R587). -/
def SEC_CMD_DST_ADDR : Fld := ⟨.secCmdDst, 0, 64⟩
/-- SEC_CMD_STATUS.LAST_RESULT (R587). -/
def SEC_CMD_STATUS_LAST_RESULT : Fld := ⟨.secCmdStatus, 0, 4⟩
/-- SEC_CMD_STATUS.BUSY (R587). -/
def SEC_CMD_STATUS_BUSY : Fld := ⟨.secCmdStatus, 4, 1⟩
/-- SEC_CMD_STATUS.CMD_LOST (R587). -/
def SEC_CMD_STATUS_CMD_LOST : Fld := ⟨.secCmdStatus, 5, 1⟩
/-- SEC_CMD_STATUS.LENGTH (R587). -/
def SEC_CMD_STATUS_LENGTH : Fld := ⟨.secCmdStatus, 32, 32⟩
/-- SEC_TAMPER.VOLTAGE (R588). -/
def SEC_TAMPER_VOLTAGE : Fld := ⟨.secTamper, 0, 1⟩
/-- SEC_TAMPER.CLOCK (R588). -/
def SEC_TAMPER_CLOCK : Fld := ⟨.secTamper, 1, 1⟩
/-- SEC_TAMPER.TEMP (R588). -/
def SEC_TAMPER_TEMP : Fld := ⟨.secTamper, 2, 1⟩
/-- SEC_TAMPER.TEST_ACCESS (R588). -/
def SEC_TAMPER_TEST_ACCESS : Fld := ⟨.secTamper, 3, 1⟩
/-- SEC_TAMPER.COUNT (R588). -/
def SEC_TAMPER_COUNT : Fld := ⟨.secTamper, 16, 16⟩
end F

end Sys2Proof.Machine
end

