-- ==== Sys2Proof/Machine/Crypto.lean ====
section
/-! DEFINITION. What the standards of R11, R118 and R572 to R575 fix: SHA-384 (FIPS 180-4), HMAC (RFC 2104), ECDSA on
brainpoolP384r1 (RFC 5639, FIPS 186) and the DER bytes of the alias certificate (RFC 5280, RFC 5480). Log 9. -/
namespace Sys2Proof.Machine

/-! ### SHA-384 and HMAC-SHA-384 -/

/-- FIPS 180-4, 4.2.3: the 80 constants, from the cube roots of the first primes. -/
def shaK : List (BitVec 64) :=
  [0x428A2F98D728AE22, 0x7137449123EF65CD, 0xB5C0FBCFEC4D3B2F, 0xE9B5DBA58189DBBC] ++
  [0x3956C25BF348B538, 0x59F111F1B605D019, 0x923F82A4AF194F9B, 0xAB1C5ED5DA6D8118] ++
  [0xD807AA98A3030242, 0x12835B0145706FBE, 0x243185BE4EE4B28C, 0x550C7DC3D5FFB4E2] ++
  [0x72BE5D74F27B896F, 0x80DEB1FE3B1696B1, 0x9BDC06A725C71235, 0xC19BF174CF692694] ++
  [0xE49B69C19EF14AD2, 0xEFBE4786384F25E3, 0x0FC19DC68B8CD5B5, 0x240CA1CC77AC9C65] ++
  [0x2DE92C6F592B0275, 0x4A7484AA6EA6E483, 0x5CB0A9DCBD41FBD4, 0x76F988DA831153B5] ++
  [0x983E5152EE66DFAB, 0xA831C66D2DB43210, 0xB00327C898FB213F, 0xBF597FC7BEEF0EE4] ++
  [0xC6E00BF33DA88FC2, 0xD5A79147930AA725, 0x06CA6351E003826F, 0x142929670A0E6E70] ++
  [0x27B70A8546D22FFC, 0x2E1B21385C26C926, 0x4D2C6DFC5AC42AED, 0x53380D139D95B3DF] ++
  [0x650A73548BAF63DE, 0x766A0ABB3C77B2A8, 0x81C2C92E47EDAEE6, 0x92722C851482353B] ++
  [0xA2BFE8A14CF10364, 0xA81A664BBC423001, 0xC24B8B70D0F89791, 0xC76C51A30654BE30] ++
  [0xD192E819D6EF5218, 0xD69906245565A910, 0xF40E35855771202A, 0x106AA07032BBD1B8] ++
  [0x19A4C116B8D2D0C8, 0x1E376C085141AB53, 0x2748774CDF8EEB99, 0x34B0BCB5E19B48A8] ++
  [0x391C0CB3C5C95A63, 0x4ED8AA4AE3418ACB, 0x5B9CCA4F7763E373, 0x682E6FF3D6B2B8A3] ++
  [0x748F82EE5DEFB2FC, 0x78A5636F43172F60, 0x84C87814A1F0AB72, 0x8CC702081A6439EC] ++
  [0x90BEFFFA23631E28, 0xA4506CEBDE82BDE9, 0xBEF9A3F7B2C67915, 0xC67178F2E372532B] ++
  [0xCA273ECEEA26619C, 0xD186B8C721C0C207, 0xEADA7DD6CDE0EB1E, 0xF57D4F7FEE6ED178] ++
  [0x06F067AA72176FBA, 0x0A637DC5A2C898A6, 0x113F9804BEF90DAE, 0x1B710B35131C471B] ++
  [0x28DB77F523047D84, 0x32CAAB7B40C72493, 0x3C9EBE0A15C9BEBC, 0x431D67C49C100D4C] ++
  [0x4CC5D4BECB3E42B6, 0x597F299CFC657E2A, 0x5FCB6FAB3AD6FAEC, 0x6C44198C4A475817]

/-- FIPS 180-4, 5.3.4: the initial hash value of SHA-384. -/
def shaInit : List (BitVec 64) :=
  [0xCBBB9D5DC1059ED8, 0x629A292A367CD507, 0x9159015A3070DD17, 0x152FECD8F70E5939] ++
  [0x67332667FFC00B31, 0x8EB44A8768581511, 0xDB0C2E0D64F98FA7, 0x47B5481DBEFA4FA4]

/-- FIPS 180-4, 5.1.2: a message padded to whole blocks of 128 bytes. -/
def shaPad (m : List Byte) : List Byte :=
  m ++ [0x80] ++ List.replicate ((239 - m.length % 128) % 128) 0 ++ beBytes 16 (8 * m.length)

/-- FIPS 180-4, 4.1.3: the four functions of one word, by two rotations and a third rotation or a shift. -/
def shaRot (a b c : Nat) (shift : Bool) (x : BitVec 64) : BitVec 64 :=
  x.rotateRight a ^^^ x.rotateRight b ^^^ (if shift then x >>> c else x.rotateRight c)

/-- FIPS 180-4, 6.4.2 step 1: the 80 words of a block's schedule, last first; `n` are still to come. -/
def shaSchedule : Nat → List (BitVec 64) → List (BitVec 64)
  | 0, w => w
  | n + 1, w =>
    shaSchedule n ((shaRot 19 61 6 true (nth 0 w 1) + nth 0 w 6 + shaRot 1 8 7 true (nth 0 w 14) + nth 0 w 15) :: w)

/-- FIPS 180-4, 6.4.2 step 3: one round, on the eight working words. -/
def shaRound (v : List (BitVec 64)) (kw : BitVec 64) : List (BitVec 64) :=
  let x (i : Nat) := nth 0 v i
  let t1 := x 7 + shaRot 14 18 41 false (x 4) + ((x 4 &&& x 5) ^^^ (~~~(x 4) &&& x 6)) + kw
  let t2 := shaRot 28 34 39 false (x 0) + ((x 0 &&& x 1) ^^^ (x 0 &&& x 2) ^^^ (x 1 &&& x 2))
  [t1 + t2, x 0, x 1, x 2, x 3 + t1, x 4, x 5, x 6]

/-- FIPS 180-4, 6.4.2: one block of 128 bytes taken into the hash value. -/
def shaBlock (h : List (BitVec 64)) (b : List Byte) : List (BitVec 64) :=
  let w := ((List.range 16).map (fun i => BitVec.ofNat 64 (beAt b (8 * i) 8))).reverse
  let v := (shaK.zip (shaSchedule 64 w).reverse).foldl (fun v kw => shaRound v (kw.1 + kw.2)) h
  (h.zip v).map (fun p => p.1 + p.2)

/-- R118: the SHA-384 hash of a message, as a number read big-endian. -/
def hashNat (m : List Byte) : Nat :=
  let p := shaPad m
  let r := (List.range (p.length / 128)).foldl (fun (a : List (BitVec 64) × List Byte) _ => (shaBlock a.1 (a.2.take 128), a.2.drop 128))
    (shaInit, p)
  (r.1.take 6).foldl (fun n w => n * 2 ^ 64 + w.toNat) 0

/-- R573: HMAC-SHA-384, for a key of at most 128 bytes. -/
def hmac384 (key m : List Byte) : Nat :=
  let pad (x : Byte) := (key ++ List.replicate (128 - key.length) 0).map (· ^^^ x)
  hashNat (pad 0x5C ++ beBytes 48 (hashNat (pad 0x36 ++ m)))

/-! ### brainpoolP384r1 (RFC 5639, 3.6) -/

/-- The field's prime. -/
def bpP : Nat := 0x8CB91E82A3386D280F5D6F7E50E641DF152F7109ED5456B412B1DA197FB71123ACD3A729901D1A71874700133107EC53
/-- The curve's coefficient A. -/
def bpA : Nat := 0x7BC382C63D8C150C3C72080ACE05AFA0C2BEA28E4FB22787139165EFBA91F90F8AA5814A503AD4EB04A8C7DD22CE2826
/-- The curve's coefficient B. -/
def bpB : Nat := 0x04A8C7DD22CE28268B39B55416F0447C2FB77DE107DCD2A62E880EA53EEB62D57CB4390295DBC9943AB78696FA504C11
/-- R573: the group order q. -/
def bpQ : Nat := 0x8CB91E82A3386D280F5D6F7E50E641DF152F7109ED5456B31F166E6CAC0425A7CF3AB6AF6B7FC3103B883202E9046565

/-- A point of the curve; `none` is the point at infinity. -/
abbrev CurvePt := Option (Nat × Nat)

/-- The base point G. -/
def bpG : CurvePt := some
  (0x1D1C64F068CF45FFA2A63A81B7C13F6B8847A3E77EF14FE3DB7FCAFE0CBD10E8E826E03436D646AAEF87B2E247D4AF1E,
   0x8ABE1D7520F9C2A45CB1EB8E95CFD55262B70B29FEEC5864E19C054FF99129280E4646217791811142820341263C5315)

/-- Whether coordinates are those of a point of the curve. -/
def onCurve (x y : Nat) : Bool := decide (x < bpP) && decide (y < bpP) && y * y % bpP == (x * x * x + bpA * x + bpB) % bpP

/-- A power modulo `m`, for an exponent below 2^384. -/
def modPow (b e m : Nat) : Nat :=
  ((List.range 384).foldl (fun (a : Nat × Nat) i => (if e.testBit i then a.1 * a.2 % m else a.1, a.2 * a.2 % m)) (1 % m, b % m)).1

/-- The inverse modulo a prime. -/
def modInv (a m : Nat) : Nat := modPow a (m - 2) m

/-- The difference modulo `m`. -/
def modSub (a b m : Nat) : Nat := (a % m + (m - b % m)) % m

/-- The sum of two points. -/
def ptAdd : CurvePt → CurvePt → CurvePt
  | none, q => q
  | p, none => p
  | some (x, y), some (u, v) =>
    if x = u ∧ (y + v) % bpP = 0 then none
    else
      let l := if x = u then (3 * x * x + bpA) * modInv (2 * y) bpP % bpP else modSub v y bpP * modInv (modSub u x bpP) bpP % bpP
      let z := modSub (l * l) (x + u) bpP
      some (z, modSub (l * modSub x z bpP) y bpP)

/-- A point in Jacobian coordinates (x, y, z): the point (x / z², y / z³), none where z is 0. They save an inversion per step. -/
abbrev JacPt := Nat × Nat × Nat

/-- A point in Jacobian coordinates. -/
def jacOf : CurvePt → JacPt
  | some (x, y) => (x, y, 1)
  | none => (1, 1, 0)

/-- The point of Jacobian coordinates. -/
def jacPt : JacPt → CurvePt
  | (x, y, z) =>
    if z = 0 then none
    else
      let i := modInv z bpP
      some (x * (i * i % bpP) % bpP, y * (i * i % bpP * i % bpP) % bpP)

/-- Twice a point. -/
def jacDouble : JacPt → JacPt
  | (x, y, z) =>
    if z = 0 ∨ y = 0 then (1, 1, 0)
    else
      let b := y * y % bpP
      let c := 4 * x * b % bpP
      let m := (3 * x * x + bpA * (z * z % bpP * (z * z % bpP) % bpP)) % bpP
      let u := modSub (m * m) (2 * c) bpP
      (u, modSub (m * modSub c u bpP) (8 * b * b) bpP, 2 * y * z % bpP)

/-- The sum of two points. -/
def jacAdd : JacPt → JacPt → JacPt
  | (x, y, z), (u, v, w) =>
    if z = 0 then (u, v, w)
    else if w = 0 then (x, y, z)
    else
      let zz := z * z % bpP
      let ww := w * w % bpP
      let a := x * ww % bpP
      let h := modSub (u * zz) a bpP
      let c := y * ww * w % bpP
      let r := modSub (v * zz * z) c bpP
      if h = 0 then (if r = 0 then jacDouble (x, y, z) else (1, 1, 0))
      else
        let hh := h * h % bpP
        let k := a * hh % bpP
        let q := modSub (r * r) (h * hh + 2 * k) bpP
        (q, modSub (r * modSub k q bpP) (c * hh * h) bpP, h * z * w % bpP)

/-- A multiple of a point, for a scalar below 2^384: the sum of its doubles at the scalar's bits. -/
def ptMul (k : Nat) (p : CurvePt) : CurvePt :=
  jacPt ((List.range 384).foldl (fun (a : JacPt × JacPt) i => (if k.testBit i then jacAdd a.1 a.2 else a.1, jacDouble a.2))
    ((1, 1, 0), jacOf p)).1

/-- A public key's 96 bytes: x then y, 48 bytes each, big-endian (R567, R574). -/
def keyBytes (p : CurvePt) : List Byte :=
  match p with
  | some (x, y) => beBytes 48 x ++ beBytes 48 y
  | none => List.replicate 96 0

/-- The point of a public key's bytes; `none` where they are no point of the curve. -/
def keyPt (key : List Byte) : CurvePt :=
  let x := beAt key 0 48
  let y := beAt key 48 48
  if key.length = 96 ∧ onCurve x y then some (x, y) else none

/-- R118, R567, R574, R579: whether a signature of 96 bytes, r then s, by a public key of 96 bytes verifies over a message. -/
def sigOk (key msg sig : List Byte) : Bool :=
  let r := beAt sig 0 48
  let t := beAt sig 48 48
  match keyPt key with
  | none => false
  | some p =>
    decide (sig.length = 96 ∧ 0 < r ∧ r < bpQ ∧ 0 < t ∧ t < bpQ) &&
      (let w := modInv t bpQ
       match ptAdd (ptMul (hashNat msg * w % bpQ) bpG) (ptMul (r * w % bpQ) (some p)) with
       | some (x, _) => x % bpQ == r
       | none => false)

/-- A scalar of 1 to q - 1 from a number (R573). -/
def scalarOf (n : Nat) : Nat := n % (bpQ - 1) + 1

/-- ECDSA: r and s of a hash by a private scalar, with a nonce scalar. -/
def ecdsaSign (d k e : Nat) : Nat × Nat :=
  let r := (match ptMul k bpG with | some (x, _) => x % bpQ | none => 0)
  (r, modInv k bpQ * (e + r * d) % bpQ)

/-- R118: a signature's 96 bytes over a message. -/
def signBytes (d k : Nat) (msg : List Byte) : List Byte :=
  let g := ecdsaSign d k (hashNat msg)
  beBytes 48 g.1 ++ beBytes 48 g.2

/-! ### DER (RFC 5280) -/

/-- Bytes of a DER value, from its first ones; 0 where it is none of up to 2^24 bytes. -/
def derLength (b : List Byte) : Nat :=
  let l := leAt b 1 1
  if l < 128 then 2 + l else if l = 0x81 then 3 + leAt b 2 1 else if l = 0x82 then 4 + beAt b 2 2
  else if l = 0x83 then 5 + beAt b 2 3 else 0

/-- The content of a DER value. -/
def derBody (b : List Byte) : List Byte :=
  (b.take (derLength b)).drop (if leAt b 1 1 < 128 then 2 else 2 + leAt b 1 1 % 128)

/-- The DER values that stand one after another, `n` at most. -/
def derItems : Nat → List Byte → List (List Byte)
  | 0, _ => []
  | n + 1, b => if b.isEmpty ∨ derLength b = 0 then [] else b.take (derLength b) :: derItems n (b.drop (derLength b))

/-- The `n`th of the DER values that stand one after another. -/
def derNth (n : Nat) (b : List Byte) : List Byte := nth [] (derItems (n + 1) b) n

/-- A DER value with a tag. -/
def der (tag : Byte) (body : List Byte) : List Byte :=
  let n := body.length
  [tag] ++ (if n < 128 then leBytes 1 n else if n < 256 then [0x81] ++ leBytes 1 n else [0x82] ++ beBytes 2 n) ++ body

/-- The big-endian bytes of a number without leading zeros; zero is one byte. -/
def minBytes (n : Nat) : List Byte :=
  let b := (beBytes 48 n).dropWhile (fun x => x == 0)
  if b.isEmpty then [0] else b

/-- A DER INTEGER that is not negative, below 2^384. -/
def derInt (n : Nat) : List Byte :=
  let b := minBytes n
  der 0x02 (if bitOf (leAt b 0 1) 7 then [0] ++ b else b)

/-- The ASCII bytes of a text. -/
def ascii (s : String) : List Byte := s.toList.map (fun c => BitVec.ofNat 8 c.toNat)

/-- An attribute of a name: the last byte of its identifier 2.5.4.x, its text and the text's tag. -/
def derAttr (x tag : Byte) (text : List Byte) : List Byte :=
  der 0x31 (der 0x30 (der 0x06 [0x55, 0x04, x] ++ der tag text))

/-- The parts of a certificate, by their place behind the version: 1 the algorithm, 2 the issuer,
3 the validity, 4 the subject. -/
def certPart (cert : List Byte) (n : Nat) : List Byte :=
  let tbs := derBody (derBody cert)
  derNth (n + (if leAt tbs 0 1 = 0xA0 then 1 else 0)) tbs

/-- The serialNumber attribute of a certificate's subject. -/
def certSerial (cert : List Byte) : List Byte :=
  ((derItems 16 (derBody (certPart cert 4))).find? (fun e => derNth 0 (derBody (derBody e)) == der 0x06 [0x55, 0x04, 5])).getD []

/-- R572: the subject of the alias certificate, its attributes in the table's order; the string type is open (log 9). -/
def aliasName (device : List Byte) (svn : Nat) : List Byte :=
  let tag : Byte := if Config.certUtf8 then 0x0C else 0x13
  der 0x30 (derAttr 3 tag (ascii "Skolys FS2048 alias") ++ certSerial device ++ derAttr 11 tag (ascii ("SVN " ++ toString svn)))

/-- The algorithm ecdsa-with-SHA384. -/
def derEcdsa : List Byte := der 0x30 (der 0x06 [0x2A, 0x86, 0x48, 0xCE, 0x3D, 0x04, 0x03, 0x03])

/-- The key information of a public key on brainpoolP384r1 (id-ecPublicKey). -/
def derKey (key : List Byte) : List Byte :=
  der 0x30 (der 0x30 (der 0x06 [0x2A, 0x86, 0x48, 0xCE, 0x3D, 0x02, 0x01] ++
    der 0x06 [0x2B, 0x24, 0x03, 0x03, 0x02, 0x08, 0x01, 0x01, 0x0B]) ++ der 0x03 ([0x00, 0x04] ++ key))

/-- An extension 2.5.29.x. -/
def derExt (x : Byte) (critical : Bool) (body : List Byte) : List Byte :=
  der 0x30 (der 0x06 [0x55, 0x1D, x] ++ (if critical then der 0x01 [0xFF] else []) ++ der 0x04 body)

/-- RFC 5280, 4.2.1.1: the subject key identifier that a certificate carries. -/
def certKeyId (cert : List Byte) : List Byte :=
  let exts := derItems 32 (derBody (derBody (nth [] (derItems 16 (derBody (derBody cert))).reverse 0)))
  match exts.find? (fun e => derNth 0 (derBody e) == der 0x06 [0x55, 0x1D, 14]) with
  | some e => derBody (derBody (nth [] (derItems 3 (derBody e)).reverse 0))
  | none => []

/-- R572: what the alias certificate signs: the device certificate, the firmware's SVN, the alias public key. Issuer,
validity and serialNumber are the device certificate's own. -/
def aliasTbs (device : List Byte) (svn : Nat) (key : List Byte) : List Byte :=
  der 0x30 (der 0xA0 (derInt 2) ++ derInt (hashNat key / 2 ^ 256 % 2 ^ 127) ++ derEcdsa ++ certPart device 4 ++
    certPart device 3 ++ aliasName device svn ++ derKey key ++
    der 0xA3 (der 0x30 (derExt 19 true (der 0x30 []) ++ derExt 15 true (der 0x03 [0x07, 0x80]) ++
      derExt 14 false (der 0x04 (Config.keyId key)) ++ derExt 35 false (der 0x30 (der 0x80 (certKeyId device))))))

/-- R572: the alias certificate, signed by the identity key with a nonce. -/
def aliasCertificate (identity nonce : Nat) (device : List Byte) (svn : Nat) (key : List Byte) : List Byte :=
  let tbs := aliasTbs device svn key
  let g := ecdsaSign identity nonce (hashNat tbs)
  der 0x30 (tbs ++ derEcdsa ++ der 0x03 ([0x00] ++ der 0x30 (derInt g.1 ++ derInt g.2)))

/-- R573: the private scalar of the alias key: the device secret, the firmware measurement, its SVN. -/
def aliasScalar (secret measure svn : Nat) : Nat := scalarOf (hmac384 (beBytes 48 secret) (beBytes 48 measure ++ leBytes 4 svn))

end Sys2Proof.Machine
end

