-- ==== Sys2Proof/Machine/Packet.lean ====
section
/-! DEFINITION. The fabric packet (R286 to R292): its fields, its bytes on the wire, its header check and trailer, and the
checks of R293 that need no state. -/
namespace Sys2Proof.Machine

/-- A fabric packet (R287). VC is 0 adaptive, 1 and 2 escape; `trailer` is the trailer as carried. -/
structure Pkt where
  dst : Nat
  src : Nat
  cls : Nat
  vc : Nat
  flags : Nat
  seq : Nat
  hops : Nat
  syn : Bool
  comm : Nat
  chunk : Nat
  opseq : Nat
  kind : Nat
  tile : Nat
  pktIdx : Nat
  msgLast : Nat
  arg : Nat
  payload : List Byte
  trailer : Nat
  deriving DecidableEq, Repr

/-- One byte of a CRC-8 with polynomial 0x07 (R292, R385): eight shifts. -/
def crc8Shift : Nat → Nat → Nat
  | 0, c => c
  | k + 1, c => crc8Shift k (if c ≥ 128 then ((2 * c) % 256) ^^^ 0x07 else 2 * c)

/-- CRC-8 with polynomial 0x07, initial value zero, no reflection (R292, R385). -/
def crc8 (bs : List Byte) : Nat := bs.foldl (fun c b => crc8Shift 8 (c ^^^ b.toNat)) 0

/-- Eight shifts of the reflected CRC-32C. -/
def crc32cShift : Nat → Nat → Nat
  | 0, c => c
  | k + 1, c => crc32cShift k (if c % 2 = 1 then (c / 2) ^^^ 0x82F63B78 else c / 2)

/-- CRC-32C (R292). -/
def crc32c (bs : List Byte) : Nat :=
  (bs.foldl (fun c b => crc32cShift 8 (c ^^^ b.toNat)) 0xFFFFFFFF) ^^^ 0xFFFFFFFF

/-- OPTAG (R287). -/
def Pkt.optag (p : Pkt) : Nat :=
  p.kind + p.tile * 2 ^ 6 + p.pktIdx * 2 ^ 10 + p.msgLast * 2 ^ 22 + p.arg * 2 ^ 34

/-- The 32 header bytes with a given VC, HOPS[4:0] and HCRC (R287). -/
def Pkt.headerWith (p : Pkt) (vc hops hcrc : Nat) : List Byte :=
  leBytes 2 p.dst ++ leBytes 2 p.src ++ leBytes 1 (p.cls + 8 * vc) ++ leBytes 1 p.flags ++
  leBytes 2 p.payload.length ++ leBytes 2 p.seq ++ leBytes 1 (hops + 32 * b2n p.syn) ++ leBytes 1 hcrc ++
  leBytes 4 p.comm ++ leBytes 4 p.chunk ++ leBytes 4 p.opseq ++ leBytes 8 p.optag

/-- HCRC (R292): VC, HOPS[4:0] and the HCRC byte count as zero. -/
def Pkt.hcrc (p : Pkt) : Nat := crc8 (p.headerWith 0 0 0)

/-- The trailer that R292 asks for. -/
def Pkt.goodTrailer (p : Pkt) : Nat := crc32c (p.headerWith 0 0 p.hcrc ++ p.payload)

/-- The bytes of a packet on the wire (R286). -/
def Pkt.encode (p : Pkt) : List Byte := p.headerWith p.vc p.hops p.hcrc ++ p.payload ++ leBytes 4 p.trailer

/-- A packet with its trailer computed. -/
def Pkt.seal (p : Pkt) : Pkt := { p with trailer := p.goodTrailer }

/-- Wire bytes (R286). -/
def Pkt.wire (p : Pkt) : Nat := 36 + p.payload.length

/-- Cells of 256 bytes (R339). -/
def Pkt.cells (p : Pkt) : Nat := ceilDiv p.wire 256

/-- FLAGS bits (R287). -/
def Pkt.ordered (p : Pkt) : Bool := bitOf p.flags 1
/-- POISON (R287). -/
def Pkt.poison (p : Pkt) : Bool := bitOf p.flags 3
/-- AFLAGS (R287). -/
def Pkt.aflags (p : Pkt) : Nat := fieldOf p.flags 4 4
/-- ADDR: CHUNK and OPSEQ together (R289). -/
def Pkt.addr (p : Pkt) : Nat := p.chunk + p.opseq * 2 ^ 32

/-- Kinds (R289). -/
def kPUT : Nat := 0x01
/-- R289. -/
def kGETREQ : Nat := 0x02
/-- R289. -/
def kGETDATA : Nat := 0x03
/-- R289. -/
def kACK : Nat := 0x04
/-- R289. -/
def kNACK : Nat := 0x05
/-- R289. -/
def kCONTRIB : Nat := 0x08
/-- R289. -/
def kPARTIAL : Nat := 0x09
/-- R289. -/
def kRESULT : Nat := 0x0A
/-- R289. -/
def kCREDIT : Nat := 0x0B
/-- R289. -/
def kNOTICE : Nat := 0x0C
/-- R289. -/
def kDIGEST : Nat := 0x0D
/-- R289. -/
def kTOKEN : Nat := 0x10
/-- R289. -/
def kCOUNT : Nat := 0x11
/-- R289. -/
def kANSWER : Nat := 0x12
/-- R289. -/
def kCOMBINED : Nat := 0x13
/-- R289. -/
def kMGTREQ : Nat := 0x18
/-- R289. -/
def kMGTRSP : Nat := 0x19
/-- R289. -/
def kDISCOVER : Nat := 0x1A
/-- R289. -/
def kTIME : Nat := 0x1B
/-- R289. -/
def kSERVE : Nat := 0x20

/-- R289: the classes that carry a kind; none for a reserved kind. -/
def kindClasses (k : Nat) : List Nat :=
  match k with
  | 0x01 | 0x02 => [0]
  | 0x03 => [1]
  | 0x04 | 0x05 => [1, 3, 5]
  | 0x08 | 0x09 => [2]
  | 0x0A | 0x0C => [3]
  | 0x0B => [3, 5]
  | 0x0D | 0x18 | 0x19 | 0x1A | 0x1B => [6]
  | 0x10 | 0x11 => [4]
  | 0x12 | 0x13 => [5]
  | 0x20 => [7]
  | _ => []

/-- R289: whether a kind is ordered. -/
def kindOrdered (k : Nat) : Bool :=
  (decide (1 ≤ k) && decide (k ≤ 3)) || (decide (8 ≤ k) && decide (k ≤ 0x0C)) || (decide (0x10 ≤ k) && decide (k ≤ 0x13))

/-- R289, R486, R533: the bits that CHUNK, OPSEQ and ARG of a kind may hold; the others are zero fields. A TOKEN from a source,
one that goes to this switch's own endpoints, has no ARG at all (`Pkt.formOk`). -/
def kindBits (k : Nat) : Nat × Nat × Nat :=
  let all := 2 ^ 32 - 1
  match k with
  | 0x01 | 0x02 | 0x03 => (all, all, 0)
  | 0x04 => (0, 0, 7)
  | 0x05 => (0, 0, 0x3F)
  | 0x08 => (all, all, 0)
  | 0x09 | 0x0A => (all, all, 0xF)
  | 0x0B => (0, 0, 0x7FFFF)
  | 0x0C => (0, all, 0)
  | 0x10 => (all, all, 0x7FFFFFF)
  | 0x11 => (0, all, 0xFF0000)
  | 0x12 => (0, all, 0xFFFFFF)
  | 0x13 => (all, all, 0)
  | 0x18 => (all, 0x3FFFFF, 0x1FFFFF)
  | 0x19 => (all, 0x3FFFFF, 0x1FFFFFFF)
  | 0x1B => (all, 0, 0)
  | _ => (0, 0, 0)

/-- The fields that a packet's bytes spell. -/
def Pkt.ofBytes (bs : List Byte) : Pkt :=
  let t := leAt bs 24 8
  { dst := leAt bs 0 2, src := leAt bs 2 2, cls := fieldOf (leAt bs 4 1) 0 3, vc := fieldOf (leAt bs 4 1) 3 2,
    flags := leAt bs 5 1, seq := leAt bs 8 2, hops := fieldOf (leAt bs 10 1) 0 5, syn := bitOf (leAt bs 10 1) 5,
    comm := fieldOf (leAt bs 12 4) 0 20, chunk := leAt bs 16 4, opseq := leAt bs 20 4,
    kind := fieldOf t 0 6, tile := fieldOf t 6 4, pktIdx := fieldOf t 10 12, msgLast := fieldOf t 22 12,
    arg := fieldOf t 34 30, payload := (bs.drop 32).take (fieldOf (leAt bs 6 2) 0 14),
    trailer := leAt bs (32 + fieldOf (leAt bs 6 2) 0 14) 4 }

/-- The header bytes with VC, HOPS[4:0] and the HCRC byte taken as zero (R292). -/
def maskHeader (bs : List Byte) : List Byte :=
  (bs.take 4) ++ leBytes 1 (clearLow (leAt bs 4 1)) ++ (bs.drop 5).take 5 ++
  leBytes 1 (leAt bs 10 1 / 32 * 32) ++ [0] ++ (bs.drop 12).take 20
where
  /-- CV with its VC bits taken as zero. -/
  clearLow (n : Nat) : Nat := setFieldOf n 3 2 0

/-- Whether an endpoint index is that of the burin cores or the plates of a die (R30, R290). -/
def endpointHasTile (dst : Nat) : Bool := decide (32 ≤ dst % 64) && decide ((dst % 64 - 32) % 8 < 2)

/-- R289 to R290, R293: whether a packet's fields are those of its kind. -/
def Pkt.formOk (p : Pkt) : Bool :=
  let b := kindBits p.kind
  let only (n m : Nat) : Bool := n &&& m == n
  (kindClasses p.kind).contains p.cls && p.ordered == kindOrdered p.kind && decide (p.vc < 3) &&
  (p.aflags == 0 || p.kind == kRESULT) && decide (p.payload.length ≤ 8192) &&
  only p.chunk b.1 && only p.opseq b.2.1 && only p.arg b.2.2 && (p.tile == 0 || endpointHasTile p.dst) &&
  !(p.kind == kTOKEN && decide (32 ≤ p.dst % 64) && p.arg != 0)

/-- What the checks of R293 that need no state make of a packet's bytes. -/
inductive Parsed where
  | hdrCheck
  | bad
  | ok (p : Pkt)
  deriving DecidableEq, Repr

/-- R293: HCRC first, then the form of the packet. -/
def Pkt.parse (bs : List Byte) : Parsed :=
  if bs.length < 36 then .bad
  else if crc8 (maskHeader bs) ≠ leAt bs 11 1 then .hdrCheck
  else
    let p := Pkt.ofBytes bs
    if fieldOf (leAt bs 4 1) 5 3 = 0 ∧ fieldOf (leAt bs 6 2) 14 2 = 0 ∧ fieldOf (leAt bs 10 1) 6 2 = 0 ∧
        leAt bs 12 4 < 2 ^ 20 ∧ bs.length = 36 + fieldOf (leAt bs 6 2) 0 14 ∧ p.formOk then .ok p
    else .bad

/-- R301: the trailer agrees with the packet. -/
def Pkt.trailerOk (p : Pkt) : Bool := p.trailer == p.goodTrailer

/-- A packet of a kind with everything else zero; its class and ORDERED follow the kind (R289). -/
def Pkt.make (kind cls dst src : Nat) : Pkt :=
  ⟨dst, src, cls, 0, if kindOrdered kind then 2 else 0, 0, 0, false, 0, 0, 0, kind, 0, 0, 0, 0, [], 0⟩

/-- R300: the class in which ACK and NACK of a class travel. -/
def ackClass (cls : Nat) : Nat := if cls ≤ 1 then 1 else if cls ≤ 3 then 3 else 5

/-- R291: a payload cut into packets of at most 8,192 bytes; one empty packet for no bytes. -/
def cutMessage (bs : List Byte) : List (List Byte) :=
  let n := max 1 (ceilDiv bs.length 8192)
  (List.range n).map (fun i => (bs.drop (8192 * i)).take 8192)

/-- R291: the packets of one message; `addr` adds the byte offset of each packet to ADDR. -/
def messagePkts (base : Pkt) (addressed : Bool) (bs : List Byte) : List Pkt :=
  let cs := cutMessage bs
  let n := cs.length
  (cs.zip (List.range n)).map (fun c =>
    let a := (base.addr + 8192 * c.2) % 2 ^ 64
    { base with
      chunk := if addressed then a % 2 ^ 32 else base.chunk,
      opseq := if addressed then a / 2 ^ 32 else base.opseq,
      pktIdx := c.2, msgLast := n - 1, payload := c.1,
      flags := if c.2 + 1 = n then base.flags ||| 1 else base.flags })

end Sys2Proof.Machine
end

