-- ==== Sys2Proof/Machine/TypesFabric.lean ====
section
/-! DEFINITION. Working state of the fabric side: streams and contexts (chapter 07), the switch-core and traffic-manager
slices (chapter 08), links and uplinks (chapter 09). -/
namespace Sys2Proof.Machine

/-- What an acknowledgement of a packet releases: kind 0 nothing; 1 a PUT or GET, by number and byte offset; 2 a
chunk copy of a collective on its way to a member or another switch; 3 a member notice; 4 a token copy; 5 a count word;
6 a combined result; 7 a partial; 8 a credit; 9 the data of a GET_REQ served here. `a` is the communicator, `b` the sequence
number, `c` what the kind needs. -/
structure Own where
  kind : Nat
  a : Nat
  b : Nat
  c : Nat
  deriving DecidableEq, Repr

/-- What names a stream (R294). -/
structure StreamKey where
  src : Nat
  dst : Nat
  cls : Nat
  comm : Nat
  deriving DecidableEq, Repr

/-- The stream of a packet. -/
def Pkt.key (p : Pkt) : StreamKey := ⟨p.src, p.dst, p.cls, p.comm⟩

/-- A packet in an output queue, on its way to one or held (R346, R349): output port; the port and channel on which it came;
whether the resequencer has let it pass; cells, how many of them from the shared pool; whether it lies in the escape reserve;
its colour, when it was first held, and the gateway entry it leaves by (R419); whether R346 has refused it before (R368), and
whether it has been counted as waiting for link credit (R415). -/
structure QPkt where
  pkt : Pkt
  port : Nat
  inPort : Nat
  inVc : Nat
  seqd : Bool
  cells : Nat
  shared : Nat
  esc : Bool
  colour : Nat
  heldAt : Option Nat
  at_ : Nat
  gw : Nat
  again : Bool
  waited : Bool
  deriving DecidableEq, Repr

/-- How a packet comes into the switch beside its port (R353, R361, R406): its colour, the copy list of an internal source
that it belongs to, and the Ethernet port and priority of its frame. -/
structure Ingress where
  colour : Nat
  list : Option (Nat × Nat × Nat)
  eth : Option (Nat × Nat)
  deriving DecidableEq, Repr

/-- A green packet of no copy list and no frame. -/
def Ingress.plain : Ingress := ⟨0, none, none⟩

/-- A packet waiting in a receive buffer or at an internal source (R319, R347, R353); `refused` once R346 has refused it. -/
structure WaitPkt where
  pkt : Pkt
  how : Ingress
  refused : Bool
  deriving DecidableEq, Repr

/-- A packet held ahead of order, with its colour and the port it came on, and whether R346 has refused it since (R350, R362,
R368). -/
structure HeldPkt where
  pkt : Pkt
  colour : Nat
  inPort : Nat
  again : Bool
  deriving DecidableEq, Repr

/-- A resequencing context (R296 to R300): the next expected number, packets held ahead of order, the message in progress,
the highest number performed (of an accelerator: acknowledged by it), packets performed and not acknowledged, whether its
state read as uncorrectable, when the last packet arrived. -/
structure Ctx where
  key : StreamKey
  e : Nat
  held : List HeldPkt
  msg : Option (Nat × Nat)
  done : Option Nat
  unacked : Nat
  poisoned : Bool
  last : Nat
  deriving DecidableEq, Repr

/-- A tile's switch-core and traffic-manager slice (R339 to R367). `queues` lists queues that hold packets, `filling` those
whose state is on its way from HBM, `lru` the resident empty queues, latest first; `beAvg` is in units of 2^-32 cells;
`leaked` counts cells that no packet refers to and that are not on the free list, `auditAt` is when the last audit pass
ended. -/
structure TmTile where
  queues : Tbl (List QPkt)
  filling : Tbl (List QPkt)
  lru : List Nat
  hold : List QPkt
  occ : Tbl Nat
  escOcc : Tbl Nat
  shared : Nat
  reorder : Nat
  beAvg : Nat
  leaked : Nat
  auditAt : Nat
  ctxs : List Ctx
  deriving DecidableEq, Repr

/-- A slice as reset leaves it. -/
def TmTile.fresh : TmTile := ⟨[], [], [], [], [], [], 0, 0, 0, 0, 0, []⟩

/-- Scheduling state of a port (R357, R358): virtual times, tags, and tokens with the time they were last filled, in units
of 1/800 byte. -/
structure SchedSt where
  v : Tbl Nat
  f : Tbl Nat
  tok : Tbl (Int × Nat)
  deriving DecidableEq, Repr

/-- A scheduler never used. -/
def SchedSt.fresh : SchedSt := ⟨[], [], []⟩

/-- A policer's buckets in units of 1/800 byte, and the time of the last refill (R361). -/
structure PolSt where
  tc : Nat
  te : Nat
  last : Nat
  deriving DecidableEq, Repr

/-- A packet retained by its source (R299). -/
structure Retained where
  pkt : Pkt
  own : Own
  sentAt : Nat
  deriving DecidableEq, Repr

/-- A stream at its source (R294, R295, R303): `synOut` while its first packet is not acknowledged, `waiting` the packets
not yet numbered. -/
structure SrcStream where
  die : Nat
  key : StreamKey
  next : Nat
  start : Bool
  synOut : Bool
  retained : List Retained
  waiting : List (Pkt × Own)
  expiries : Nat
  deriving DecidableEq, Repr

/-- A PUT or GET in progress (R184, R185). `left` counts packets not acknowledged (PUT) or bytes not written (GET); `idle`
counts re-send times that a GET has waited without data (R304). -/
structure Xfer where
  id : Nat
  tile : Nat
  entry : Nat
  get : Bool
  dst : Nat
  comm : Nat
  remote : Nat
  local_ : Nat
  len : Nat
  left : Nat
  bad : Bool
  idle : Nat
  deriving DecidableEq, Repr

/-- What a port frame carries, for its retention (R394): a packet, or a control flit. -/
inductive LinkItem where
  | pkt (p : Pkt)
  | flit (bytes : List Byte)
  deriving DecidableEq, Repr

/-- A port's link layer (R386 to R396, R402). Credits are listed by VC. `txBase` is the time at which frame `txStart`
starts; `sent` what the frames carried that the neighbour has not acknowledged, by frame number, the 12 latest frames at
most; `txWidths` and `rxWidths` the width changes announced and not yet in use: frame and mask, oldest first; `mgmt` the
management packets that wait for credit; `lpIdle` the lane groups agreed to be in a low state; `since` when training last
ended; `tests` the port lanes that a self-test has taken, with its pattern, until they rejoin (R400); `opening` while the port
owes the DISCOVER that reports OPEN, before which no data leaves (R325). -/
structure LinkPort where
  txS : Tbl Nat
  txC : Tbl Nat
  txRes : Tbl Nat
  rxC : Tbl Nat
  rxChanged : Bool
  txBase : Nat
  txStart : Nat
  acked : Nat
  sent : List (Nat × LinkItem)
  mgmt : List Pkt
  rxNext : Nat
  rxRetry : Bool
  rxCause : Nat
  rxPart : List Byte
  txMask : Nat
  txWidths : List (Nat × Nat)
  rxMask : Nat
  rxWidths : List (Nat × Nat)
  lastReplay : Option (Nat × Nat)
  replayUntil : Nat
  lpReq : Nat
  lpIdle : Nat
  since : Nat
  tests : List (Nat × Nat)
  opening : Bool
  deriving DecidableEq, Repr

/-- A link never trained. -/
def LinkPort.fresh : LinkPort :=
  ⟨[], [], [], [], false, 0, 0, 0, [], [], 0, false, 0, [], 0, [], 0, [], none, 0, 0, 0, 0, [], false⟩

/-- An Ethernet port: priorities stopped by a received PFC frame, priorities for which XOFF was sent (R406). -/
structure EthPort where
  paused : Nat
  xoff : Nat
  deriving DecidableEq, Repr

/-- What a port's neighbour last reported in DISCOVER (R321). -/
structure Nbr where
  coord : Nat
  port : Nat
  level : Nat
  phase : Nat
  serial : Nat
  zPresent : Nat
  leader : Nat
  deriving DecidableEq, Repr

/-- The fabric side of the device. `rxWait` lists what waits in the receive buffers of ports 0 to 25 and at the internal
sources of dies, 26 to 29; `zAbsent` marks Z positions found absent. -/
structure FabricSt where
  tm : Tbl TmTile
  rxWait : Tbl (List WaitPkt)
  streams : List SrcStream
  xfers : List Xfer
  nextXfer : Nat
  link : Tbl LinkPort
  eth : Tbl EthPort
  nbr : Tbl Nbr
  zAbsent : Nat
  zFormed : Bool
  sched : Tbl SchedSt
  pol : Tbl PolSt
  sampler : Tbl (Nat × Nat)
  tableLoad : Option Nat
  qfetch : List (Nat × Nat)
  deriving DecidableEq, Repr

/-- The fabric side as reset leaves it. -/
def FabricSt.fresh : FabricSt := ⟨[], [], [], [], 0, [], [], [], 0, false, [], [], [], none, []⟩

end Sys2Proof.Machine
end

