-- ==== Sys2Proof/Machine/TypesColl.lean ====
section
/-! DEFINITION. Working state of communicators, collectives, routed dispatch and combine, gate slots and pauses
(chapters 05 and 06, R540 to R548). -/
namespace Sys2Proof.Machine

/-- A level entry of a communicator descriptor (R196). -/
structure Level where
  size : Nat
  pos : Nat
  ids : List Nat
  deriving DecidableEq, Repr

/-- A member entry of a communicator descriptor (R196); endpoint 0xFF is the local member. -/
structure Member where
  rank : Nat
  ep : Nat
  base : Nat
  deriving DecidableEq, Repr

/-- A communicator descriptor (R196); `members` holds the entries in use, `levels` Z, X and Y. -/
structure Desc where
  id : Nat
  level : Nat
  wire : Nat
  express : Bool
  chunk : Nat
  window : Nat
  nranks : Nat
  slot : Nat
  seed : Nat
  record : Nat
  quota : Nat
  plate : Nat
  members : List Member
  levels : List Level
  deriving DecidableEq, Repr

/-- A whole message in staging (R199 to R209): its kind, the level and direction of a partial or result, and who sent it:
a member entry, or a position in the level's group; whether it lies in the plate part of the quota (R204). -/
structure Staged where
  seq : Nat
  chunk : Nat
  kind : Nat
  level : Nat
  dir : Nat
  who : Nat
  src : Nat
  data : List Byte
  bad : Bool
  agree : Bool
  flags : Nat
  plate : Bool
  deriving DecidableEq, Repr

/-- What this switch has formed of a chunk generation: the value after the steps up to a level (0 the switch level), in
accumulator form, or the bytes of a moving operation. No values and no bytes stand for an absent partial. -/
structure Part where
  gen : Nat
  level : Nat
  vals : List Val
  data : List Byte
  bad : Bool
  flags : Nat
  deriving DecidableEq, Repr

/-- A message that waits for ring credit or for the end of a pause (R206, R542). Path 0 is up, 1 down; level 0 needs no
credit. -/
structure Outgo where
  level : Nat
  dir : Nat
  path : Nat
  base : Pkt
  data : List Byte
  own : Own
  deriving DecidableEq, Repr

/-- What a collective has done for a local member (R219, R221, R233). `notice` is 1 while the notice is out, 2 once it is
acknowledged or given up. -/
structure MemSt where
  bad : Nat
  first : Nat
  last : Nat
  dropped : Nat
  padded : Nat
  notice : Nat
  deriving DecidableEq, Repr

/-- A member that has received nothing yet. -/
def MemSt.fresh : MemSt := ⟨0, 0xFFFFFFFF, 0xFFFFFFFF, 0, 0, 0⟩

/-- A token of a DISP as it arrived (R242), and whether it lies in the plate part of the quota (R204). -/
structure Tok where
  data : List Byte
  absent : Bool
  bad : Bool
  plate : Bool
  deriving DecidableEq, Repr

/-- One choice of a token (R264): expert, STATE, slot and gate value. -/
structure Choice where
  expert : Nat
  state : Nat
  slot : Nat
  gate : Nat
  deriving DecidableEq, Repr

/-- A DISP at work (R249 to R267). `valid` once its descriptor is; `waits` while its slot is PAGING; `arrived` counts the
tokens that each member has sent; `gated` lists tokens whose selections are known and not yet decided, `route` the decided
ones, `owed` the packets not yet acknowledged of each copy, by 8 × token + choice, `words` the experts whose count word has
been sent, `wordsOut` those not yet acknowledged. -/
structure DispSt where
  slot : Option Nat
  paged : Bool
  valid : Bool
  waits : Bool
  holds : Bool
  arrived : Tbl Nat
  tokens : Tbl Tok
  started : List Nat
  gated : Tbl (List Choice)
  route : Tbl (List Choice)
  placed : Tbl Nat
  selected : Tbl Nat
  drops : List (Nat × Nat × Nat)
  owed : Tbl Nat
  lost : List Nat
  words : List Nat
  wordsOut : List Nat
  deriving DecidableEq, Repr

/-- A DISP that has not begun. -/
def DispSt.fresh : DispSt := ⟨none, false, false, false, false, [], [], [], [], [], [], [], [], [], [], [], []⟩

/-- A COMB at work (R268 to R275): the route region's tokens, results ready by token index, the next position of each
source, packets not yet acknowledged of each result, by 2^17 × source + position. -/
structure CombSt where
  disp : Nat
  began : Bool
  route : Tbl (List Choice)
  ready : Tbl (Option (List Byte))
  nextPos : Tbl Nat
  owed : Tbl Nat
  answers : Nat
  late : Nat
  stray : Nat
  deriving DecidableEq, Repr

/-- A COMB that has not begun. -/
def CombSt.fresh (disp : Nat) : CombSt := ⟨disp, false, [], [], [], [], 0, 0, 0⟩

/-- An answer area of a DISP (R266): its size, the DISP's descriptor, the slots placed of each expert, the DISP's status once
it has ended, the answers by 2^16 × expert + slot with whether they came poisoned, and the STRAY ones. -/
structure Area where
  seq : Nat
  bytes : Nat
  desc : List Byte
  placed : Tbl Nat
  status : Nat
  ended : Bool
  got : Tbl (List Byte × Bool)
  stray : Nat
  deriving DecidableEq, Repr

/-- An accepted collective, DISP or COMB (R207 to R234). `fin` is the status it ends with once known, `stage` 1 while
its notices are out. `ended` lists contributions that ended early, by member, block and first chunk not sent; `held` the
contributions received, by 16 × chunk + member; `blocks` the elements placed of A2AV blocks by 16 × block + member, with
2^31 once some were dropped and 2^32 once the block is whole; `poisonIn` once an input came poisoned, `good` once a chunk could
be produced (R230); `flight` the result messages not yet acknowledged, by member, generation and packets left; `spoiled` the
copies for switches that went again as errors (R232); `land`, `used` (16 × rank + member) and `y` belong to AGMM. -/
structure Coll where
  seq : Nat
  op : Nat
  fmt : Fmt
  red : Nat
  rm : Nat
  count : Nat
  root : Nat
  home : Nat
  entry : Nat
  sb : Nat
  sc : Nat
  sf : Nat
  start : Nat
  gens : Nat
  dbytes : List Byte
  fin : Option Nat
  poisonIn : Bool
  good : Bool
  stage : Nat
  staged : List Staged
  ended : List (Nat × Nat × Nat)
  held : List Nat
  blocks : Tbl Nat
  parts : List Part
  upDone : List Nat
  seen : List Nat
  badGens : List Nat
  flight : List (Nat × Nat × Nat)
  acked : List Nat
  spoiled : List Nat
  mems : List MemSt
  flags : Nat
  land : Tbl (List Byte)
  used : List Nat
  y : Tbl (List Val)
  disp : Option DispSt
  comb : Option CombSt
  resumed : Bool
  wasDone : Bool
  deriving DecidableEq, Repr

/-- A pause in progress (R541, R542). -/
structure PauseSt where
  at_ : Nat
  quiet : Nat
  area : Nat
  held : Bool
  savedAt : Option Nat
  deriving DecidableEq, Repr

/-- A communicator on this switch (R191). `cred` counts the ring credits this switch holds as a sender, by
8 × level + 2 × direction + path; `memCred` those that its members hold; `saved` is what a RESUME loaded, with
the messages that were still to leave, `barred` the paused numbers that wait for it, `past` the last eight numbers in a row that
completed and that a pause would record as DONE (R542, R543); `failed` lists the DISPs that released their
answer area at once (R266, R269). -/
structure Comm where
  desc : Desc
  st : Nat
  determ : Bool
  next : Nat
  arming : Bool
  digests : Tbl (List Byte)
  cred : Tbl Nat
  memCred : Tbl Nat
  asm : List (StreamKey × Staged)
  early : List Staged
  ops : List Coll
  outs : List Outgo
  areas : List Area
  uncredited : Nat
  pause : Option PauseSt
  saved : List (Coll × List Outgo)
  barred : List Nat
  past : List Coll
  failed : List Nat
  deriving DecidableEq, Repr

/-- A gate slot's working state beside its registers (R245 to R249): the library entry's address, its header, when it was
last released. -/
structure GateSt where
  src : Nat
  hdr : List Byte
  released : Nat
  deriving DecidableEq, Repr

/-- Communicators, gate slots and the commands in progress on them; `pausing` is the operation of GLB_PAUSE_CMD, its communicator
and the address that GLB_PAUSE_ARG held at GO. -/
structure CollSt where
  comms : Tbl Comm
  gates : Tbl GateSt
  creating : Option Nat
  loading : Option Nat
  pausing : Option (Nat × Nat × Nat)
  deriving DecidableEq, Repr

/-- Nothing created. -/
def CollSt.fresh : CollSt := ⟨[], [], none, none, none⟩

end Sys2Proof.Machine
end

