-- ==== Sys2Proof/Machine/TypesHost.lean ====
section
/-! DEFINITION. Working state of the health block (chapter 12), the stylus ports (chapter 11), the datamovers and the
buffer pool manager (chapter 10). -/
namespace Sys2Proof.Machine

/-- One report of a checker, or an event (R497, R500). `reg` is the register address of a register-bit event, which
carries CHECKER zero. -/
structure Report where
  die : Nat
  cls : Nat
  checker : Nat
  tile : Nat
  detail : Nat
  index : Nat
  injected : Bool
  noEsc : Bool
  escalated : Bool
  deriving DecidableEq, Repr

/-- A posted CE or EVENT, for the hold-off of R501. -/
structure Posted where
  cls : Nat
  checker : Nat
  tile : Nat
  detail : Nat
  time : Nat
  deriving DecidableEq, Repr

/-- A die's fault collector (R501). -/
structure Collector where
  held : List (Nat × Nat)
  lost : Bool
  posted : List Posted
  deriving DecidableEq, Repr

/-- A collector as reset leaves it. -/
def Collector.fresh : Collector := ⟨[], false, []⟩

/-- An armed injection (R511). -/
structure Inject where
  checker : Nat
  die : Nat
  tile : Nat
  mode : Nat
  index : Nat
  left : Nat
  noEsc : Bool
  deriving DecidableEq, Repr

/-- A block held in reset (R508); `asked` when the request of R510 brought it there. -/
structure InReset where
  domain : Nat
  inst : Nat
  asked : Bool
  deriving DecidableEq, Repr

/-- A count of R503 kept per checker and checker unit, or per domain unit. -/
structure EscCount where
  kind : Nat
  unit : Nat
  ce : Nat
  uc : Nat
  told : Bool
  ucTold : Bool
  deriving DecidableEq, Repr

/-- R8: an RWS field that software wrote (`hw` false, with the register's value before) or hardware updated at a count. -/
structure RwsMark where
  addr : Nat
  at_ : Nat
  old : Nat
  hw : Bool
  deriving DecidableEq, Repr

/-- The health block's working state (R501 to R511). -/
structure FaultSt where
  coll : Tbl Collector
  esc : List EscCount
  ul : List (Nat × Nat × Nat)
  inject : Option Inject
  inReset : List InReset
  ufOut : Bool
  pairFault : Bool
  firstReturn : Bool
  lastFault : Option Nat
  pinP : Bool
  pinN : Bool
  rws : List RwsMark
  deriving DecidableEq, Repr

/-- The health block after a power-on reset: the fault pair shows the fault state until boot is READY (R507). -/
def FaultSt.fresh : FaultSt := ⟨[], [], [], none, [], false, true, true, none, false, true, []⟩

/-- Why the device wrote into the control node's memory (R480, R481). -/
inductive MwrWhy where
  | record (ring idx : Nat) (notify : Option (Nat × Nat))
  | shadow (ring tail : Nat)
  deriving DecidableEq, Repr

/-- A device write awaiting its WRACK (R467, R473). -/
structure MwrOut where
  port : Nat
  tag : Nat
  addr : Nat
  data : List Byte
  sends : Nat
  why : MwrWhy
  deriving DecidableEq, Repr

/-- Progress of one completion ring (R480 to R485): records produced, records acknowledged ahead of TAIL, the last
shadow sent and acknowledged, whether MOD_US has passed while no port was UP. -/
structure CqSt where
  prod : Nat
  acked : List Nat
  shadowOut : Bool
  shadow : Nat
  late : Bool
  deriving DecidableEq, Repr

/-- A completion ring never used. -/
def CqSt.fresh : CqSt := ⟨0, [], false, 0, false⟩

/-- The READ or POLL entry that a submission ring is executing (R478, R479): its completion ring, whether it reports, its
register, and for a POLL the value awaited and the mask. `last` is the last value read. -/
structure PollSt where
  ring : Nat
  cq : Nat
  report : Bool
  addr : Nat
  poll : Option (Nat × Nat)
  last : Nat
  deriving DecidableEq, Repr

/-- A management record waiting for room in its completion ring (R479). -/
structure MgmtHeld where
  ring : Nat
  cq : Nat
  w0 : Nat
  w1 : Nat
  deriving DecidableEq, Repr

/-- A request of this rack's control node forwarded to another switch (R486, R487). -/
structure FwdReq where
  tag : Nat
  port : Nat
  isRead : Bool
  ackreq : Bool
  target : Nat
  addr : Nat
  len : Nat
  data : List Byte
  sends : Nat
  deriving DecidableEq, Repr

/-- A kept response to a request from the fabric (R488). -/
structure KeptRsp where
  src : Nat
  tag : Nat
  status : Nat
  data : List Byte
  arg : Nat
  deriving DecidableEq, Repr

/-- Working state of the stylus ports and the management block: writes awaiting WRACK and writes waiting for a tag,
completion rings, accepted doorbells of TILE rings, entries being executed and records held, the ring whose entry was
taken last (R477), requests forwarded and requests behind them on their port, with what the memories find when they are read (R470),
requests from the fabric in
progress and responses kept (R488). -/
structure StylusSt where
  out : List MwrOut
  wait : List MwrOut
  nextTag : Nat
  cq : Tbl CqSt
  doorbells : Tbl Nat
  polls : List PollSt
  mgmtHeld : List MgmtHeld
  turn : Nat
  fwd : List FwdReq
  backlog : List (Nat × List Byte × Ecc)
  slots : List (Nat × Nat)
  kept : List KeptRsp
  deriving DecidableEq, Repr

/-- The stylus ports as reset leaves them. -/
def StylusSt.fresh : StylusSt := ⟨[], [], 0, [], [], [], [], 4095, [], [], [], []⟩

/-- A descriptor in progress on a datamover channel (R445 to R449). -/
structure DmDesc where
  addr : Nat
  src : Nat
  dst : Nat
  len : Nat
  flags : Nat
  next : Nat
  tag : Nat
  deriving DecidableEq, Repr

/-- A burst in a buffer slot: its offset in the descriptor, its bytes and the 8-byte words of the destination that
carry poison (R434, R447). -/
structure Burst where
  off : Nat
  data : List Byte
  bad : List Nat
  deriving DecidableEq, Repr

/-- A datamover channel's working state (R444 to R452): the descriptor in progress, `asking` while it waits for a
pooled destination, the destination used, the next descriptor's address, bytes whose bursts have issued and bytes
written, a status that ends the descriptor, a record held for ring room, when the last burst read issued. -/
structure DmChan where
  desc : Option DmDesc
  asking : Bool
  used : Option Nat
  nextFetch : Option Nat
  issued : Nat
  written : Nat
  inFlight : List Burst
  stop : Option Nat
  poisoned : Bool
  heldRec : Option (Nat × Nat)
  lastIssue : Option Nat
  deriving DecidableEq, Repr

/-- A channel as reset leaves it. -/
def DmChan.fresh : DmChan := ⟨none, false, none, none, 0, 0, [], none, false, none, none⟩

/-- Who asked the buffer pool manager for a buffer (R440): a read on a stylus port, a datamover channel, a READ or POLL
entry of a submission ring, a read forwarded by another switch (R486), or none that waits for an answer. -/
inductive BpAsker where
  | stylus (port tag : Nat)
  | dm (die chan : Nat)
  | mgmt (ring : Nat)
  | fabric (req : Pkt)
  | nobody
  deriving DecidableEq, Repr

/-- One buffer pool: its pointer cache, and the free ring in HBM as first entry and count (R441, R443); whether a refill
or an INIT is under way. -/
structure BpPool where
  cache : List Nat
  ringHead : Nat
  ringCount : Nat
  refill : Bool
  filling : Bool
  deriving DecidableEq, Repr

/-- A pool as reset leaves it. -/
def BpPool.fresh : BpPool := ⟨[], 0, 0, false, false⟩

/-- The buffer pool manager: its pools and the requests waiting in order of arrival (R440). -/
structure BpSt where
  pools : Tbl BpPool
  waits : List (BpAsker × Nat)
  deriving DecidableEq, Repr

/-- The manager as reset leaves it. -/
def BpSt.fresh : BpSt := ⟨[], []⟩

/-- The memory controllers: HBM initialisation written since the last reset and under way, DDR5 training under way
(R432, R438, R457); `lastMap` is the mapping under which the kept contents of HBM were written (R432). -/
structure MemCtl where
  lastMap : Nat
  hbmWritten : Bool
  hbmBusy : Bool
  ddrBusy : Bool
  deriving DecidableEq, Repr

/-- The controllers as reset leaves them. -/
def MemCtl.fresh : MemCtl := ⟨0, false, false, false⟩

/-- The I3C target (R491, R492): addresses, in-band interrupts, the board view's index. -/
structure I3cSt where
  dynAddr : Option Nat
  ibiEn : Bool
  index : Nat
  mwl : Nat
  mrl : Nat
  deriving DecidableEq, Repr

/-- What leaves the device, in the order in which it leaves. -/
inductive Emit where
  /-- A stylus transaction (R466): port, TYPE, FLAGS, TAG, LEN, STATUS, ADDR and payload. -/
  | stylus (port ty flags tag len status addr : Nat) (data : List Byte)
  /-- A stylus link replay (R464): the flits of the replay buffer from a named one, each with its number. -/
  | stylusReplay (port flit : Nat) (flits : List (Nat × List Byte))
  /-- A fabric packet on a port and virtual channel, its bytes as sent (R287, R293). -/
  | packet (port vc : Nat) (bytes : List Byte)
  /-- A control flit on a port (R390). -/
  | flit (port : Nat) (bytes : List Byte)
  /-- A replay (R395): the first frame, which carries REPLAY, and what the frames from it on carry besides IDLE flits. -/
  | replay (port first : Nat) (frames : List (Nat × LinkItem))
  /-- An Ethernet frame on an Ethernet port (R404 to R410). -/
  | eth (port : Nat) (bytes : List Byte)
  /-- What a lane's PRBS generator and its error injection now do (R399, R401): the pattern, if the generator runs; side,
  mode, period and length of the injection, if it runs. -/
  | lane (lane : Nat) (pattern : Option Nat) (inject : Option (Nat × Nat × Nat × Nat))
  /-- An in-band interrupt to the board controller with its data byte (R491). -/
  | ibi (data : Nat)
  /-- The answer to an I3C command or private read; `none` when it is not acknowledged (R491, R492). -/
  | i3c (answer : Option (List Byte))
  /-- Bits shifted out of the selected JTAG register (R601, R602). -/
  | jtag (reg : Nat) (bits : Nat)
  /-- What drives the output pins now (R601): 0 the device, 1 the boundary register, which holds these bits, 2 nothing. -/
  | pins (mode : Nat) (boundary : Nat)
  deriving DecidableEq, Repr

/-- A consequence that a step still owes: it is carried out before the step ends. -/
inductive Due where
  /-- A domain's unit is isolated and reset by a fault, which counts toward UL_LIMIT or not (R503, R508). -/
  | isolate (domain inst : Nat) (counts : Bool)
  /-- A UF stops data service (R504). -/
  | uf
  /-- A port has left MGMT or UP: the rings are looked at again and DISCOVER leaves (R321, R323, R515). -/
  | ringCheck
  /-- A port below MIN_LANES goes down (R513). -/
  | portDown (port : Nat)
  /-- Held packets are offered to the routing engine again (R349). -/
  | reoffer
  /-- Staged chunks, tokens or answers may let work of a communicator go on. -/
  | advance (comm : Nat)
  /-- A switch is absent or a port went down: operations that need it end (R516). -/
  | memberLost (comm seq : Nat)
  /-- A packet's retention has ended: status 0 when it was acknowledged, else why it was not (R299, R302, R303). -/
  | released (own : Own) (status : Nat)
  /-- A packet enters the switch from a die's internal sources (R340), port code 26 and up, with the copy list that it
  belongs to (R353). -/
  | inject (die : Nat) (pkt : Pkt) (list : Option (Nat × Nat × Nat))
  /-- A packet is delivered to an internal endpoint; the tile is that of its context (R341). -/
  | deliver (tile : Nat) (pkt : Pkt)
  /-- A packet that stays on its link has arrived on a port: DISCOVER and TIME (R321, R532). -/
  | portMsg (port : Nat) (pkt : Pkt)
  /-- The Z ring view has changed: operations that need an absent switch end (R515, R516). -/
  | ringView
  /-- An accelerator port has gone down: operations that need it end (R516). -/
  | portLost (port : Nat)
  /-- Packets in the receive buffers and reorder stores are offered again. -/
  | retryAll
  /-- The buffer pool manager answers a request with the value of BP_ALLOC (R440). -/
  | bpReply (who : BpAsker) (word : Nat)
  /-- Waiting records, write-backs and management entries look for ring room again (R451, R479, R501). -/
  | rings
  deriving DecidableEq, Repr

end Sys2Proof.Machine
end

