-- ==== Sys2Proof/Machine/TypesSys.lean ====
section
/-! DEFINITION. Working state of resets, boot, security, power, the board pins and synchronisation (chapters 13 to 15). -/
namespace Sys2Proof.Machine

/-- A fused Filavo key hash with its marks (R568, R574, R579). -/
structure FilavoKey where
  hash : Nat
  fw : Bool
  rma : Bool
  factory : Bool
  revoked : Bool
  deriving DecidableEq, Repr

/-- One-time storage: life-cycle code, a written and unconfirmed transition, owner hash, SVN counter, key hashes,
the identity key's private scalar and the device secret, until they are erased (R571, R577 to R580). -/
structure Fuses where
  lc : Nat
  pending : Option Nat
  owner : Option Nat
  svn : Nat
  keys : List FilavoKey
  identity : Option (Nat × Nat)
  serial : Nat
  deriving DecidableEq, Repr

/-- Flash contents that the ROM and the security block use (R566, R574). A firmware slot whose content has not been read
yet is `none`: what was put there at manufacture comes with the row that reads it (log 42). -/
structure Flash where
  slotA : Option (List Byte)
  slotB : Option (List Byte)
  keyList : Option (List Byte)
  rmaKeys : List (List Byte)
  deviceCert : List Byte
  deriving DecidableEq, Repr

/-- The security and identity block (chapter 14): with the alias key's private scalar and the alias certificate, formed at each
boot (R569, R573). `redo` is a life-cycle target whose wipes a reset interrupted, `lcReset` a warm
reset that a transition still brings, `lcBoot` a boot that follows one (R578, R580). -/
structure SecSt where
  fuses : Fuses
  flash : Flash
  measure : Nat
  aliasKey : Nat
  aliasCert : List Byte
  imageLog : Nat
  imageLoads : Nat
  keysOk : Bool
  cmd : Option (Nat × Nat × Nat)
  redo : Option Nat
  lcReset : Bool
  lcBoot : Bool
  deriving DecidableEq, Repr

/-- Resets, pins, power and throttles; `heat` is where the last sample stood to THROTTLE_C: 0 below the clear point, 2 above the
threshold, 1 between (R596). -/
structure SysSt where
  power : Bool
  resetN : Bool
  coldBoot : Bool
  fwRuns : Bool
  tripped : Bool
  thermN : Bool
  heat : Nat
  throttleT : Nat
  throttleP : Tbl Nat
  crefLost : Bool
  jtagIr : Nat
  boundary : Nat
  wdogFrom : Nat
  deriving DecidableEq, Repr

/-- A neighbour's last TIME report on a port (R532, R533), and the one-way delay that its exchange gave, in eighths of a
nanosecond (R534). -/
structure TimeNbr where
  port : Nat
  id : Nat
  synced : Bool
  hops : Nat
  master : Nat
  parent : Option Nat
  delay : Int
  deriving DecidableEq, Repr

/-- An outstanding TIME request: its exchange number and t1 in eighths of a nanosecond (R534). -/
structure TimeReq where
  port : Nat
  num : Nat
  t1 : Nat
  deriving DecidableEq, Repr

/-- Synchronisation (R531 to R536): neighbours' reports, requests outstanding, the next exchange number, the run of good
parent exchanges, whether the initial step has been made, whether this switch has been master since an earlier
exchange timer (log 40); the offset still to be slewed away, in eighths of a nanosecond, and the cycles since the count was
last slewed (R529, R536); the last offset to the parent, in full (R533). -/
structure TimeSt where
  nbrs : List TimeNbr
  reqs : List TimeReq
  nextNum : Nat
  good : Nat
  stepped : Bool
  wasMaster : Bool
  debt : Int
  phase : Nat
  offset : Int
  deriving DecidableEq, Repr

/-- Synchronisation as reset leaves it. -/
def TimeSt.fresh : TimeSt := ⟨[], [], 0, 0, false, false, 0, 0, 0⟩

end Sys2Proof.Machine
end

