-- ==== Sys2Proof/Machine/State.lean ====
section
/-! DEFINITION. The state of the switch, why a command could stop, and the state after power-on reset. -/
namespace Sys2Proof.Machine

/-- Why the machine would stop with a fault. -/
inductive Fault where
  /-- Raised by no command: the spec gives every command an effect, be it none, on every state (log 5). Safe. -/
  | stopped
  deriving DecidableEq, Repr

/-- Why a command would have no meaning. -/
inductive Refusal where
  /-- A command whose meaning is not modelled yet; raised by its arm of `exec` alone. No arm raises it. Safe. -/
  | notModelled (mnemonic : String)
  deriving DecidableEq, Repr

/-- Everything that the spec gives the switch. -/
structure State where
  /-- Every register of the map by address; one that is not listed has its reset value (R6, R7). -/
  regs : Tbl Word
  /-- The tiles: threads, registers, tickets, queues, engines, image slots (R79 to R129). -/
  tiles : Tbl Tile
  /-- Plates, HBM and DDR5 (R170, R419). -/
  mem : Memory
  /-- Memory words, as address divided by 8, that hold poison (R305, R424). -/
  memPoison : List Nat
  /-- The plate parts of the staging quotas held (R192, R204), from the top of every plate down: communicator, the KiB of
  one plate above the part, its KiB in one plate (log 20). -/
  plateQuota : List (Nat × Nat × Nat)
  /-- Collectors, escalation counts, fault pair, injection (R498 to R528). -/
  faults : FaultSt
  /-- Rings, doorbells, writes in flight, forwarded requests (R464 to R497). -/
  stylus : StylusSt
  /-- The datamovers' channels, 64 times die plus channel (R444 to R454). -/
  dm : Tbl DmChan
  /-- The buffer pool manager (R439 to R443). -/
  bp : BpSt
  /-- Initialisation of HBM and DDR5 (R432 to R438). -/
  memc : MemCtl
  /-- The I3C target (R491, R492). -/
  i3c : I3cSt
  /-- Fuses, flash, measurements, the command in progress (R566 to R591, R606). -/
  sec : SecSt
  /-- Power, resets, throttles, JTAG (R559 to R565, R592 to R604). -/
  sys : SysSt
  /-- Time exchange (R530 to R537). -/
  time : TimeSt
  /-- Traffic managers, links, streams, Ethernet (R286 to R418). -/
  fab : FabricSt
  /-- Communicators, collectives, gating slots, pause (R189 to R285, R538 to R547). -/
  cs : CollSt
  /-- The local global count (R529). -/
  count : Word
  /-- The model's own: what the command in progress still owes (`State.settle`). -/
  todo : List Due
  /-- What has left the switch, oldest first. -/
  outbox : List Emit
  /-- The model's own: how many free values have been drawn (log 10). -/
  draws : Nat
  /-- The commands that wait, first in, first out. -/
  pending : List Instr
  deriving DecidableEq, Repr

/-- The fuses as the module ships (R579, R606; log 2, log 42). -/
def shippedFuses : Fuses :=
  { lc := 1, pending := none, owner := none, svn := 0,
    keys := Config.fusedKeys.map (fun k =>
      ⟨k.1.toNat, k.2.getLsbD 0, k.2.getLsbD 1, k.2.getLsbD 2, k.2.getLsbD 3⟩),
    identity := some (scalarOf Config.identityKey.toNat, Config.deviceSecret.toNat), serial := Config.serial.toNat }

/-- The security block as the module ships. -/
def SecSt.shipped : SecSt :=
  { fuses := shippedFuses, flash := ⟨none, none, none, Config.rmaKeys, Config.deviceCert⟩, measure := 0, aliasKey := 0, aliasCert := [], imageLog := 0, imageLoads := 0, keysOk := false,
    cmd := none, redo := none, lcReset := false, lcBoot := false }

/-- The switch right after power-on reset, before the ROM has looked at a slot (R559, R560, R568, R592); registers have
their reset values but for the fused serial number (R585). The choices among these values are log 2 to 4, 11 and 12. -/
def State.reset : State :=
  { regs := [(RegName.secSerial.base, Config.serial)], tiles := [], mem := [], memPoison := [], plateQuota := [],
    faults := FaultSt.fresh, stylus := StylusSt.fresh, dm := [], bp := BpSt.fresh, memc := MemCtl.fresh,
    i3c := ⟨none, false, 0, 1, 8⟩, sec := SecSt.shipped,
    sys := ⟨true, false, true, false, false, false, 0, 0, [], false, 1, 0, 0⟩,
    time := TimeSt.fresh, fab := FabricSt.fresh, cs := CollSt.fresh, count := 0, todo := [], outbox := [], draws := 0,
    pending := [] }

end Sys2Proof.Machine
end

