-- ==== Sys2Proof/Machine/Ops.lean ====
section
/-! DEFINITION. Named operations over the registers, the fault collectors and the completion rings that every
subsystem uses: register access by R4 to R10, refused writes (R523), reports and events (R497 to R506), and posting to
completion rings (R480, R482). -/
namespace Sys2Proof.Machine

/-! ### Ports and dies (R14, R336) -/

/-- The first tile of a port (R14), by port code (R336). -/
def portTile (p : Nat) : Nat :=
  if p < 16 then 16 * (p / 4) + 2 * (p % 4)
  else nth 0 [8, 24, 44, 60, 12, 28, 40, 56, 46, 62] (p - 16)

/-- The tiles a port spans (R14). -/
def portTiles (p : Nat) : Nat :=
  if p < 16 then 2 else nth 2 [4, 4, 2, 2, 4, 4, 4, 4, 2, 2] (p - 16)

/-- The lanes of a port (R14). -/
def portLanes (p : Nat) : Nat := 8 * portTiles p

/-- The first lane of a port (R3, R14). -/
def portLane (p : Nat) : Nat := 8 * portTile p

/-- The port that a tile's lanes belong to. -/
def tilePort (t : Nat) : Nat :=
  ((List.range 26).find? (fun p => decide (portTile p ≤ t) && decide (t < portTile p + portTiles p))).getD 0

/-- The port that a lane belongs to. -/
def lanePort (l : Nat) : Nat := tilePort (l / 8)

/-- The die of a tile (R3). -/
def tileDie (t : Nat) : Nat := t / 16

/-- The die of a port: that of its first tile (R14). -/
def portDie (p : Nat) : Nat := tileDie (portTile p)

/-! ### Register access -/

/-- The address of a register's copy. -/
def regAddr (r : RegName) (idx : List Nat) : Nat :=
  r.base + ((r.dims.zip idx).map (fun p => p.1.1 * p.2)).foldl (· + ·) 0

/-- The copy of a register at an offset from its first, if the offset is that of one. -/
def regIndex : List (Nat × Nat) → Nat → Option (List Nat)
  | [], off => if off = 0 then some [] else none
  | (stride, count) :: ds, off =>
    if off / stride < count then (regIndex ds (off % stride)).map (off / stride :: ·) else none

/-- The register at an address, and which copy; `none` for an unassigned address (R9). -/
def findReg (addr : Nat) : Option (RegName × List Nat) :=
  RegName.all.findSome? (fun r =>
    if r.base ≤ addr then (regIndex r.dims (addr - r.base)).map (fun ix => (r, ix)) else none)

/-- Reset values that depend on the copy, as the register's own table gives them; the value of SEC_LC.STATE is log 2. -/
def specialReset (r : RegName) (idx : List Nat) (n : Nat) : Nat :=
  let i := nth 0 idx 0
  let j := nth 0 idx 1
  match r with
  | .plateOwner => setFieldOf n 2 4 (i % 16)
  | .linkPortCfg => setFieldOf n 0 6 (portLanes i / 2)
  | .tmRed => setFieldOf (setFieldOf (setFieldOf n 0 15 (nth 0 [2048, 1024, 256] j)) 16 15
      (nth 0 [3584, 2560, 1024] j)) 32 8 (nth 0 [16, 64, 128] j)
  | .tmClassSched => setFieldOf n 16 2 (nth 0 [2, 1, 2, 1, 2, 1, 0, 2] j)
  | .tmBufClass => if j = 7 then setFieldOf (setFieldOf n 16 15 0x1000) 32 10 0 else n
  | .tmQmap => setFieldOf n 0 14 j
  | .tmGroup => setFieldOf (setFieldOf (setFieldOf n 16 1 (if j = 8 ∨ j = 9 then 0 else 1)) 57 3
      (if j < 8 then j else if j = 8 then 2 else if j = 9 then 3 else 0)) 60 1 (if j < 10 then 1 else 0)
  | .tmQcfg => setFieldOf n 16 8 (if j < 10 then j else 0)
  | .secLc => setFieldOf n 0 3 1
  | _ => n

/-- The reset value of a register's copy (R7). -/
def resetWord (r : RegName) (idx : List Nat) : Nat :=
  specialReset r idx (r.fields.foldl (fun n f => setFieldOf n f.lo f.width f.reset) 0)

/-- The stored value of a register: what is listed at its address, or its reset value. -/
def State.rawReg (s : State) (r : RegName) (idx : List Nat) : Nat :=
  match Tbl.find (regAddr r idx) s.regs with
  | some w => w.toNat
  | none => resetWord r idx

/-- A register's stored value replaced. -/
def State.setRaw (s : State) (r : RegName) (idx : List Nat) (n : Nat) : State :=
  { s with regs := Tbl.put (regAddr r idx) (BitVec.ofNat 64 n) s.regs }

/-- A field read. -/
def State.rd (s : State) (f : Fld) (idx : List Nat) : Nat := fieldOf (s.rawReg f.reg idx) f.lo f.width

/-- A field set by hardware. -/
def State.wr (s : State) (f : Fld) (idx : List Nat) (v : Nat) : State :=
  s.setRaw f.reg idx (setFieldOf (s.rawReg f.reg idx) f.lo f.width v)

/-- Whether a one-bit field is 1. -/
def State.on (s : State) (f : Fld) (idx : List Nat) : Bool := s.rd f idx == 1

/-- R6, R9: what a software write leaves in a register: RW and RWS fields take the value, W1C fields are cleared by
ones, WO fields hold nothing, all else is unchanged. -/
def swValue (fs : List FieldDesc) (old v : Nat) : Nat :=
  fs.foldl (fun n f =>
    match f.access with
    | .rw | .rws => setFieldOf n f.lo f.width (fieldOf v f.lo f.width)
    | .w1c => setFieldOf n f.lo f.width (fieldOf old f.lo f.width - (fieldOf old f.lo f.width &&& fieldOf v f.lo f.width))
    | .wo => setFieldOf n f.lo f.width 0
    | .ro | .rc => n) old

/-- R6: a software write by access code, with no action of its own. -/
def State.swWrite (s : State) (r : RegName) (idx : List Nat) (v : Nat) : State :=
  s.setRaw r idx (swValue r.fields (s.rawReg r idx) v)

/-- R6: a warm reset's effect on a register's value. -/
def warmValue (r : RegName) (idx : List Nat) (old : Nat) : Nat :=
  r.fields.foldl (fun n f => if f.access = .rws then setFieldOf n f.lo f.width (fieldOf old f.lo f.width) else n)
    (resetWord r idx)

/-! ### Tiles -/

/-- A tile's working state. -/
def State.tile (s : State) (t : Nat) : Tile := Tbl.look Tile.fresh s.tiles t

/-- A tile's working state changed. -/
def State.updTile (s : State) (t : Nat) (f : Tile → Tile) : State :=
  { s with tiles := Tbl.upd Tile.fresh t f s.tiles }

/-! ### What leaves the device, and what a step still owes -/

/-- Something leaves the device. -/
def State.emit (s : State) (e : Emit) : State := { s with outbox := s.outbox ++ [e] }

/-- A consequence that the step carries out before it ends. -/
def State.owe (s : State) (d : Due) : State := { s with todo := s.todo ++ [d] }

/-- The global count as a number (R528). -/
def State.now (s : State) : Nat := s.count.toNat

/-- The next free value (log 10). -/
def State.draw (s : State) : Word × State := (Config.freeWord s.draws, { s with draws := s.draws + 1 })

/-! ### Completion rings (R480 to R482) -/

/-- ENTRIES of a ring from its ENTRIES_LOG2 (R495, R496): values other than 4 to 15 are treated as 4. -/
def ringEntries (log2 : Nat) : Nat := if 4 ≤ log2 ∧ log2 ≤ 15 then 2 ^ log2 else 16

/-- A completion ring's progress. -/
def State.cqSt (s : State) (n : Nat) : CqSt := Tbl.look CqSt.fresh s.stylus.cq n

/-- A completion ring's progress changed. -/
def State.updCq (s : State) (n : Nat) (f : CqSt → CqSt) : State :=
  { s with stylus := { s.stylus with cq := Tbl.upd CqSt.fresh n f s.stylus.cq } }

/-- A completion ring is full, a stalled one counting as full (R186, R473, R482). -/
def State.cqFull (s : State) (n : Nat) : Bool :=
  s.on F.GLB_CQ_CFG_STALLED [n] ||
  ((s.cqSt n).prod + 2 ^ 16 - s.rd F.GLB_CQ_IDX_HEAD [n]) % 2 ^ 16 ==
    ringEntries (s.rd F.GLB_CQ_CFG_ENTRIES_LOG2 [n])

/-- A stylus port is UP (R493). -/
def State.stylusUp (s : State) (p : Nat) : Bool := s.rd F.GLB_STYLUS_STATUS_STATE [p] == 2

/-- R472: device-initiated traffic of a completion ring leaves on its PORT, or on the other while that is not UP. -/
def State.cqPort (s : State) (n : Nat) : Nat :=
  let p := s.rd F.GLB_CQ_CFG_PORT [n]
  if s.stylusUp p then p else if s.stylusUp (1 - p) then 1 - p else p

/-- An MWR put on the wire; every device MWR carries ACKREQ (R467). -/
def State.emitMwr (s : State) (o : MwrOut) : State := s.emit (.stylus o.port 3 1 o.tag o.data.length 0 o.addr o.data)

/-- R467, R472: a port takes one more device write: it is UP and has fewer than 1,024 outstanding. -/
def State.stylusTakes (s : State) (p : Nat) : Bool :=
  s.stylusUp p && decide ((s.stylus.out.filter (fun o => o.port == p)).length < 1024)

/-- The first tag that no outstanding device request holds (R467); a tag stands on both ports, so that a write may move
to the other one (R473). -/
def freeTag (out : List MwrOut) (start : Nat) : Nat :=
  ((List.range 2049).map (fun i => (start + i) % 65536)).find? (fun t => !(out.any (fun o => o.tag == t))) |>.getD start

/-- R467, R472: a device write into the control node's memory; beyond 1,024 outstanding on a port, and while no port is UP, it
waits. -/
def State.sendMwr (s : State) (port addr : Nat) (data : List Byte) (why : MwrWhy) : State :=
  let st := s.stylus
  if s.stylusTakes port then
    let tag := freeTag st.out st.nextTag
    let o : MwrOut := ⟨port, tag, addr, data, 1, why⟩
    ({ s with stylus := { st with out := st.out ++ [o], nextTag := (tag + 1) % 65536 } }).emitMwr o
  else
    { s with stylus := { st with wait := st.wait ++ [⟨port, 0, addr, data, 0, why⟩] } }

/-- What became of a record offered to a completion ring. -/
inductive Post where
  | posted | full | off
  deriving DecidableEq, Repr

/-- R480, R482: a 16-byte record produced into a completion ring, at the slot of its place in the order of production. -/
def State.postCq (s : State) (ring w0 w1 : Nat) (notify : Option (Nat × Nat)) : State × Post :=
  if !(s.on F.GLB_CQ_CFG_EN [ring]) then (s, .off)
  else if s.cqFull ring then (s, .full)
  else
    let p := (s.cqSt ring).prod
    let ent := ringEntries (s.rd F.GLB_CQ_CFG_ENTRIES_LOG2 [ring])
    let addr := s.rd F.GLB_CQ_BASE_BASE [ring] + 16 * (p % ent)
    let s := s.updCq ring (fun c => { c with prod := (p + 1) % 2 ^ 16 })
    (s.sendMwr (s.cqPort ring) addr (leBytes 8 w0 ++ leBytes 8 w1) (.record ring p notify), .posted)

/-! ### Fault collectors (R497 to R507) -/

/-- R563: a warm reset is in progress until the ROM has accepted a slot. -/
def State.inWarm (s : State) : Bool := !s.sys.coldBoot && decide (s.rd F.SEC_BOOT_STATUS_PHASE [] ≤ 1)

/-- A die's collector. -/
def State.coll (s : State) (d : Nat) : Collector := Tbl.look Collector.fresh s.faults.coll d

/-- A die's collector changed; FLT_DIE_STATUS.HELD follows it (R526). -/
def State.updColl (s : State) (d : Nat) (f : Collector → Collector) : State :=
  let c := f (s.coll d)
  ({ s with faults := { s.faults with coll := Tbl.put d c s.faults.coll } }).wr F.FLT_DIE_STATUS_HELD [d] c.held.length

/-- R500: word 0 of a fault record. -/
def recordWord (r : Report) (lost : Bool) : Nat :=
  r.cls + 8 * b2n r.injected + 16 * b2n lost + 32 * b2n r.escalated +
  (r.checker % 256) <<< 8 + (r.tile % 64) <<< 16 + (r.die % 4) <<< 22 + (r.detail % 2 ^ 32) <<< 32

/-- R501: a record is discarded; the next one posted carries LOST. -/
def State.loseRecord (s : State) (d : Nat) : State :=
  (s.updColl d (fun c => { c with lost := true })).wr F.FLT_DIE_STATUS_LOST [d] 1

/-- R501: a record of a collector is produced into its ring, with LOST when records were lost before it. -/
def State.postRecordWord (s : State) (d w0 w1 : Nat) : State × Post :=
  let lost := (s.coll d).lost
  match s.postCq (s.rd F.FLT_DIE_CFG_RING [d]) (w0 + 16 * b2n lost) w1 none with
  | (s', .posted) => (s'.updColl d (fun c => { c with lost := false }), .posted)
  | r => r

/-- R501 step 3: a record offered to the collector's ring, held while the ring is full. -/
def State.offerRecord (s : State) (r : Report) : State :=
  let d := r.die
  let c := s.coll d
  let w0 := recordWord r false
  let note (s : State) : State := s.updColl d (fun c =>
    { c with posted := ⟨r.cls, r.checker, r.tile, r.detail, s.now⟩ ::
        c.posted.filter (fun p => !(p.cls == r.cls && p.checker == r.checker && p.tile == r.tile && p.detail == r.detail)) })
  if !(s.on F.FLT_DIE_CFG_RING_EN [d]) then s.loseRecord d
  else
    let hold (s : State) : State :=
      if c.held.length < 64 then note (s.updColl d (fun c => { c with held := c.held ++ [(w0, s.now)] }))
      else s.loseRecord d
    if !c.held.isEmpty then hold s
    else match s.postRecordWord d w0 s.now with
      | (s', .posted) => note s'
      | (s', .full) => hold s'
      | (s', .off) => s'.loseRecord d

/-- R501: whether the hold-off keeps a CE or EVENT from being posted: a CE by any record of its checker, an EVENT by an EVENT
(DEDUCED, log 64). -/
def State.heldOff (s : State) (r : Report) : Bool :=
  decide (r.cls ≤ 1) &&
  (s.coll r.die).posted.any (fun p => (decide (r.cls = 1) || p.cls == r.cls) && p.checker == r.checker && p.tile == r.tile &&
    p.detail == r.detail && decide (s.now < p.time + s.rd F.FLT_DIE_CFG_CE_HOLDOFF_MS [r.die] * 1000000))

/-- A saturating count goes up; the answer tells whether it reached its end by this step. Only then is its SAT bit set: not again,
once software has cleared it, while the count stands at its end (DESIGN CHOICE, log 60). -/
def State.bump (s : State) (f : Fld) (idx : List Nat) (n : Nat) : State × Bool :=
  let old := s.rd f idx
  let new := satAdd f.width old n
  (s.wr f idx new, decide (new = 2 ^ f.width - 1) && decide (old ≠ new))

/-! ### Fields that software writes and hardware updates (R8) -/

/-- R8: what the step's cycle holds of a register with an RWS field that hardware updates: commands that meet at one value of the
global count meet in one cycle (log 58). -/
def State.rwsMark (s : State) (addr : Nat) : Option RwsMark :=
  s.faults.rws.find? (fun m => m.addr == addr && m.at_ == s.now)

/-- R8: a register marked in this cycle; marks of earlier cycles go. -/
def State.markRws (s : State) (m : RwsMark) : State :=
  { s with faults := { s.faults with rws := m :: s.faults.rws.filter (fun x => x.at_ == s.now && x.addr != m.addr) } }

/-- R8: hardware is about to update an RWS field: a write that software made in the same cycle is lost. -/
def State.rwsEvent (s : State) (f : Fld) (idx : List Nat) : State :=
  let a := regAddr f.reg idx
  let s' := s.markRws ⟨a, s.now, 0, true⟩
  match s.rwsMark a with
  | some m => if m.hw then s' else s'.wr f idx (fieldOf m.old f.lo f.width)
  | none => s'

/-- R8: software writes a register with an RWS field that hardware updates: after an update in the same cycle that field keeps
the update. -/
def State.rwsWrite (s : State) (f : Fld) (idx : List Nat) (v : Nat) : State :=
  let a := regAddr f.reg idx
  match s.rwsMark a with
  | some m => if m.hw then (s.swWrite f.reg idx v).wr f idx (s.rd f idx) else s.swWrite f.reg idx v
  | none => (s.swWrite f.reg idx v).markRws ⟨a, s.now, s.rawReg f.reg idx, false⟩

/-- R501: a collector counts, records and posts one report. -/
def State.recordOne (s : State) (r : Report) : State :=
  let d := r.die
  let n := s.bump F.FLT_DIE_CNT_COUNT [d, r.cls] 1
  let s := if n.2 then n.1.wr F.FLT_DIE_STATUS_SAT [d] 1 else n.1
  let s := s.wr ⟨.fltDieStatus, r.cls, 1⟩ [d] 1
  let s := (s.rwsEvent F.FLT_DIE_LAST0_WORD [d]).rwsEvent F.FLT_DIE_LAST1_WORD [d]
  let s := (s.wr F.FLT_DIE_LAST0_WORD [d] (recordWord r (s.coll d).lost)).wr F.FLT_DIE_LAST1_WORD [d] s.now
  if s.heldOff r then s else s.offerRecord r

/-- R520: the class from which faults enter the fault state. -/
def State.pairLevel (s : State) : Nat :=
  let l := s.rd F.FLT_PAIR_LEVEL []
  if l = 2 ∨ l = 4 then l else 3

/-- R505, R506: the fault pair enters the fault state, or its quiet period starts again. -/
def State.pairEnter (s : State) : State :=
  let was := s.faults.pairFault
  let s := { s with faults := { s.faults with pairFault := true, lastFault := some s.now, pinP := false, pinN := true } }
  let s := s.wr F.FLT_PAIR_STATE [] (if s.faults.ufOut then 2 else 1)
  if was then s else if s.i3c.ibiEn then s.emit (.ibi 1) else s

/-- R506: a recorded fault of a class at or above FLT_PAIR.LEVEL, and any UF, enters the fault state. -/
def State.pairSee (s : State) (cls : Nat) : State :=
  if cls = 4 ∨ (cls ≥ 2 ∧ cls ≥ s.pairLevel) then s.pairEnter else s

/-- R503: the unit within its kind that a report's counts are kept for; a lane counts toward its port. -/
def escUnit (r : Report) : Nat :=
  if (1 ≤ r.checker ∧ r.checker ≤ 9) ∨ r.checker = 0x16 then r.tile
  else if r.checker = 0x0B then lanePort r.index
  else if r.checker = 0x0A ∨ r.checker = 0x0E ∨ r.checker = 0x10 ∨ r.checker = 0x13 then r.die
  else if r.checker = 0x17 then 0
  else r.index

/-- R503, R509: the isolation domain that contains a checker's block, with the unit. -/
def wrapperOf (r : Report) : Option (Nat × Nat) :=
  match r.checker with
  | 0x01 | 0x02 | 0x03 | 0x04 | 0x16 => some (0, r.tile)
  | 0x05 => some (1, r.tile)
  | 0x06 => some (2, r.tile)
  | 0x08 | 0x09 => some (3, r.tile)
  | 0x0B => some (4, lanePort r.index)
  | 0x0C | 0x0D => some (4, r.index)
  | 0x10 => some (5, r.die)
  | 0x13 => some (6, r.die)
  | 0x14 => some (7, 0)
  | _ => none

/-- The counts kept for a checker and unit. -/
def State.escCount (s : State) (r : Report) : EscCount :=
  (s.faults.esc.find? (fun e => e.kind == r.checker && e.unit == escUnit r)).getD
    ⟨r.checker, escUnit r, 0, 0, false, false⟩

/-- The counts of a checker and unit replaced. -/
def State.setEsc (s : State) (e : EscCount) : State :=
  { s with faults := { s.faults with esc := e :: s.faults.esc.filter (fun x => !(x.kind == e.kind && x.unit == e.unit)) } }

/-- R503: CE escalation. -/
def State.escalateCe (s : State) (r : Report) : State :=
  let e := s.escCount r
  let e := { e with ce := e.ce + 1 }
  if e.ce > s.rd F.FLT_ESC_CE_LIMIT [] ∧ !e.told then
    (s.setEsc { e with told := true }).recordOne { r with cls := 0, escalated := true }
  else s.setEsc e

/-- R503: UC escalation. UC faults of plates, HBM4 and DDR5 raise one event instead of a reset. -/
def State.escalateUc (s : State) (r : Report) : State :=
  let e := s.escCount r
  let e := { e with uc := e.uc + 1 }
  let above := e.uc > s.rd F.FLT_ESC_UC_LIMIT []
  if r.checker = 7 ∨ r.checker = 0x11 ∨ r.checker = 0x12 then
    (if above ∧ !e.ucTold then
      (s.setEsc { e with ucTold := true }).recordOne { r with cls := 0, escalated := true }
    else s.setEsc e)
  else match wrapperOf r with
    | none => s.setEsc e
    | some (dom, inst) =>
      if above then
        (((s.setEsc { e with uc := 0 }).recordOne { r with cls := 3, escalated := true }).pairSee 3).owe
          (.isolate dom inst true)
      else s.setEsc e

/-- R501, R503, R504, R506: a report is recorded, may enter the fault state, and escalates. -/
def State.report (s : State) (r : Report) : State :=
  let s := if r.cls = 4 then { s with faults := { s.faults with ufOut := true } } else s
  let s := (s.recordOne r).pairSee r.cls
  match r.cls with
  | 1 => if r.noEsc then s else s.escalateCe r
  | 2 => if r.noEsc then s else s.escalateUc r
  | 3 => (match wrapperOf r with
    | some (dom, inst) => s.owe (.isolate dom inst (!r.noEsc))
    | none => s)
  | 4 => s.owe .uf
  | _ => s

/-- R499: the die whose collector hears of a register, and the tile for tile blocks (R500). -/
def regHome (r : RegName) (idx : List Nat) : Nat × Nat :=
  let i := nth 0 idx 0
  let a := r.base
  if 0x10000000 ≤ a ∧ a < 0x20000000 then (tileDie i, i)
  else if 0x20000000 ≤ a ∧ a < 0x30000000 then (i / 128, 0)
  else if 0x30000000 ≤ a ∧ a < 0x30010000 then (portDie i, 0)
  else if 0x30010000 ≤ a ∧ a < 0x30020000 then (2 + i / 2, 0)
  else if 0x40000000 ≤ a ∧ a < 0x50000000 then (tileDie i, i)
  else if 0x60000000 ≤ a ∧ a < 0x70000000 then (i / 2, 0)
  else if 0x70000000 ≤ a ∧ a < 0x78000000 then (i, 0)
  else (0, 0)

/-- R497, R500: an event raised by a register bit. -/
def State.event (s : State) (r : RegName) (idx : List Nat) : State :=
  let h := regHome r idx
  s.report ⟨h.1, 0, 0, h.2, regAddr r idx % 2 ^ 32, 0, false, false, false⟩

/-- A status bit set by hardware without an event. -/
def State.stick (s : State) (f : Fld) (idx : List Nat) : State := s.wr f idx 1

/-- A status bit set by hardware; an event is raised when it goes from 0 to 1. -/
def State.stickEv (s : State) (f : Fld) (idx : List Nat) : State :=
  if s.on f idx then s else (s.wr f idx 1).event f.reg idx

/-- A count that wraps modulo its width. -/
def State.tick (s : State) (f : Fld) (idx : List Nat) : State := s.wr f idx (s.rd f idx + 1)

/-- R523: a refused write leaves its register unchanged and sets the global error status. -/
def State.refuse (s : State) (addr : Nat) : State :=
  if s.on F.FLT_CFG_ERR_ERR [] then s.wr F.FLT_CFG_ERR_OVERRUN [] 1
  else (s.wr F.FLT_CFG_ERR_ADDR [] addr).stickEv F.FLT_CFG_ERR_ERR []

/-- R494: a counter of a stylus port; its saturation raises an event. -/
def State.stylusCount (s : State) (port n : Nat) : State :=
  let r := s.bump F.GLB_STYLUS_CNT_COUNT [port, n] 1
  if r.2 then r.1.event .glbStylusCnt [port, n] else r.1

/-! ### Injection (R511) and blocks in reset (R508) -/

/-- A domain's unit is in reset. -/
def State.inReset (s : State) (domain inst : Nat) : Bool :=
  s.faults.inReset.any (fun b => b.domain == domain && b.inst == inst)

/-- R444, R453: a datamover works for the device's machinery: it is not HALTED and not in reset. -/
def State.machineUp (s : State) (d : Nat) : Bool := !s.on F.DM_STATUS_HALTED [d] && !s.inReset 6 d

/-- STATE of a domain: 0 ACTIVE, 1 shallow, 2 deep, 3 WAKING (R558). -/
def State.pwrState (s : State) (n : Nat) : Nat := s.rd F.PWR_DOMAIN_STATE [n]

/-- R499: the die whose collector hears of a checker's unit, where the unit fixes it. -/
def checkerDie (die checker tile index : Nat) : Nat :=
  if 1 ≤ checker ∧ checker ≤ 9 then tileDie tile
  else match checker with
    | 0x0B => portDie (lanePort index)
    | 0x0C | 0x0D => portDie index
    | 0x0F | 0x14 | 0x15 | 0x17 => 0
    | 0x11 | 0x12 => index / 2
    | _ => die

/-- R508: the block of a checker's unit is in reset. -/
def State.checkerShut (s : State) (checker die tile index : Nat) : Bool :=
  match wrapperOf ⟨die, 0, checker, tile, 0, index, false, false, false⟩ with
  | some (dom, inst) => s.inReset dom inst
  | none => false

/-- R511: how many of `n` checks of a checker see inverted check bits, and how; those injections are used up. One aimed at a
block in reset stays armed. -/
def State.injected (s : State) (checker die tile index n : Nat) : Nat × Nat × Bool × State :=
  match s.faults.inject with
  | none => (0, 0, false, s)
  | some j =>
    let perTile := (1 ≤ checker ∧ checker ≤ 9)
    if j.checker = checker ∧ j.die = die ∧ (!perTile ∨ j.tile = tile % 16) ∧ (perTile ∨ j.index = index) ∧ 0 < n ∧
        !s.checkerShut checker die tile index then
      let k := min n j.left
      let left := j.left - k
      let s := { s with faults := { s.faults with inject := if left = 0 then none else some { j with left := left } } }
      let s := if left = 0 then (s.wr F.FLT_INJECT_ARMED [] 0).wr F.FLT_INJECT_DONE [] 1 else s
      (k, j.mode, j.noEsc, s)
    else (0, 0, false, s)

end Sys2Proof.Machine
end

