-- ==== Sys2Proof/Machine/Flags.lean ====
section
/-! DEFINITION. The sticky flags of the hatch engine and the crosshatch unit (R73, R74, R140). -/
namespace Sys2Proof.Machine

/-- The flag register of an engine: the crosshatch unit's when `xh`. -/
def flagReg (xh : Bool) : RegName := if xh then .tileXhFlags else .tileHatchFlags

/-- R73: flags that an operation sets; they stay set. -/
def State.raiseFlags (s : State) (t : Nat) (xh : Bool) (fl : Flags) : State :=
  if fl = Flags.none then s
  else s.setRaw (flagReg xh) [t] (s.rawReg (flagReg xh) [t] ||| fl.toNat)

/-- R138: the value of RDFLAG. -/
def State.flagWord (s : State) (t : Nat) : Nat :=
  fieldOf (s.rawReg .tileHatchFlags [t]) 0 4 + 16 * fieldOf (s.rawReg .tileXhFlags [t]) 0 4

/-- Bits of a register cleared by a mask. -/
def clearBits (n mask : Nat) : Nat := n - (n &&& mask)

/-- R138: CLRFLAG with its operand. -/
def State.clearFlags (s : State) (t op2 : Nat) : State :=
  (s.setRaw .tileHatchFlags [t] (clearBits (s.rawReg .tileHatchFlags [t]) (op2 % 16))).setRaw .tileXhFlags [t]
    (clearBits (s.rawReg .tileXhFlags [t]) (op2 / 16 % 16))

end Sys2Proof.Machine
end

