-- ==== Sys2Proof/Machine/MemOps.lean ====
section
/-! DEFINITION. The memory windows (R171, R432 to R437, R489), ownership and closed regions (R114 to R116, R427), and
reads and writes with ECC and poison (R424, R434). -/
namespace Sys2Proof.Machine

/-- Start of the plate window (R171). -/
def plateBase : Nat := 0x100000000
/-- Bytes of one plate. -/
def plateSize : Nat := 0x800000
/-- Start of the HBM window (R432). -/
def hbmBase : Nat := 0x10000000000
/-- Start of the DDR5 window (R437). -/
def ddrBase : Nat := 0x20000000000
/-- Bytes of one channel's range of the DDR5 window (R437). -/
def ddrRange : Nat := 0x2000000000

/-- The memory windows of R489. -/
inductive Win where
  | plate | hbm | ddr
  deriving DecidableEq, Repr

/-- R433: the populated size of the HBM window. -/
def State.hbmSize (s : State) : Nat := if s.on F.HBM_STATUS_READY [] then 382 * 2 ^ 30 else 0

/-- R437: the populated size of a DDR5 channel's range. -/
def State.ddrSize (s : State) (c : Nat) : Nat :=
  if s.on F.DDR_CH_STATUS_TRAINED [c] then s.rd F.DDR_CH_STATUS_SIZE_GIB [c] * 2 ^ 30 else 0

/-- R172: the window that a byte address lies in, within its populated size. -/
def State.byteWin (s : State) (a : Nat) : Option Win :=
  if plateBase ≤ a ∧ a < plateBase + 64 * plateSize then some .plate
  else if hbmBase ≤ a ∧ a < hbmBase + s.hbmSize then some .hbm
  else if ddrBase ≤ a ∧ a < ddrBase + 8 * ddrRange ∧
      (a - ddrBase) % ddrRange < s.ddrSize ((a - ddrBase) / ddrRange) then some .ddr
  else none

/-- R437: every channel's range between two offsets is populated up to its end. -/
def State.ddrSpan (s : State) (lo hi : Nat) : Bool :=
  (List.range (hi / ddrRange - lo / ddrRange)).all (fun i => s.ddrSize (lo / ddrRange + i) == ddrRange)

/-- R172, R468: the window that holds a whole range within its populated size. -/
def State.rangeWin (s : State) (a n : Nat) : Option Win :=
  match s.byteWin a, s.byteWin (a + n - 1) with
  | some .plate, some .plate => some .plate
  | some .hbm, some .hbm => some .hbm
  | some .ddr, some .ddr => if s.ddrSpan (a - ddrBase) (a + n - 1 - ddrBase) then some .ddr else none
  | _, _ => none

/-- The plate that an address of the plate window lies in. -/
def plateOf (a : Nat) : Nat := (a - plateBase) / plateSize

/-- The plates that a range touches. -/
def platesOf (a n : Nat) : List Nat :=
  if plateBase ≤ a ∧ a < plateBase + 64 * plateSize ∧ 0 < n then
    (List.range (plateOf (a + n - 1) - plateOf a + 1)).map (· + plateOf a)
  else []

/-- Two ranges meet. -/
def meets (a n b m : Nat) : Bool := decide (0 < n) && decide (0 < m) && decide (a < b + m) && decide (b < a + n)

/-- R432: the stack that holds a window offset under the mapping in use. -/
def State.stackOf (s : State) (off : Nat) : Nat :=
  if s.rd F.HBM_STATUS_MAP_ACTIVE [] = 0 then off / 4096 % 8
  else 2 * (off / (96 * 2 ^ 30)) + off / 4096 % 2

/-- R432: whether a range, of one page at most, lies in part on a stack. -/
def State.onStack (s : State) (k a n : Nat) : Bool :=
  decide (hbmBase ≤ a) && decide (a < ddrBase) && decide (0 < n) &&
    (s.stackOf (a - hbmBase) == k || s.stackOf (a + n - 1 - hbmBase) == k)

/-- R553: whether some page of a range lies on a stack that is in a low state. -/
def State.lowStack (s : State) (a n : Nat) : Bool :=
  decide (0 < n) && (List.range 8).any (fun k => s.pwrState (192 + k) != 0) &&
  (List.range (ceilDiv (a % 4096 + n) 4096)).any (fun i =>
    let b := 4096 * (a / 4096 + i)
    decide (hbmBase ≤ b) && decide (b < ddrBase) && s.pwrState (192 + s.stackOf (b - hbmBase)) != 0)

/-- R116: whether a range of a plate touches a region closed to memory instructions, software channels, stylus and
fabric accesses: the sealed window (R428), the plate parts of staging quotas (R204; log 20), a gate slot in use (R284). -/
def State.plateClosed (s : State) (p a n : Nat) : Bool :=
  let base := plateBase + p * plateSize
  let top := s.rd F.GLB_STAGE_POOL_PLATE_KIB [] * 1024
  let slot := s.rd F.GLB_GATE_POOL_SLOT_KIB [] * 1024
  (decide (p % 16 = 0) && meets a n base 0x80000) ||
  s.plateQuota.any (fun q => meets a n (base + plateSize - (q.2.1 + q.2.2) * 1024) (q.2.2 * 1024)) ||
  (List.range (min 16 (s.rd F.GLB_GATE_POOL_SLOTS []))).any (fun i =>
    s.rd F.GLB_GATE_SLOT_STATE [i] != 0 && meets a n (base + plateSize - top - (i + 1) * slot) slot)

/-- R116: whether a range touches a closed region of a plate or of the HBM staging pool. -/
def State.closed (s : State) (a n : Nat) : Bool :=
  (platesOf a n).any (fun p => s.plateClosed p a n) ||
  meets a n (s.rd F.GLB_STAGE_HBM_BASE_BASE []) (s.rd F.GLB_STAGE_POOL_HBM_MIB [] * 2 ^ 20)

/-- Who asks a plate for admission (R427). -/
inductive Agent where
  | burin (tile : Nat)
  | dm (die : Nat)
  | host
  | fabric (die : Nat)
  | machine
  deriving DecidableEq, Repr

/-- R115, R427: whether a plate's owner admits an agent; nobody's access is while a hand-over is pending. The device's own
machinery always is admitted. -/
def State.plateAdmits (s : State) (p : Nat) (w : Agent) : Bool :=
  let kind := if s.on F.PLATE_OWNER_PENDING [p] then 4 else s.rd F.PLATE_OWNER_KIND [p]
  match w with
  | .burin t => kind == 0 && s.rd F.PLATE_OWNER_TILE [p] == t % 16 && tileDie p == tileDie t
  | .dm d => kind == 1 && tileDie p == d
  | .host => kind == 2
  | .fabric d => kind == 3 && tileDie p == d
  | .machine => true

/-- R114, R116, R427: whether a range is admitted to an agent. -/
def State.admits (s : State) (a n : Nat) (w : Agent) : Bool :=
  w == .machine || ((platesOf a n).all (fun p => s.plateAdmits p w) && !s.closed a n)

/-- The checker, its unit and die that watch over an address's word (R498, R503). -/
def State.eccHome (s : State) (a : Nat) : Nat × Nat × Nat :=
  if hbmBase ≤ a ∧ a < ddrBase then (0x11, s.stackOf (a - hbmBase), s.stackOf (a - hbmBase) / 2)
  else if ddrBase ≤ a then (0x12, (a - ddrBase) / ddrRange % 8, (a - ddrBase) / ddrRange % 8 / 2)
  else (0x07, plateOf a, tileDie (plateOf a))

/-- R424, R434: `ce` corrected and `uc` uncorrectable words of one unit counted, at most one record for each class
naming the lowest word, status bits set. -/
def State.eccNote (s : State) (home : Nat × Nat × Nat) (ce uc : List Nat) (inj noEsc : Bool) : State :=
  let checker := home.1
  let u := home.2.1
  let det (w : Nat) : Nat := if checker = 7 then (8 * w - plateBase) % plateSize / 64 else fieldOf (8 * w) 12 32
  let rep (s : State) (cls w : Nat) : State :=
    s.report ⟨home.2.2, cls, checker, if checker = 7 then u else 0, det w, u, inj, noEsc, false⟩
  let count (s : State) (fc fu : Fld) : State × Bool :=
    let a := s.bump fc [u] ce.length
    let b := a.1.bump fu [u] uc.length
    (b.1, a.2 || b.2)
  let s := match checker with
    | 0x07 =>
      let r := count s F.PLATE_ECC_CNT_CE_COUNT F.PLATE_ECC_CNT_UC_COUNT
      let s := if r.2 then r.1.stickEv F.PLATE_ECC_STATUS_SAT [u] else r.1
      let s := if ce.isEmpty then s else s.stick F.PLATE_ECC_STATUS_CE [u]
      (match uc with
       | [] => s
       | w :: _ => (s.stick F.PLATE_ECC_STATUS_UC [u]).wr F.PLATE_ECC_STATUS_LAST_UC_LINE [u] (det w))
    | 0x11 =>
      let r := count s F.HBM_ECC_CNT_CE_COUNT F.HBM_ECC_CNT_UC_COUNT
      if uc.isEmpty then r.1 else r.1.stick F.HBM_STATUS_UC []
    | _ =>
      let r := count s F.DDR_ECC_CNT_CE_COUNT F.DDR_ECC_CNT_UC_COUNT
      if uc.isEmpty then r.1 else r.1.stick F.DDR_CH_STATUS_UC [u]
  let s := match ce with | [] => s | w :: _ => rep s 1 w
  match uc with | [] => s | w :: _ => rep s 2 w

/-- The homes of a list of words, each once, in order. -/
def State.homesOf (s : State) (ws : List Nat) : List (Nat × Nat × Nat) :=
  ws.foldl (fun hs w => let h := s.eccHome (8 * w); if hs.contains h then hs else hs ++ [h]) []

/-- R424, R434, R511: the words of one access are checked: injected and found errors are counted and recorded, and
uncorrectable words stored as poison. The answer lists the words that cannot be read. -/
def State.checkWords (s : State) (ws : List Nat) (ecc : Ecc) : List Nat × State :=
  (s.homesOf ws).foldl (fun (acc : List Nat × State) h =>
    let s := acc.2
    let mine := ws.filter (fun w => s.eccHome (8 * w) == h)
    let j := s.injected h.1 h.2.2 h.2.1 h.2.1 mine.length
    let hit := mine.take j.1
    let uc := mine.filter (fun w => s.memPoison.contains w || ecc.uc.contains w || (j.2.1 ≠ 0 && hit.contains w))
    let ce := mine.filter (fun w => !uc.contains w && (ecc.ce.contains w || (j.2.1 == 0 && hit.contains w)))
    let s := { j.2.2.2 with memPoison := uc.foldl (fun p w => addWord w p) j.2.2.2.memPoison }
    let s := if ce.isEmpty && uc.isEmpty then s else s.eccNote h ce uc (j.1 != 0) j.2.2.1
    (acc.1 ++ uc, s)) ([], s)

/-- A read of a range: its bytes, the words that read as uncorrectable or poisoned, and the state after (R424, R434). -/
def State.readMem (s : State) (a n : Nat) (ecc : Ecc) : List Byte × List Nat × State :=
  let r := s.checkWords (wordsOf a n) ecc
  (s.mem.read a n, r.1, r.2)

/-- R424: a write of bytes; a word written whole loses its poison. -/
def State.writeMem (s : State) (a : Nat) (bs : List Byte) : State :=
  { s with mem := s.mem.write a bs, memPoison := dropWords (wholeWords a bs.length) s.memPoison }

/-- R434: a write of poisoned data stores a poison codeword in each word written. -/
def State.writePoison (s : State) (a n : Nat) : State :=
  { s with memPoison := (wordsOf a n).foldl (fun p w => addWord w p) s.memPoison }

/-- R429, R430: a range written with zeros and valid ECC. -/
def State.zeroMem (s : State) (a n : Nat) : State :=
  { s with mem := s.mem.clear a n,
           memPoison := s.memPoison.filter (fun w => !(decide (a ≤ 8 * w) && decide (8 * w + 8 ≤ a + n))) }

/-- R429: the four sealed windows wiped. -/
def State.wipeSealed (s : State) : State :=
  [0, 16, 32, 48].foldl (fun s p => s.zeroMem (plateBase + p * plateSize) 0x80000) s

end Sys2Proof.Machine
end

