-- ==== Sys2Proof/Machine/TileOps.lean ====
section
/-! DEFINITION. Threads, tickets and queues of a tile (R83 to R103, R112, R113, R121): what blocks a thread and what wakes
it, how a ticket is allocated, completed and retired, how a draining thread ends, and what the scoreboard holds. -/
namespace Sys2Proof.Machine

/-- Causes of a thread fault (R129). -/
def cILLEGAL : Nat := 1
/-- R89, R129. -/
def cREGGRANT : Nat := 2
/-- R94, R129. -/
def cTICKETLIMIT : Nat := 3
/-- R93, R129. -/
def cPOISONUSE : Nat := 4
/-- R122, R129. -/
def cSTATEPARITY : Nat := 5
/-- R122, R129. -/
def cFETCHECC : Nat := 6
/-- R129, R139. -/
def cPCRANGE : Nat := 7

/-! ### Threads -/

/-- A thread of a tile. -/
def Tile.thread (tl : Tile) (n : Nat) : Thread := Tbl.look Thread.fresh tl.threads n

/-- A thread replaced; a FREE thread is not listed. -/
def Tile.setThread (tl : Tile) (n : Nat) (th : Thread) : Tile :=
  { tl with threads := if th.st = .free then Tbl.del n tl.threads else Tbl.put n th tl.threads }

/-- A scalar register. -/
def Thread.sReg (th : Thread) (n : Nat) : Nat := (Tbl.look (0 : Word) th.s n).toNat

/-- A bit of a mask set or cleared. -/
def setBit {w : Nat} (m : BitVec w) (n : Nat) (b : Bool) : BitVec w :=
  if b then m ||| BitVec.ofNat w (2 ^ n) else m &&& ~~~ BitVec.ofNat w (2 ^ n)

/-- R93: a successful write of a scalar register, which clears its poison. -/
def Thread.setS (th : Thread) (n : Nat) (v : Nat) : Thread :=
  { th with s := Tbl.put n (BitVec.ofNat 64 v) th.s, poison := setBit th.poison n false }

/-- R93: a scalar register poisoned. -/
def Thread.poisonS (th : Thread) (n : Nat) : Thread := { th with poison := setBit th.poison n true }

/-- R91: a scalar register pending or no longer pending. -/
def Thread.setPend (th : Thread) (n : Nat) (b : Bool) : Thread := { th with pend := setBit th.pend n b }

/-- A scalar register is pending. -/
def Thread.pending (th : Thread) (n : Nat) : Bool := th.pend.getLsbD n

/-- A scalar register is poisoned. -/
def Thread.poisoned (th : Thread) (n : Nat) : Bool := th.poison.getLsbD n

/-- R85, R134: a thread faults and drains. -/
def Thread.fault (th : Thread) (cause : Nat) : Thread :=
  { th with st := .draining, waiting := .nothing, cause := cause, toFree := false }

/-- R121: a thread is told to end; a FAULTED thread is FREE at once. -/
def Thread.stop (th : Thread) : Thread :=
  match th.st with
  | .free => th
  | .faulted => Thread.fresh
  | .draining => { th with toFree := true }
  | .ready | .blocked => { th with st := .draining, waiting := .nothing, toFree := true }

/-! ### Tickets (R94 to R101) -/

/-- A ticket entry. -/
def Tile.ticket (tl : Tile) (e : Nat) : Ticket := Tbl.look Ticket.fresh tl.tickets e

/-- A ticket entry changed. -/
def Tile.updTicket (tl : Tile) (e : Nat) (f : Ticket → Ticket) : Tile :=
  { tl with tickets := Tbl.upd Ticket.fresh e f tl.tickets }

/-- The entries of a thread's range. -/
def Thread.range (th : Thread) : List Nat := (List.range th.tkCount).map (· + th.tkBase)

/-- The tickets that a thread holds, lowest entry first. -/
def Tile.heldBy (tl : Tile) (n : Nat) : List Nat :=
  (tl.thread n).range.filter (fun e => (tl.ticket e).held && (tl.ticket e).thread == n)

/-- R94: the lowest entry of a thread's range that is not held (which of them is log 7). -/
def Tile.freeEntry (tl : Tile) (n : Nat) : Option Nat :=
  (tl.thread n).range.find? (fun e => !(tl.ticket e).held)

/-- R95: the ticket value of an entry. -/
def ticketValue (entry thread gen : Nat) : Nat := entry + 512 * thread + 2 ^ 16 * gen

/-- R95: an entry allocated; its generation goes up by one. -/
def Tile.allocTicket (tl : Tile) (e n cls : Nat) : Tile :=
  tl.updTicket e (fun k => { k with held := true, thread := n, gen := (k.gen + 1) % 2 ^ 16, cls := cls, result := none })

/-- R96: a ticket completes, once. -/
def Tile.complete (tl : Tile) (e status detail : Nat) : Tile :=
  if (tl.ticket e).held && (tl.ticket e).result.isNone then
    tl.updTicket e (fun k => { k with result := some (status, detail % 2 ^ 48) })
  else tl

/-- A ticket retired. -/
def Tile.retire (tl : Tile) (e : Nat) : Tile := tl.updTicket e (fun k => { k with held := false, result := none })

/-- R97: a status word. -/
def statusWord (status cls detail : Nat) : Nat := status + cls * 2 ^ 8 + detail * 2 ^ 16

/-- R97, R101: the status word of BAD_TICKET. -/
def badTicket : Nat := statusWord 0x0F 6 0

/-- R101: the entry that a value names, if this thread holds it. -/
def Tile.namedTicket (tl : Tile) (n v : Nat) : Option Nat :=
  (tl.heldBy n).find? (fun e => v == ticketValue e n (tl.ticket e).gen)

/-- R99: the completed ticket with the lowest entry. -/
def Tile.firstDone (tl : Tile) (n : Nat) : Option Nat :=
  (tl.heldBy n).find? (fun e => (tl.ticket e).result.isSome)

/-- The status word that WAIT or TEST returns for a completed entry. -/
def Tile.waitWord (tl : Tile) (e : Nat) : Nat :=
  match (tl.ticket e).result with
  | some (st, d) => statusWord st (tl.ticket e).cls d
  | none => statusWord 0x7F (tl.ticket e).cls 0

/-- R97: the status word that WAITANY returns: the ticket value and 16 bits of the operation's own DETAIL. -/
def Tile.waitAnyWord (tl : Tile) (n e : Nat) : Nat :=
  match (tl.ticket e).result with
  | some (st, d) => statusWord st (tl.ticket e).cls (ticketValue e n (tl.ticket e).gen + (d % 2 ^ 16) * 2 ^ 32)
  | none => badTicket

/-! ### Queues and scoreboard (R86, R90) -/

/-- The queue of a class: 0 hatch, 1 crosshatch, 2 memory and communicate (R86). -/
def queueOf (cls : Nat) : Nat := if cls = 1 ∨ cls = 2 then 0 else if cls = 3 then 1 else 2

/-- R86, R519: a queue is full, or new instructions are held as though it were. -/
def Tile.queueFull (tl : Tile) (q : Nat) : Bool :=
  match q with
  | 0 => tl.testHold || decide (64 ≤ tl.hatchQ.length)
  | 1 => tl.testHold || decide (16 ≤ tl.xhQ.length)
  | _ => decide (256 ≤ tl.memQ.length)

/-- An operation joins its queue. -/
def Tile.enqueue (tl : Tile) (op : EngOp) : Tile :=
  match queueOf op.cls with
  | 0 => { tl with hatchQ := tl.hatchQ ++ [op] }
  | 1 => { tl with xhQ := tl.xhQ ++ [op] }
  | _ => { tl with memQ := tl.memQ ++ [op] }

/-- Every operation of a tile that has not been performed. -/
def Tile.outstanding (tl : Tile) : List EngOp :=
  tl.hatchQ ++ tl.xhQ ++ tl.memQ ++ tl.hatchRun ++ tl.xhRun ++ tl.memRun

/-- V, M and T registers only. -/
def vmt (l : List RegRef) : List RegRef :=
  l.filter (fun r => match r with | .s _ => false | .v _ => true | .m _ => true | .t _ => true)

/-- Two register lists meet. -/
def regsMeet (a b : List RegRef) : Bool := a.any (fun r => b.contains r)

/-- R90: an earlier operation that a later one must wait for. -/
def blocks (early late : EngOp) : Bool :=
  let er := vmt (opReads early.cls early.opc early.w)
  let ew := vmt (opWrites early.cls early.opc early.w)
  let lr := vmt (opReads late.cls late.opc late.w)
  let lw := vmt (opWrites late.cls late.opc late.w)
  regsMeet ew lr || regsMeet ew lw || regsMeet er lw

/-- R90: the scoreboard holds an operation. -/
def Tile.holds (tl : Tile) (op : EngOp) : Bool :=
  tl.outstanding.any (fun e => decide (e.ord < op.ord) && blocks e op)

/-! ### Waking, draining, slots -/

/-- R86, R98, R99, R103: a blocked thread whose condition has ended. -/
def Tile.wake (tl : Tile) (n : Nat) : Tile :=
  let th := tl.thread n
  if th.st = .blocked then
    let ready : Thread := { th with st := .ready, waiting := .nothing }
    match th.waiting with
    | .nothing => tl.setThread n ready
    | .wait d e => if (tl.ticket e).result.isSome then (tl.setThread n (ready.setS d (tl.waitWord e))).retire e else tl
    | .waitAny d =>
      (match tl.firstDone n with
       | some e => (tl.setThread n (ready.setS d (tl.waitAnyWord n e))).retire e
       | none => tl)
    | .fence es => if es.all (fun e => (tl.ticket e).result.isSome) then tl.setThread n ready else tl
    | .launch _ _ => tl
    | .pend rs => if rs.any th.pending then tl else tl.setThread n ready
    | .queue q => if tl.queueFull q then tl else tl.setThread n ready
  else tl

/-- R85, R96, R121: a draining thread whose tickets have all completed leaves that state. -/
def Tile.drain (tl : Tile) (n : Nat) : Tile :=
  let th := tl.thread n
  let es := tl.heldBy n
  if th.st = .draining ∧ es.all (fun e => (tl.ticket e).result.isSome) then
    let tl := es.foldl Tile.retire tl
    if th.toFree then tl.setThread n Thread.fresh else tl.setThread n { th with st := .faulted }
  else tl

/-- A slot of a tile. -/
def Tile.slot (tl : Tile) (k : Nat) : ImageSlot := Tbl.look ImageSlot.fresh tl.slots k

/-- A slot replaced. -/
def Tile.setSlot (tl : Tile) (k : Nat) (sl : ImageSlot) : Tile := { tl with slots := Tbl.put k sl tl.slots }

/-- The threads of a slot. -/
def Tile.threadsOf (tl : Tile) (k : Nat) : List Nat :=
  (tl.threads.filter (fun e => e.2.st != .free && e.2.slot == k)).map (·.1)

/-- R121: a slot without threads returns to LOADED. -/
def Tile.slotDone (tl : Tile) (k : Nat) : Tile :=
  let sl := tl.slot k
  if (sl.st = .running ∨ sl.st = .stopping) ∧ (tl.threadsOf k).isEmpty then tl.setSlot k { sl with st := .loaded } else tl

/-- What follows from a change of a tile: threads wake, drain and end, slots return to LOADED. -/
def Tile.settle (tl : Tile) : Tile :=
  let ns := tl.threads.map (·.1)
  let tl := ns.foldl Tile.wake tl
  let tl := ns.foldl Tile.drain tl
  [0, 1, 2, 3].foldl Tile.slotDone tl

/-- R121, R504: every thread of a slot is told to end. -/
def Tile.stopSlot (tl : Tile) (k : Nat) : Tile :=
  let tl := (tl.threadsOf k).foldl (fun tl n => tl.setThread n (tl.thread n).stop) tl
  if (tl.slot k).st = .running then tl.setSlot k { tl.slot k with st := .stopping } else tl

/-! ### Register writes and poison (R93, R122) -/

/-- A register poisoned; a scalar one in its thread. -/
def Tile.poisonReg (tl : Tile) (n : Nat) (r : RegRef) : Tile :=
  match r with
  | .v k => { tl with vBad := setBit tl.vBad k true }
  | .m k => { tl with mBad := setBit tl.mBad k true }
  | .t k => { tl with tBad := setBit tl.tBad k true }
  | .s k => tl.setThread n ((tl.thread n).poisonS k)

/-- A register written successfully is no longer poisoned or uncorrectable. -/
def Tile.cleanReg (tl : Tile) (n : Nat) (r : RegRef) : Tile :=
  match r with
  | .v k => { tl with vBad := setBit tl.vBad k false, vUc := setBit tl.vUc k false }
  | .m k => { tl with mBad := setBit tl.mBad k false, mUc := setBit tl.mUc k false }
  | .t k => { tl with tBad := setBit tl.tBad k false, tUc := setBit tl.tUc k false }
  | .s k => tl.setThread n { tl.thread n with poison := setBit (tl.thread n).poison k false }

/-- Whether a V, M or T register is poisoned by a failed operation. -/
def Tile.isBad (tl : Tile) (r : RegRef) : Bool :=
  match r with
  | .v k => tl.vBad.getLsbD k | .m k => tl.mBad.getLsbD k | .t k => tl.tBad.getLsbD k | .s _ => false

/-- Whether a V, M or T register holds an uncorrectable error (R122). -/
def Tile.isUc (tl : Tile) (r : RegRef) : Bool :=
  match r with
  | .v k => tl.vUc.getLsbD k | .m k => tl.mUc.getLsbD k | .t k => tl.tUc.getLsbD k | .s _ => false

/-- R93, R122: how an operation ends because of its source registers, before it does anything: a register that is both poisoned
and uncorrectable counts as poisoned (DESIGN CHOICE, log 69). -/
def Tile.sourceVerdict (tl : Tile) (op : EngOp) : Option (Nat × Nat) :=
  let rs := vmt (opReads op.cls op.opc op.w)
  if op.sc.bad || rs.any tl.isBad then some (0x01, 0)
  else if rs.any tl.isUc then some (0x03, 0)
  else none

/-- The scalar result of an operation, given and no longer pending (R91). -/
def Tile.scalarResult (tl : Tile) (op : EngOp) (v : Option Word) : Tile :=
  match opScalarDest op.cls op.opc op.w with
  | none => tl
  | some r =>
    let th := (tl.thread op.thread).setPend r false
    tl.setThread op.thread (match v with | some x => th.setS r x.toNat | none => th)

/-- R93, R96, R136: an operation of a tile ends: registers written or poisoned, the ticket completed. -/
def Tile.finish (tl : Tile) (op : EngOp) (out : EngOut) : Tile :=
  let ws := opWrites op.cls op.opc op.w
  let tl := tl.scalarResult op out.sv
  let tl :=
    if out.status = 0 then
      let tl := { tl with
        v := out.vs.foldl (fun v x => Tbl.put x.1 x.2 v) tl.v,
        m := out.ms.foldl (fun m x => Tbl.put x.1 x.2 m) tl.m,
        t := out.ts.foldl (fun t x => Tbl.put x.1 x.2 t) tl.t }
      ws.foldl (fun tl r => tl.cleanReg op.thread r) tl
    else ws.foldl (fun tl r => tl.poisonReg op.thread r) tl
  tl.complete op.entry out.status out.detail

/-- An operation leaves every queue and engine. -/
def Tile.dropOp (tl : Tile) (entry : Nat) : Tile :=
  let k (l : List EngOp) : List EngOp := l.filter (fun o => o.entry != entry)
  { tl with hatchQ := k tl.hatchQ, xhQ := k tl.xhQ, memQ := k tl.memQ, hatchRun := k tl.hatchRun,
            xhRun := k tl.xhRun, memRun := k tl.memRun, commRun := k tl.commRun }

/-- An operation ends with an error and leaves its engine. -/
def Tile.failOp (tl : Tile) (op : EngOp) (status detail : Nat) : Tile :=
  (tl.finish op (.fail status detail .none)).dropOp op.entry

/-- Operations that end with one status (block resets, R509). -/
def Tile.failAll (tl : Tile) (ops : List EngOp) (status : Nat) : Tile :=
  ops.foldl (fun tl op => tl.failOp op status 0) tl

/-- R119, R121: granted registers zeroed. -/
def Tile.zeroGrant (tl : Tile) (v m t : Nat) : Tile :=
  { tl with
    v := tl.v.filter (fun e => !bitOf v e.1), m := tl.m.filter (fun e => !bitOf m e.1),
    t := tl.t.filter (fun e => !bitOf t (e.1 / 16)),
    vBad := tl.vBad &&& ~~~ BitVec.ofNat 32 v, vUc := tl.vUc &&& ~~~ BitVec.ofNat 32 v,
    mBad := tl.mBad &&& ~~~ BitVec.ofNat 8 m, mUc := tl.mUc &&& ~~~ BitVec.ofNat 8 m,
    tBad := tl.tBad &&& ~~~ BitVec.ofNat 8 t, tUc := tl.tUc &&& ~~~ BitVec.ofNat 8 t }

/-- R115: whether an access admitted by a plate is still running on a tile. -/
def Tile.usesPlate (tl : Tile) (p : Nat) : Bool := (tl.memRun ++ tl.xhRun ++ tl.commRun).any (fun o => o.plates.contains p)

/-- R123, R504, R509: every ticket still outstanding completes with ISOLATED. -/
def Tile.isolateTickets (tl : Tile) : Tile :=
  let es := (tl.tickets.filter (fun e => e.2.held && e.2.result.isNone)).map (·.1)
  es.foldl (fun tl e => tl.complete e 0x04 0) tl

/-- R509, domain 0: threads FREE, tickets completed and let go, V, M and T registers zeroed, slots LOADED. GEN of the tickets and
a LOAD in progress stay (DESIGN CHOICE, log 69). -/
def Tile.resetCore (tl : Tile) : Tile :=
  let tl := { tl.isolateTickets with
    threads := [], v := [], m := [], t := [], vBad := 0, mBad := 0, tBad := 0, vUc := 0, mUc := 0, tUc := 0,
    hatchQ := [], xhQ := [], memQ := [], hatchRun := [], xhRun := [], memRun := [], commRun := [] }
  ({ tl with tickets := tl.tickets.map (fun (e : Nat × Ticket) => (e.1, { e.2 with held := false, result := none })) }).settle

/-- A tile event: the tile changed, then what follows from the change. -/
def State.tileStep (s : State) (t : Nat) (f : Tile → Tile) : State := s.updTile t (fun tl => (f tl).settle)

/-! ### Residue checks and flags of a finished operation (R73, R77, R78) -/

/-- The flags that an operation's result sets in its engine. -/
def State.engineFlags (s : State) (t : Nat) (op : EngOp) (fl : Flags) : State := s.raiseFlags t (op.cls == 3) fl

/-- R77, R78: residue mismatches of a tile's engine are counted and reported, one record for each. -/
def State.residueHits (s : State) (t : Nat) (xh : Bool) (detail n : Nat) (injected noEsc : Bool) : State :=
  let s := s.stick (if xh then F.TILE_RESIDUE_STATUS_XH_ERR else F.TILE_RESIDUE_STATUS_HATCH_ERR) [t]
  let r := s.bump F.TILE_RESIDUE_CNT_COUNT [t] n
  let s := if r.2 then r.1.stickEv F.TILE_RESIDUE_STATUS_CNT_SAT [t] else r.1
  (List.range n).foldl (fun s _ =>
    s.report ⟨tileDie t, 2, if xh then 6 else 5, t, detail, 0, injected, noEsc, false⟩) s

/-- R77, R78: residue mismatches of an instruction. -/
def State.residueFault (s : State) (t : Nat) (op : EngOp) (n : Nat) (injected noEsc : Bool) : State :=
  s.residueHits t (op.cls == 3) op.thread n injected noEsc

/-- R76, R511: mismatches that the hardware meets by itself, beside those injected: no more than the checks of a crosshatch unit
that no injection hit; none in a hatch instruction that one hit, whose every comparison then fails by it. -/
def ownHits (xh : Bool) (checks injected found : Nat) : Nat :=
  if xh then min found (checks - injected) else if injected < checks then found else 0

/-- R76, R77, R511: an operation that has computed its result meets its residue checks; `found` mismatches are what the
hardware meets by itself. An instruction of the hatch engine that an injection hits counts one (DESIGN CHOICE, log 69). -/
def State.endCompute (s : State) (t : Nat) (op : EngOp) (out : EngOut) (found : Nat) : State :=
  let s := s.engineFlags t op out.flags
  let n := residueChecks op
  let j := if out.status = 0 then s.injected (if op.cls = 3 then 6 else 5) (tileDie t) t 0 n else (0, 0, false, s)
  let s := j.2.2.2
  let own := if out.status = 0 then ownHits (op.cls == 3) n j.1 found else 0
  if j.1 + own = 0 then s.tileStep t (fun tl => (tl.finish op out).dropOp op.entry)
  else
    let s := s.tileStep t (fun tl => tl.failOp op 0x02 0)
    let s := if j.1 = 0 then s else s.residueFault t op j.1 true j.2.2.1
    if own = 0 then s else s.residueFault t op own false false

end Sys2Proof.Machine
end

