-- ==== Sys2Proof/Machine/Engine.lean ====
section
/-! DEFINITION. The engines of a tile at work (R90, R114, R136, R165 to R181): admission when an operation starts, and the
data of memory instructions and products when it ends. -/
namespace Sys2Proof.Machine

/-! ### The bytes of a memory instruction (R136, R173 to R178) -/

/-- Whether a byte of an element plane holds part of an active element. -/
def byteActive (bits : Nat) (active : List Bool) (k : Nat) : Bool :=
  let lo := 8 * k / bits
  (List.range ((8 * k + 7) / bits - lo + 1)).any (fun i => nth false active (lo + i))

/-- Bytes of the element plane of 256 elements (R173). -/
def planeBytes (f : Fmt) : Nat := 256 * f.bits / 8

/-- Bytes of the scale plane of 256 elements (R173). -/
def scaleBytes (f : Fmt) (bs : Nat) : Nat := if f.isBlock then 256 / bs else 0

/-- Base of the element plane of row `r` (R170, R176). -/
def rowElem (op : EngOp) (r : Nat) : Nat := (elemBase op.w op.sc.sa + r * fieldOf op.sc.ss 0 32) % 2 ^ 64

/-- Base of the scale plane of row `r` (R176). -/
def rowScale (op : EngOp) (r : Nat) : Nat := (op.sc.sc + r * fieldOf op.sc.ss 32 32) % 2 ^ 64

/-- Rows that a load or store of V or T registers moves. -/
def opRows (op : EngOp) : Nat := if op.opc = 2 ∨ op.opc = 3 then wRows op.w else 1

/-- Bytes of the word that LDS, STS and the atomics access. -/
def wordBytes (opc : Nat) : Nat := if opc ≤ 5 then 8 else 4

/-- The bytes of an operation in the numbering of R136: address, and whether an active lane uses it. -/
def opBytes (op : EngOp) (active : List Bool) : List (Nat × Bool) :=
  if op.opc ≤ 3 then
    match Fmt.ofCode (wFA op.w) with
    | none => []
    | some f =>
      let bs := blockSize (wBS op.w)
      ((List.range (opRows op)).map (fun r =>
        (List.range (planeBytes f)).map (fun k => ((rowElem op r + k) % 2 ^ 64, byteActive f.bits active k)) ++
        (List.range (scaleBytes f bs)).map (fun j =>
          ((rowScale op r + j) % 2 ^ 64, ((active.drop (j * bs)).take bs).any id)))).flatten
  else (List.range (wordBytes op.opc)).map (fun k => ((elemBase op.w op.sc.sa + k) % 2 ^ 64, true))

/-- The 64-byte pieces that hold active bytes. -/
def piecesOf (bytes : List (Nat × Bool)) : List Nat :=
  bytes.foldl (fun ps b => if b.2 then addWord (b.1 / 64) ps else ps) []

/-- R136: the offset of the operation's first byte that lies in one of the failed pieces. -/
def firstFailed (bytes : List (Nat × Bool)) (failed : List Nat) : Nat :=
  (bytes.map (·.1)).findIdx (fun a => failed.contains (a / 64))

/-- R114, R116, R172: the end that an access meets before it moves data: a piece outside the windows, or in another window than
the operation's first byte. -/
def State.accessVerdict (s : State) (who : Agent) (bytes : List (Nat × Bool)) : Option (Nat × Nat) :=
  let ps := piecesOf bytes
  let win := (bytes.find? (·.2)).bind (fun b => s.byteWin b.1)
  match ps.filter (fun p => (s.byteWin (64 * p)).isNone || s.byteWin (64 * p) != win) with
  | p :: r => some (0x07, firstFailed bytes (p :: r))
  | [] =>
    match ps.filter (fun p => !s.admits (64 * p) 64 who) with
    | p :: r => some (0x06, firstFailed bytes (p :: r))
    | [] => none

/-- R115: the plates that a list of pieces touches. -/
def platesTouched (ps : List Nat) : List Nat :=
  ps.foldl (fun l p => (platesOf (64 * p) 64).foldl (fun l q => addWord q l) l) []

/-- R175: a store's block that is split by the mask or mixes scale codes: status and DETAIL; of several, that of the lowest row
and block, a split before mixed codes (DESIGN CHOICE, log 69). -/
def storeVerdict (tl : Tile) (op : EngOp) (active : List Bool) : Option (Nat × Nat) :=
  if (op.opc = 1 ∨ op.opc = 3) ∧ codeIsBlock (wFA op.w) then
    let bs := blockSize (wBS op.w)
    (List.range (opRows op)).findSome? (fun r =>
      let row := lanes256 (if op.opc = 1 then tl.vReg (wA op.w) else tl.tRow (wA op.w % 8) r)
      (List.range (256 / bs)).findSome? (fun j =>
        let on := ((active.zip row).drop (j * bs)).take bs
        let live := (on.filter (·.1)).map (·.2)
        let d := j + (if op.opc = 3 then 256 * r else 0)
        if !live.isEmpty && decide (live.length < bs) then some (0x10, d)
        else if live.any (fun l => fieldOf l 24 8 != fieldOf (nth 0 live 0) 24 8) then some (0x11, d)
        else none))
  else none

/-- The mask of a memory instruction. -/
def memMask (tl : Tile) (op : EngOp) : List Bool :=
  if op.opc ≤ 3 then activeMask tl op.w else []

/-- R90, R93, R114, R136, R172, R175: a memory instruction starts; it ends at once or runs with its plates noted. A poisoned
source comes before an address that is not admitted (DESIGN CHOICE, log 69). -/
def State.startMemory (s : State) (t : Nat) (op : EngOp) : State :=
  let tl := s.tile t
  match tl.sourceVerdict op with
  | some v => s.tileStep t (fun tl => tl.failOp op v.1 v.2)
  | none =>
    let act := memMask tl op
    match storeVerdict tl op act with
    | some v => s.tileStep t (fun tl => tl.failOp op v.1 v.2)
    | none =>
      let bytes := opBytes op act
      match s.accessVerdict (.burin t) bytes with
      | some v => s.tileStep t (fun tl => tl.failOp op v.1 v.2)
      | none => s.tileStep t (fun tl => let tl := tl.dropOp op.entry
                                       { tl with memRun := tl.memRun ++ [{ op with plates := platesTouched (piecesOf bytes) }] })

/-- R115, R167: a product starts: its admission, its sources and its scale codes, in this order. One that a plate does not admit
holds no hand-over up. -/
def State.startXmm (s : State) (t : Nat) (op : EngOp) : State :=
  let tl := s.tile t
  let ps := addWord (op.sc.sb / 64) [] ++ ((List.range (ceilDiv (xmmBytes op.w) 64)).map (· + op.sc.sb / 64)) ++
    (List.range (ceilDiv (xmmScaleBytes op.w) 64)).map (· + op.sc.sc / 64)
  let refused := ps.any (fun p => !s.admits (64 * p) 64 (.burin t))
  let verdict : Option (Nat × Nat) :=
    if refused then some (0x06, 0)
    else match tl.sourceVerdict op with
      | some v => some v
      | none => (xmmMixed tl op.w).map (fun d => (0x11, d))
  s.tileStep t (fun tl => let tl := tl.dropOp op.entry
                         { tl with xhRun := tl.xhRun ++ [{ op with plates := if refused then [] else platesTouched ps, verdict := verdict }] })

/-- R90, R93: a hatch or chain instruction starts. -/
def State.startHatch (s : State) (t : Nat) (op : EngOp) : State :=
  let v := (s.tile t).sourceVerdict op
  s.tileStep t (fun tl => let tl := tl.dropOp op.entry
                         { tl with hatchRun := tl.hatchRun ++ [{ op with verdict := v }] })

/-! ### Ends -/

/-- The operation of an engine that holds an entry. -/
def opAt (l : List EngOp) (entry : Nat) : Option EngOp := l.find? (fun o => o.entry == entry)

/-- R187: a hatch or chain instruction ends; `residue` counts the mismatches that its checks find by themselves. -/
def State.hatchEnd (s : State) (t entry : Nat) (residue : Nat) : State :=
  match opAt (s.tile t).hatchRun entry with
  | none => s
  | some op =>
    match op.verdict with
    | some v => s.tileStep t (fun tl => tl.failOp op v.1 v.2)
    | none => s.endCompute t op (if op.cls = 2 then chainOut (s.tile t) op else hatchOut (s.tile t) op) residue

/-- R115: an admitted access to a plate has not ended: a memory operation's, an engine's or a datamover's. -/
def State.plateInUse (s : State) (p : Nat) : Bool :=
  (List.range 64).any (fun t => (s.tile t).usesPlate p) ||
  s.dm.any (fun c => (match c.2.desc with
    | some d => (platesOf d.src d.len ++ platesOf d.dst d.len).contains p
    | none => false) && !c.2.asking)

/-- R115: hand-overs that waited for an access that has ended take effect. -/
def State.settlePlates (s : State) : State :=
  (List.range 64).foldl (fun s p =>
    match (s.tile p).handOver with
    | none => s
    | some v =>
      if s.plateInUse p then s
      else
        let s := s.updTile p (fun tl => { tl with handOver := none })
        ((s.wr F.PLATE_OWNER_KIND [p] (v % 4)).wr F.PLATE_OWNER_TILE [p] (v / 4 % 16)).wr F.PLATE_OWNER_PENDING [p] 0) s

/-- R167: the lines of a plane, 64 bytes each. -/
def planeLines (a n : Nat) : List (Nat × Nat) := (List.range (ceilDiv n 64)).map (fun i => (a + 64 * i, min 64 (n - 64 * i)))

/-- R167: lines read one after another up to the first that reads as uncorrectable or poisoned; whether one does. -/
def State.readLines (s : State) (ecc : Ecc) : List (Nat × Nat) → Bool × State
  | [] => (false, s)
  | l :: ls =>
    let r := s.readMem l.1 l.2 ecc
    if r.2.1.isEmpty then r.2.2.readLines ecc ls else (true, r.2.2)

/-- R165, R167: a product ends; the right operand is read with what ECC finds in it, the scale plane first, up to the first bad
line. What the unit's checks find stands before what the plate's do, as R502 orders them. -/
def State.xmmEnd (s : State) (t entry : Nat) (ecc : Ecc) (residue : Nat) : State :=
  match opAt (s.tile t).xhRun entry with
  | none => s
  | some op =>
    let lines := planeLines op.sc.sc (xmmScaleBytes op.w) ++ planeLines op.sc.sb (xmmBytes op.w)
    let s := match op.verdict with
      | some v => s.tileStep t (fun tl => tl.failOp op v.1 v.2)
      | none =>
        let r := s.readLines ecc lines
        if r.1 then r.2.tileStep t (fun tl => tl.failOp op 0x03 0)
        else
          ((s.endCompute t op (xmmOut (s.tile t) op (s.mem.read op.sc.sb (xmmBytes op.w))
            (s.mem.read op.sc.sc (xmmScaleBytes op.w))) residue).readLines ecc lines).2
    s.settlePlates

/-- The rows that a load leaves in its register (R174, R176): number of the row, its lanes. -/
def loadRows (tl : Tile) (op : EngOp) (active : List Bool) (mem : Memory) : List (Nat × BitVec 8192) :=
  match Fmt.ofCode (wFA op.w) with
  | none => []
  | some f =>
    let bs := blockSize (wBS op.w)
    (List.range (opRows op)).map (fun r =>
      let eb := mem.read (rowElem op r) (planeBytes f)
      let sb := mem.read (rowScale op r) (scaleBytes f bs)
      let lanes := (List.range 256).map (fun i =>
        toLane f (planeElem eb f.bits i) (if f.isBlock then (nth 0 sb (i / bs)).toNat else 0))
      let old := lanes256 (if op.opc = 0 then tl.vReg (wA op.w) else tl.tRow (wA op.w % 8) r)
      ((if op.opc = 0 then wA op.w else 16 * (wA op.w % 8) + r), maskedRaw (wMZ op.w) active lanes old))

/-- The packed bytes of 256 element codes over old bytes; only active elements are replaced (R43, R175). -/
def packPlane (bits : Nat) (active : List Bool) (codes : List Nat) (old : List Byte) : List Byte :=
  let n := ((List.range 256).zip (active.zip codes)).foldl (fun n p =>
    if p.2.1 then setFieldOf n (p.1 * bits) bits p.2.2 else n) (leNat old)
  leBytes old.length n

/-- Active bytes of a plane cut in runs of consecutive addresses. -/
def byteRuns : List (Nat × Bool × Byte) → List (Nat × List Byte)
  | [] => []
  | (a, on, b) :: t =>
    let rest := byteRuns t
    if on then
      match rest with
      | (c, bs) :: more => if c = a + 1 then (a, b :: bs) :: more else (a, [b]) :: (c, bs) :: more
      | [] => [(a, [b])]
    else rest

/-- A plane written, active bytes only. -/
def State.writePlane (s : State) (base : Nat) (on : List Bool) (bytes : List Byte) : State :=
  (byteRuns (((List.range bytes.length).map (· + base)).zip (on.zip bytes))).foldl (fun s r => s.writeMem r.1 r.2) s

/-- R175, R176: the bytes of a store written. -/
def State.storeRows (s : State) (tl : Tile) (op : EngOp) (active : List Bool) : State :=
  match Fmt.ofCode (wFA op.w) with
  | none => s
  | some f =>
    let bs := blockSize (wBS op.w)
    (List.range (opRows op)).foldl (fun s r =>
      let row := lanes256 (if op.opc = 1 then tl.vReg (wA op.w) else tl.tRow (wA op.w % 8) r)
      let pb := planeBytes f
      let s := s.writePlane (rowElem op r) ((List.range pb).map (byteActive f.bits active))
        (packPlane f.bits active (row.map (ofLane f)) (s.mem.read (rowElem op r) pb))
      s.writePlane (rowScale op r)
        ((List.range (scaleBytes f bs)).map (fun j => ((active.drop (j * bs)).take bs).any id))
        ((List.range (scaleBytes f bs)).map (fun j => BitVec.ofNat 8 (fieldOf (nth 0 row (j * bs)) 24 8)))) s

/-- R178: the new word and the value returned of an atomic. -/
def atomicOut (opc fm old x : Nat) : Nat × Nat :=
  let new :=
    if opc = 7 then x
    else if fm = 5 then (storeElem (Acc.add (decodeLane .w32 old).1 (decodeLane .w32 x).1).1 .w32 Rnd.near).1
    else (old + x) % 2 ^ 32
  (new, if fm = 10 then wrapInt (sextOf old 32) 64 else old)

/-- Words of an operation's active bytes, rising. -/
def opWords (bytes : List (Nat × Bool)) : List Nat :=
  bytes.foldl (fun ws b => if b.2 then addWord (b.1 / 8) ws else ws) []

/-- R110: of a write that ends with an error, each naturally aligned 64-byte piece is as it was or holds the intended data, which
free values decide; `after` is the state in which all of them hold it. -/
def State.torn (before after : State) (ps : List Nat) : State :=
  ps.foldl (fun s p =>
    let d := s.draw
    if bitOf d.1.toNat 0 then d.2
    else
      let ws := wordsOf (64 * p) 64
      { d.2 with
        mem := d.2.mem.write (64 * p) (before.mem.read (64 * p) 64),
        memPoison := (ws.filter before.memPoison.contains).foldl (fun l w => addWord w l) (dropWords ws d.2.memPoison) }) after

/-- R174 to R181: what a store, STS or an atomic writes; an atomic's value read. -/
def State.memoryWrite (s : State) (tl : Tile) (op : EngOp) (act : List Bool) : State × Nat :=
  let a := elemBase op.w op.sc.sa
  if op.opc = 1 ∨ op.opc = 3 then (s.storeRows tl op act, 0)
  else if op.opc = 5 then (s.writeMem a (leBytes 8 op.sc.reg), 0)
  else if op.opc = 6 ∨ op.opc = 7 then
    let o := atomicOut op.opc (wFA op.w) (leNat (s.mem.read a 4)) (op.sc.ss % 2 ^ 32)
    (s.writeMem a (leBytes 4 o.1), o.2)
  else (s, 0)

/-- R110: a store or an atomic that is broken off: each piece is as it was or holds the intended data. -/
def State.breakStore (s : State) (t : Nat) (op : EngOp) : State :=
  let tl := s.tile t
  let act := memMask tl op
  if op.opc = 0 ∨ op.opc = 2 ∨ op.opc = 4 then s
  else s.torn (s.memoryWrite tl op act).1 (piecesOf (opBytes op act))

/-- R110, R508: every store that runs on a tile is broken off. -/
def State.breakStores (s : State) (t : Nat) : State := (s.tile t).memRun.foldl (fun s op => s.breakStore t op) s

/-- R106, R110, R136, R174 to R181: a memory instruction ends. An access that spans pieces is performed at once (log 61). -/
def State.memoryEnd (s : State) (t entry : Nat) (ecc : Ecc) (fail : MemFail) : State :=
  match opAt (s.tile t).memRun entry with
  | none => s
  | some op =>
    let tl := s.tile t
    let act := memMask tl op
    let bytes := opBytes op act
    let done (s : State) (vs ts : List (Nat × BitVec 8192)) (sv : Option Word) : State :=
      s.tileStep t (fun tl => (tl.finish op ⟨0, 0, .none, vs, [], ts, sv⟩).dropOp op.entry)
    let broken (status off : Nat) : State :=
      (s.breakStore t op).tileStep t (fun tl => tl.failOp op status off)
    let s := match fail with
      | .isolated off => broken 0x04 off
      | .timeout off => broken 0x05 off
      | .nothing =>
        if op.opc = 1 ∨ op.opc = 3 ∨ op.opc = 5 then done (s.memoryWrite tl op act).1 [] [] none
        else
          let r := s.checkWords (opWords bytes) ecc
          let s := r.2
          if !r.1.isEmpty then
            s.tileStep t (fun tl => tl.failOp op 0x03 (firstFailed bytes (r.1.map (· / 8))))
          else if op.opc = 0 then done s (loadRows tl op act s.mem) [] none
          else if op.opc = 2 then done s [] (loadRows tl op act s.mem) none
          else if op.opc = 4 then done s [] [] (some (BitVec.ofNat 64 (leNat (s.mem.read (elemBase op.w op.sc.sa) 8))))
          else
            let o := s.memoryWrite tl op act
            done o.1 [] [] (if wBS op.w = 1 then some (BitVec.ofNat 64 o.2) else none)
    s.settlePlates

end Sys2Proof.Machine
end

