-- ==== Sys2Proof/Machine/Tm.lean ====
section
/-! DEFINITION. The switch-core and traffic-manager slices (R339 to R368): queue choice, admission to the output buffer,
queue residency, policing, random early drop, scheduling, samples and counters. -/
namespace Sys2Proof.Machine

/-- A tile's slice. -/
def State.tm (s : State) (t : Nat) : TmTile := Tbl.look TmTile.fresh s.fab.tm t

/-- A tile's slice changed. -/
def State.updTm (s : State) (t : Nat) (f : TmTile → TmTile) : State :=
  { s with fab := { s.fab with tm := Tbl.upd TmTile.fresh t f s.fab.tm } }

/-- R368: a counter of a slice; its saturation sets a bit and raises an event. -/
def State.tmCount (s : State) (t n k : Nat) : State :=
  let r := s.bump F.TM_CNT_COUNT [t, n] k
  if r.2 then
    (r.1.setRaw .tmCntSat [t] (r.1.rawReg .tmCntSat [t] ||| 2 ^ n)).event .tmCntSat [t]
  else r.1

/-! ### Admission (R346, R348, R354) -/

/-- Cells of the shared pool that are free. -/
def State.sharedFree (s : State) (t : Nat) : Nat :=
  let sum (f : Fld) : Nat := (List.range 8).foldl (fun n c => n + s.rd f [t, c]) 0
  16384 - sum F.TM_BUF_CLASS_MIN - sum F.TM_BUF_CLASS_ESC_RES - s.rd F.TM_BUF_CFG_REORDER [t] - (s.tm t).shared

/-- R346: how a packet of `n` cells would be admitted: cells from the shared pool, and whether the reserve takes it. -/
def State.tmAdmit (s : State) (t c n : Nat) (onEscape : Bool) : Option (Nat × Bool) :=
  let tm := s.tm t
  let occ := Tbl.look 0 tm.occ c
  let g := s.rd F.TM_BUF_CLASS_MIN [t, c] - occ
  let need := n - g
  if occ + n ≤ s.rd F.TM_BUF_CLASS_MAX [t, c] ∧ need ≤ s.sharedFree t then some (need, false)
  else if onEscape ∧ c ≠ 7 ∧ Tbl.look 0 tm.escOcc c + n ≤ s.rd F.TM_BUF_CLASS_ESC_RES [t, c] then some (0, true)
  else none

/-- Cells taken by an admitted packet. -/
def TmTile.take (tm : TmTile) (q : QPkt) : TmTile :=
  if q.esc then { tm with escOcc := Tbl.upd 0 q.pkt.cls (· + q.cells) tm.escOcc }
  else { tm with occ := Tbl.upd 0 q.pkt.cls (· + q.cells) tm.occ, shared := tm.shared + q.shared }

/-- R346: cells return to the pool that they came from. -/
def TmTile.give (tm : TmTile) (q : QPkt) : TmTile :=
  if q.esc then { tm with escOcc := Tbl.upd 0 q.pkt.cls (· - q.cells) tm.escOcc }
  else { tm with occ := Tbl.upd 0 q.pkt.cls (· - q.cells) tm.occ, shared := tm.shared - q.shared }

/-- R354: queues of the cache that are in use: those with packets, those being filled, and resident empty ones. -/
def TmTile.cached (tm : TmTile) : Nat :=
  10 + (tm.queues.filter (fun e => decide (10 ≤ e.1))).length + tm.filling.length + tm.lru.length

/-- R354: a queue's state is on chip. -/
def TmTile.resident (tm : TmTile) (j : Nat) : Bool :=
  decide (j < 10) || (Tbl.find j tm.queues).isSome || tm.lru.contains j

/-- R354: whether a packet for a queue can be taken: its state is on chip or coming, or an entry can be had. -/
def TmTile.canCache (tm : TmTile) (j : Nat) : Bool :=
  tm.resident j || (Tbl.find j tm.filling).isSome || decide (tm.cached < 2048) || !tm.lru.isEmpty

/-! ### Queue choice (R343, R344) -/

/-- The lead tile of a port. -/
def leadTile (p : Nat) : Nat := portTile p

/-- R343: the tiles of a port whose slice is not in reset. -/
def State.liveTiles (s : State) (p : Nat) : List Nat :=
  ((List.range (portTiles p)).map (· + portTile p)).filter (fun t => !s.inReset 3 t)

/-- R343: the hash of a packet; `here` when its route entry is LOCAL. -/
def flowHash (p : Pkt) (here : Bool) : Nat :=
  crc32c (leBytes 2 p.dst ++ leBytes 2 p.src ++ leBytes 1 p.cls ++
    (if p.kind = kSERVE then (p.payload.drop 56).take 8
     else if here then leBytes 4 p.comm ++ leBytes 4 0
     else leBytes 4 p.comm ++ leBytes 4 p.chunk))

/-- R343: tile and local queue of a packet, and whether the fallback was used. A tile forced from outside is that of an
Ethernet port (R404). -/
def State.selectQueue (s : State) (p : Pkt) (port : Nat) (here : Bool) (force : Option Nat) : Option (Nat × Nat × Bool) :=
  let h := flowHash p here
  let live := s.liveTiles port
  let tile? : Option Nat := match force with
    | some t => if live.contains t then some t else none
    | none => if live.isEmpty then none else some (nth 0 live (fieldOf h 16 16 % live.length))
  tile?.map (fun t =>
    let lead := leadTile port
    let j :=
      if (p.kind = kPARTIAL ∨ p.kind = kRESULT) ∧ bitOf p.arg 3 then (if p.cls = 2 then 8 else 9)
      else s.rd F.TM_QMAP_QUEUE [lead, p.cls] + fieldOf h 0 16 % 2 ^ s.rd F.TM_QMAP_COUNT_LOG2 [lead, p.cls]
    let g := s.rd F.TM_QCFG_GROUP [t, j]
    if 10 ≤ j ∧ (!s.on F.TM_GROUP_VALID [t, g] ∨ s.rd F.TM_GROUP_CLASS [t, g] ≠ p.cls) then (t, p.cls, true)
    else (t, j, false))

/-! ### Scheduling (R356 to R359) -/

/-- A port's scheduler. -/
def State.schedOf (s : State) (p : Nat) : SchedSt := Tbl.look SchedSt.fresh s.fab.sched p

/-- A port's scheduler changed. -/
def State.updSched (s : State) (p : Nat) (f : SchedSt → SchedSt) : State :=
  { s with fab := { s.fab with sched := Tbl.upd SchedSt.fresh p f s.fab.sched } }

/-- R357: whether tag `a` precedes tag `b`, modulo 2^48. -/
def precedes (a b : Nat) : Bool := decide (2 ^ 47 ≤ (a + 2 ^ 48 - b % 2 ^ 48) % 2 ^ 48)

/-- R357: the increment of a child for a packet. -/
def tagInc (len w : Nat) : Nat := ceilDiv (len * 65536) (max 1 w)

/-- The children of the scheduling tree: a class of a port; a group by tile offset and number; a queue. -/
inductive Node where
  | cls (c : Nat)
  | group (off g : Nat)
  | queue (off j : Nat)
  deriving DecidableEq, Repr

/-- The number under which a node's tag and bucket are kept, also its index for ties. -/
def Node.key : Node → Nat
  | .cls c => c
  | .group off g => 100 + off * 256 + g
  | .queue off j => 10000 + off * 16384 + j

/-- Number of a virtual time: the port's by tier, a class's by tier, a group's. -/
def vKey : Option Node → Nat → Nat
  | none, tier => tier
  | some (.cls c), tier => 10 + 4 * c + tier
  | some n, _ => 100 + n.key

/-- Weight of a child (R357). -/
def State.nodeWeight (s : State) (p : Nat) : Node → Nat
  | .cls c => s.rd F.TM_CLASS_SCHED_WEIGHT [leadTile p, c]
  | .group off g => s.rd F.TM_GROUP_WEIGHT [leadTile p + off, g]
  | .queue off j => s.rd F.TM_QCFG_WEIGHT [leadTile p + off, j]

/-- Tier of a child (R356). -/
def State.nodeTier (s : State) (p : Nat) : Node → Nat
  | .cls c => s.rd F.TM_CLASS_SCHED_TIER [leadTile p, c]
  | .group off g => s.rd F.TM_GROUP_TIER [leadTile p + off, g]
  | .queue _ _ => 0

/-- The group node of a queue. -/
def State.groupOf (s : State) (p off j : Nat) : Node := .group off (s.rd F.TM_QCFG_GROUP [leadTile p + off, j])

/-- The class of a group node. -/
def State.classOf (s : State) (p : Nat) : Node → Nat
  | .group off g => s.rd F.TM_GROUP_CLASS [leadTile p + off, g]
  | .cls c => c
  | .queue _ _ => 0

/-- The queues of a port that hold packets: tile offset, queue, first packet. -/
def State.portHeads (s : State) (p : Nat) : List (Nat × Nat × QPkt) :=
  ((List.range (portTiles p)).map (fun off =>
    (s.tm (portTile p + off)).queues.filterMap (fun e => match e.2 with
      | q :: _ => some (off, e.1, q)
      | [] => none))).flatten

/-- The node of the queue at the head of an entry of `portHeads`, or an ancestor of it below `parent`. -/
def State.childUnder (s : State) (p : Nat) (parent : Option Node) (h : Nat × Nat × QPkt) : Node :=
  match parent with
  | none => .cls (s.classOf p (s.groupOf p h.1 h.2.1))
  | some (.cls _) => s.groupOf p h.1 h.2.1
  | some _ => .queue h.1 h.2.1

/-- The heads that lie under a node. -/
def State.under (s : State) (p : Nat) (parent : Option Node) (hs : List (Nat × Nat × QPkt)) : List (Nat × Nat × QPkt) :=
  match parent with
  | none => hs
  | some (.cls c) => hs.filter (fun h => s.classOf p (s.groupOf p h.1 h.2.1) == c)
  | some n => hs.filter (fun h => s.groupOf p h.1 h.2.1 == n)

/-- The children of a node among heads, each once. -/
def State.childrenOf (s : State) (p : Nat) (parent : Option Node) (hs : List (Nat × Nat × QPkt)) : List Node :=
  (hs.map (s.childUnder p parent)).foldl (fun ns n => if ns.contains n then ns else ns ++ [n]) []

/-- The child of lowest tier with the smallest tag, lowest index on a tie (R356, R357). -/
def State.bestChild (s : State) (p : Nat) (ns : List Node) : Option Node :=
  let f (n : Node) : Nat := Tbl.look 0 (s.schedOf p).f n.key
  ns.foldl (fun (b : Option Node) n =>
    match b with
    | none => some n
    | some m =>
      let tn := s.nodeTier p n
      let tm := s.nodeTier p m
      if tn < tm ∨ (tn = tm ∧ (precedes (f n) (f m) ∨ (f n = f m ∧ n.key < m.key))) then some n else some m) none

/-- The head that lies below the best children from a node down, three levels at most. -/
def State.bestHead (s : State) (p : Nat) : Nat → Option Node → List (Nat × Nat × QPkt) → Option (Nat × Nat × QPkt)
  | 0, _, hs => hs.head?
  | k + 1, parent, hs =>
    let hs := s.under p parent hs
    match s.bestChild p (s.childrenOf p parent hs) with
    | none => none
    | some (.queue off j) => hs.find? (fun h => h.1 == off && h.2.1 == j)
    | some n => s.bestHead p k (some n) hs

/-- Wire bytes of a child's next packet (R357). -/
def State.nextLen (s : State) (p : Nat) (n : Node) (hs : List (Nat × Nat × QPkt)) : Nat :=
  let h := match n with
    | .queue off j => hs.find? (fun (h : Nat × Nat × QPkt) => h.1 == off && h.2.1 == j)
    | .cls _ => s.bestHead p 2 (some n) hs
    | .group _ _ => s.bestHead p 1 (some n) hs
  match h with | some x => x.2.2.pkt.wire | none => 0

/-- A child's tag set. -/
def State.setTag (s : State) (p : Nat) (n : Node) (v : Nat) : State :=
  s.updSched p (fun c => { c with f := Tbl.put n.key (v % 2 ^ 48) c.f })

/-- The virtual time a child is shared under. -/
def State.vOf (s : State) (p : Nat) (parent : Option Node) (n : Node) : Nat :=
  Tbl.look 0 (s.schedOf p).v (vKey parent (s.nodeTier p n))

/-- R357, wake: a child goes from empty to non-empty with a packet of `len` bytes. -/
def State.wakeNode (s : State) (p : Nat) (parent : Option Node) (n : Node) (len : Nat) : State :=
  s.setTag p n (s.vOf p parent n + tagInc len (s.nodeWeight p n))

/-- A packet joins a queue whose state is on chip; nodes that were empty wake (R354, R357). -/
def State.joinQueue (s : State) (p t j : Nat) (q : QPkt) : State :=
  let off := t - portTile p
  let hs := s.portHeads p
  let g := s.groupOf p off j
  let c := Node.cls (s.classOf p g)
  let qn := Node.queue off j
  let qEmpty := !hs.any (fun h => h.1 == off && h.2.1 == j)
  let gEmpty := (s.under p (some g) hs).isEmpty
  let cEmpty := (s.under p (some c) hs).isEmpty
  let s := if qEmpty then s.wakeNode p (some g) qn q.pkt.wire else s
  let s := if gEmpty then s.wakeNode p (some c) g q.pkt.wire else s
  let s := if cEmpty then s.wakeNode p none c q.pkt.wire else s
  s.updTm t (fun tm => { tm with queues := Tbl.put j (Tbl.look [] tm.queues j ++ [q]) tm.queues, lru := tm.lru.erase j })

/-- R346, R354: an admitted packet takes its cells and joins its queue, or waits for the queue's state. -/
def State.tmEnqueue (s : State) (p t j : Nat) (q : QPkt) : State :=
  let s := s.updTm t (fun tm => tm.take q)
  let s := if q.esc then s.tmCount t 30 1 else s
  let tm := s.tm t
  if tm.resident j then s.joinQueue p t j q
  else
    let s := s.tmCount t 21 1
    let full := decide (2048 ≤ tm.cached) && (Tbl.find j tm.filling).isNone
    s.updTm t (fun tm => { tm with filling := Tbl.put j (Tbl.look [] tm.filling j ++ [q]) tm.filling,
                                   lru := if full then tm.lru.dropLast else tm.lru })

/-- R354: a queue's state arrives from HBM; the packets that waited join it in their order. -/
def State.queueFilled (s : State) (t j : Nat) : State :=
  let tm := s.tm t
  match Tbl.find j tm.filling with
  | none =>
    if s.fab.qfetch.contains (t, j) then
      ({ s with fab := { s.fab with qfetch := s.fab.qfetch.erase (t, j) } }).updTm t (fun tm =>
        if tm.resident j then tm
        else { tm with lru := j :: (if 2048 ≤ tm.cached then tm.lru.dropLast else tm.lru) })
    else s
  | some qs =>
    let s := s.updTm t (fun tm => { tm with filling := Tbl.del j tm.filling })
    qs.foldl (fun s q => s.joinQueue (tilePort t) t j q) s

/-! ### Buckets (R358, R359, R361) -/

/-- Bytes in units of 1/800 byte: a rate unit of 10 Mbit/s fills one unit each nanosecond. -/
def bucketUnit : Nat := 800

/-- The shaper of a node: enabled, rate, burst. -/
def State.shaper (s : State) (p : Nat) : Option Node → Bool × Nat × Nat
  | none => let f := [leadTile p]; (s.on F.TM_PORT_SHAPE_SH_EN f, s.rd F.TM_PORT_SHAPE_RATE f, s.rd F.TM_PORT_SHAPE_BURST f)
  | some (.cls c) =>
    let f := [leadTile p, c]
    (s.on F.TM_CLASS_SCHED_SH_EN f, s.rd F.TM_CLASS_SCHED_RATE f, s.rd F.TM_CLASS_SCHED_BURST f)
  | some (.group off g) =>
    let f := [leadTile p + off, g]
    (s.on F.TM_GROUP_SH_EN f, s.rd F.TM_GROUP_RATE f, s.rd F.TM_GROUP_BURST f)
  | some (.queue _ _) => (false, 0, 0)

/-- The number under which a shaper's bucket is kept. -/
def tokKey : Option Node → Nat
  | none => 99
  | some n => n.key

/-- R358: the tokens of a node now. -/
def State.tokens (s : State) (p : Nat) (n : Option Node) : Int :=
  let sh := s.shaper p n
  let t := Tbl.look ((0 : Int), 0) (s.schedOf p).tok (tokKey n)
  let full : Int := ((sh.2.2 * 64 * bucketUnit : Nat) : Int)
  let v := t.1 + ((sh.2.1 * (s.now - t.2) : Nat) : Int)
  if v > full then full else v

/-- R358: a node's shaper allows it to send. -/
def State.shaperOk (s : State) (p : Nat) (n : Option Node) : Bool :=
  !(s.shaper p n).1 || decide (0 < s.tokens p n)

/-- R358: a packet's bytes are deducted from a node's bucket. -/
def State.deduct (s : State) (p : Nat) (n : Option Node) (bytes : Nat) : State :=
  if (s.shaper p n).1 then
    let v := s.tokens p n - ((bytes * bucketUnit : Nat) : Int)
    s.updSched p (fun c => { c with tok := Tbl.put (tokKey n) (v, s.now) c.tok })
  else s

/-- R359: a shaper's tokens set to zero. -/
def State.zeroTokens (s : State) (p : Nat) (n : Option Node) : State :=
  s.updSched p (fun c => { c with tok := Tbl.put (tokKey n) ((0 : Int), s.now) c.tok })

/-- A policer's buckets after a refill (R361). -/
def polRefill (cir cbs ebs dt : Nat) (b : PolSt) (now : Nat) : PolSt :=
  let c := b.tc + cir * dt
  let above := c - cbs
  ⟨min c cbs, min (b.te + above) ebs, now⟩

/-- R361: the colour of a packet and the buckets after it; 0 green, 1 yellow, 2 red. -/
def polColour (aware : Bool) (pre bytes : Nat) (b : PolSt) : Nat × PolSt :=
  if aware ∧ pre = 2 then (2, b)
  else if (!aware ∨ pre = 0) ∧ bytes ≤ b.tc then (0, { b with tc := b.tc - bytes })
  else if bytes ≤ b.te then (1, { b with te := b.te - bytes })
  else (2, b)

/-- R368, R381: a counter of a policer; its saturation raises an event. -/
def State.polCount (s : State) (lead n k by_ : Nat) : State :=
  let r := s.bump F.TM_POL_CNT_COUNT [lead, n, k] by_
  if r.2 then r.1.event .tmPolCnt [lead, n, k] else r.1

/-- R360 to R362: a packet that enters on a port is policed: its colour, whether it is discarded, and the state after. A
disabled map leaves it green. -/
def State.police (s : State) (p : Pkt) (port pre : Nat) : Nat × Bool × State :=
  let lead := leadTile port
  if !s.on F.TM_PMAP_EN [lead, p.cls] then (0, false, s)
  else
    let n := s.rd F.TM_PMAP_BASE [lead, p.cls] +
      fieldOf (flowHash p true) 0 16 % 2 ^ s.rd F.TM_PMAP_COUNT_LOG2 [lead, p.cls]
    if !s.on F.TM_POLICER_EN [lead, n] then (0, false, s)
    else
      let key := lead * 4096 + n
      let old := Tbl.look ⟨0, 0, s.now⟩ s.fab.pol key
      let cbs := s.rd F.TM_POLICER_CBS [lead, n] * 64 * bucketUnit
      let ebs := s.rd F.TM_POLICER_EBS [lead, n] * 64 * bucketUnit
      let b := polRefill (s.rd F.TM_POLICER_CIR [lead, n]) cbs ebs (s.now - old.last) old s.now
      let r := polColour (s.on F.TM_POLICER_AWARE [lead, n]) pre (p.wire * bucketUnit) b
      let s := { s with fab := { s.fab with pol := Tbl.put key r.2 s.fab.pol } }
      let s := s.polCount lead n r.1 p.wire
      let drop := p.cls == 7 && ((r.1 == 1 && s.on F.TM_POLICER_Y_DROP [lead, n]) ||
        (r.1 == 2 && s.on F.TM_POLICER_R_DROP [lead, n]))
      if drop then (r.1, true, (s.polCount lead n 3 1).tmCount lead 20 1)
      else (r.1, false, s)

/-- R363: a policer's buckets set to CBS and EBS. -/
def State.fillPolicer (s : State) (lead n : Nat) : State :=
  let b : PolSt := ⟨s.rd F.TM_POLICER_CBS [lead, n] * 64 * bucketUnit, s.rd F.TM_POLICER_EBS [lead, n] * 64 * bucketUnit, s.now⟩
  { s with fab := { s.fab with pol := Tbl.put (lead * 4096 + n) b s.fab.pol } }

/-! ### Random early drop (R364) -/

/-- R364: a BE packet that reaches a tile moves the average and may be dropped, before R346 is asked. -/
def State.redCheck (s : State) (t colour : Nat) : Bool × State :=
  let tm := s.tm t
  let occ := Tbl.look 0 tm.occ 7 * 2 ^ 32
  let k := s.rd F.TM_BUF_CFG_AVG_W [t]
  let avg := if occ ≥ tm.beAvg then tm.beAvg + (occ - tm.beAvg) / 2 ^ k else tm.beAvg - ceilDiv (tm.beAvg - occ) (2 ^ k)
  let s := s.updTm t (fun tm => { tm with beAvg := avg })
  if !s.on F.TM_RED_EN [t, colour] then (false, s)
  else
    let lo := s.rd F.TM_RED_MIN_TH [t, colour] * 2 ^ 32
    let hi := s.rd F.TM_RED_MAX_TH [t, colour] * 2 ^ 32
    let drop (s : State) : Bool × State := (true, s.tmCount t (17 + colour) 1)
    if avg < lo then (false, s)
    else if hi ≤ avg then drop s
    else
      let u := (Config.randomDraw s.draws).toNat
      let s := { s with draws := s.draws + 1 }
      if u * 256 * (hi - lo) < 2 ^ 16 * s.rd F.TM_RED_MAX_P [t, colour] * (avg - lo) then drop s else (false, s)

/-! ### Samples (R365, R366) -/

/-- R365: the record of a sampled packet. -/
def sampleRecord (count port cls colour bytes queue nth snap : Nat) (esc : Bool) (pkt : List Byte) : List Byte :=
  let cut := decide (snap < pkt.length)
  leBytes 8 count ++ leBytes 1 port ++ leBytes 1 cls ++ leBytes 1 colour ++ leBytes 1 (b2n cut + 2 * b2n esc) ++
  leBytes 2 bytes ++ leBytes 2 0 ++ leBytes 4 queue ++ leBytes 4 nth ++ leBytes 40 0 ++
  (pkt.take snap ++ List.replicate (snap - pkt.length) 0)

/-- R366: a sample written to its ring, or lost; also lost is one whose ring does not lie where R366 puts it (log 47). -/
def State.writeSample (s : State) (t port : Nat) (q : QPkt) (j taken : Nat) : State :=
  let home := 16 * tileDie t
  let r := s.rd F.TM_SAMPLE_RING [leadTile port, q.pkt.cls]
  let ent := ringEntries (s.rd F.TM_SRING_CFG_ENTRIES_LOG2 [home, r])
  let head := s.rd F.TM_SRING_IDX_HEAD [home, r]
  let tail := s.rd F.TM_SRING_IDX_TAIL [home, r]
  let snap := 64 * (s.rd F.TM_SRING_CFG_SNAP [home, r] + 1)
  let a := 64 * s.rd F.TM_SRING_CFG_BASE [home, r] + (head % ent) * (64 + snap)
  let win := s.rangeWin a (64 + snap)
  let there := if r = 0 then win == some .plate && plateOf a == home else win == some .hbm || win == some .ddr
  if !there || !s.on F.TM_SRING_CFG_EN [home, r] || (head + 2 ^ 16 - tail) % 2 ^ 16 == ent then s.tmCount t 26 1
  else
    let rec_ := sampleRecord s.now port q.pkt.cls q.colour q.pkt.wire (t * 16384 + j) taken snap (decide (q.pkt.vc ≠ 0))
      q.pkt.encode
    ((s.writeMem a rec_).wr F.TM_SRING_IDX_HEAD [home, r] (head + 1)).tmCount t 25 1

/-- R365: a transmitted packet is counted by its sampler and may be sampled. -/
def State.sample (s : State) (t port : Nat) (q : QPkt) (j : Nat) : State :=
  let n := s.rd F.TM_SAMPLE_N [leadTile port, q.pkt.cls]
  if n = 0 then s
  else
    let key := port * 8 + q.pkt.cls
    let c := Tbl.look (0, 0) s.fab.sampler key
    let put (s : State) (v : Nat × Nat) : State := { s with fab := { s.fab with sampler := Tbl.put key v s.fab.sampler } }
    if c.1 + 1 < n then put s (c.1 + 1, c.2)
    else put (s.writeSample t port q j (c.2 % 2 ^ 32)) (0, c.2 + 1)

/-! ### Selection (R356, R357) -/

/-- Children whose tag lies behind the virtual time start from it again (R357, resume). -/
def State.resumeAll (s : State) (p : Nat) (parent : Option Node) (ns : List Node) (hs : List (Nat × Nat × QPkt)) : State :=
  ns.foldl (fun s n =>
    let v := s.vOf p parent n
    if precedes (Tbl.look 0 (s.schedOf p).f n.key) v then
      s.setTag p n (v + tagInc (s.nextLen p n hs) (s.nodeWeight p n))
    else s) s

/-- R356: heads that may be sent: their channel has credit and every shaper on their path allows them. -/
def State.eligible (s : State) (p : Nat) (ok : QPkt → Bool) : List (Nat × Nat × QPkt) :=
  if !s.shaperOk p none then []
  else (s.portHeads p).filter (fun h =>
    let g := s.groupOf p h.1 h.2.1
    ok h.2.2 && s.shaperOk p (some g) && s.shaperOk p (some (.cls (s.classOf p g))))

/-- R357, select: one level; the chosen child and the state with the virtual time moved on. -/
def State.selectChild (s : State) (p : Nat) (parent : Option Node) (hs : List (Nat × Nat × QPkt)) : Option (Node × State) :=
  let ns := s.childrenOf p parent hs
  let s := s.resumeAll p parent ns hs
  (s.bestChild p ns).map (fun n =>
    (n, s.updSched p (fun c => { c with v := Tbl.put (vKey parent (s.nodeTier p n)) (Tbl.look 0 c.f n.key) c.v })))

/-- R356, R357: the packet that a port sends next, its queue and the state with the scheduler's times moved on. -/
def State.selectPkt (s : State) (p : Nat) (ok : QPkt → Bool) : Option (Nat × Nat × QPkt × State) :=
  let hs := s.eligible p ok
  match s.selectChild p none hs with
  | none => none
  | some (c, s) =>
    let hs := s.under p (some c) hs
    match s.selectChild p (some c) hs with
    | none => none
    | some (g, s) =>
      let hs := s.under p (some g) hs
      match s.selectChild p (some g) hs with
      | some (.queue off j, s) =>
        (match hs.find? (fun h => h.1 == off && h.2.1 == j) with
         | some h => some (off, j, h.2.2, s)
         | none => none)
      | some (.cls _, _) => none
      | some (.group _ _, _) => none
      | none => none

/-- R346, R354, R357: the first packet of a queue leaves it: cells return, tags move on, buckets are charged. -/
def State.popQueue (s : State) (p off j : Nat) (q : QPkt) : State :=
  let t := portTile p + off
  let g := s.groupOf p off j
  let c := Node.cls (s.classOf p g)
  let s := s.updTm t (fun tm =>
    let rest := (Tbl.look [] tm.queues j).drop 1
    let tm := tm.give q
    if rest.isEmpty then { tm with queues := Tbl.del j tm.queues, lru := if 10 ≤ j then j :: tm.lru else tm.lru }
    else { tm with queues := Tbl.put j rest tm.queues })
  let s := ((s.deduct p none q.pkt.wire).deduct p (some c) q.pkt.wire).deduct p (some g) q.pkt.wire
  let hs := s.portHeads p
  let move (s : State) (n : Node) : State :=
    let under := match n with
      | .queue o k => hs.filter (fun (h : Nat × Nat × QPkt) => h.1 == o && h.2.1 == k)
      | .cls _ => s.under p (some n) hs
      | .group _ _ => s.under p (some n) hs
    if under.isEmpty then s
    else s.setTag p n (Tbl.look 0 (s.schedOf p).f n.key + tagInc (s.nextLen p n hs) (s.nodeWeight p n))
  move (move (move s (.queue off j)) g) c

/-! ### Audit (R367, R372) -/

/-- PERIOD_US of a tile's audit, in nanoseconds; 0 is treated as 1,000 µs (R372). -/
def State.auditPeriod (s : State) (t : Nat) : Nat :=
  let p := s.rd F.TM_AUDIT_CFG_PERIOD_US [t]
  1000 * (if p = 0 then 1000 else p)

/-- R367: an audit pass ends. `strays` are the cells that neither the free list nor any reference holds, each with the time
at which it was allocated: what a failing buffer has lost, which the outside tells; `dbl` tells that a cell of the free list
is referenced. Strays as old as the period are reported; RECLAIM returns them to the free list. -/
def State.auditPass (s : State) (t : Nat) (strays : List Nat) (dbl : Bool) : State :=
  if !s.on F.TM_AUDIT_CFG_EN [t] ∨ s.inReset 3 t ∨ s.now < (s.tm t).auditAt + s.auditPeriod t then s
  else
    let leaked := min 16384 (strays.filter (fun a => decide (a + s.auditPeriod t ≤ s.now))).length
    let reclaim := s.on F.TM_AUDIT_CFG_RECLAIM [t]
    let s := s.updTm t (fun tm => { tm with auditAt := s.now, leaked := strays.length - (if reclaim then leaked else 0) })
    let s := (s.tick F.TM_AUDIT_STATUS_PASSES [t]).wr F.TM_AUDIT_STATUS_LAST_LEAKED [t] leaked
    let s := if leaked = 0 then s else (s.tmCount t 27 leaked).stickEv F.TM_AUDIT_STATUS_FOUND [t]
    let s := if leaked ≠ 0 ∧ reclaim then s.tmCount t 28 leaked else s
    if dbl then
      (s.stick F.TM_AUDIT_STATUS_DOUBLE [t]).report ⟨tileDie t, 3, 8, t, 0, 0, false, false, false⟩
    else s

/-- R509, domain 3: a slice's working state is cleared; contexts stay, without the packets held ahead of order. -/
def State.resetSlice (s : State) (t : Nat) : State :=
  s.updTm t (fun tm => { TmTile.fresh with ctxs := tm.ctxs.map (fun c => { c with held := [] }), auditAt := tm.auditAt })

end Sys2Proof.Machine
end

