-- ==== Sys2Proof/Machine/Link.lean ====
section
/-! DEFINITION. Ports and the link layer (R320, R385 to R403, R411 to R415, R513, R534): port states, credits, control flits,
retry, width changes, port frames, lanes. -/
namespace Sys2Proof.Machine

/-- A port's link. -/
def State.link (s : State) (p : Nat) : LinkPort := Tbl.look LinkPort.fresh s.fab.link p

/-- A port's link changed. -/
def State.updLink (s : State) (p : Nat) (f : LinkPort → LinkPort) : State :=
  { s with fab := { s.fab with link := Tbl.upd LinkPort.fresh p f s.fab.link } }

/-- Port states of R320, as RT_PORT codes them. -/
def pOFF : Nat := 0
/-- R320. -/
def pTRAINING : Nat := 1
/-- R320. -/
def pMGMT : Nat := 2
/-- R320. -/
def pUP : Nat := 3
/-- R320. -/
def pHELD : Nat := 4

/-- R320: a port's state. -/
def State.portState (s : State) (p : Nat) : Nat := s.rd F.RT_PORT_STATE [p]

/-- R320: a port is up only in UP. -/
def State.portUp (s : State) (p : Nat) : Bool := s.portState p == pUP

/-- Whether a data port carries fabric packets: all but an uplink in Ethernet mode (R17, R404). -/
def State.fabricPort (s : State) (p : Nat) : Bool := decide (p < 24) || (decide (p < 26) && s.rd F.LINK_PORT_CFG_MODE [p] == 0)

/-- R565, R577: whether the strap code or the life cycle keeps every data port OFF. -/
def State.slotIdles (s : State) : Bool :=
  let c := s.rd F.GLB_COORD_SLOT_CODE []
  match s.rd F.SEC_LC_STATE [] with
  | 0 => c != 9 && c != 10
  | 2 => decide (10 ≤ c)
  | 3 => decide (11 ≤ c)
  | _ => true

/-- R565: bench mode. -/
def State.bench (s : State) : Bool := s.rd F.GLB_COORD_SLOT_CODE [] == 9

/-- A lane's state, as LANE_STATUS codes it. -/
def State.laneState (s : State) (l : Nat) : Nat := s.rd F.LANE_STATUS_STATE [l]

/-- The lanes of a port. -/
def lanesOf (p : Nat) : List Nat := (List.range (portLanes p)).map (· + portLane p)

/-- R399: whether a lane's PRBS generator and checker may run: its port is OFF or TRAINING, the module is in bench mode, or
the lane is under test. -/
def State.prbsMay (s : State) (l : Nat) : Bool :=
  s.portState (lanePort l) ≤ 1 || s.bench || s.laneState l == 3

/-- A PATTERN as it runs: the reserved one is PRBS31Q (R413). -/
def prbsPattern (n : Nat) : Nat := if n = 3 then 1 else n

/-- R399, R400, R413: the pattern that a lane's generator sends, if it runs; under test, that of the test. -/
def State.laneGen (s : State) (l : Nat) : Option Nat :=
  let p := lanePort l
  let asked := s.rd F.LANE_PRBS_PATTERN [l]
  if s.laneState l = 3 then some (prbsPattern (Tbl.look asked (s.link p).tests (l - portLane p)))
  else if s.on F.LANE_PRBS_GEN_EN [l] ∧ s.prbsMay l then some (prbsPattern asked) else none

/-- R401: what a lane's error injection does, if it runs: into the generator's output, or into the coded stream of an active
lane. -/
def State.laneInject (s : State) (l : Nat) : Option (Nat × Nat × Nat × Nat) :=
  let side := s.rd F.LANE_PRBS_INJ_SIDE [l]
  if s.on F.LANE_PRBS_INJ_EN [l] ∧ (if side = 0 then (s.laneGen l).isSome else s.laneState l == 2) then
    some (side, s.rd F.LANE_PRBS_INJ_MODE [l], s.rd F.LANE_PRBS_INJ_PERIOD [l], s.rd F.LANE_PRBS_INJ_LEN [l])
  else none

/-- R399, R401: a lane's line shows what its generator and its injection do, when that has changed since a state. -/
def State.showLane (s was : State) (l : Nat) : State :=
  if s.laneGen l = was.laneGen l ∧ s.laneInject l = was.laneInject l then s else s.emit (.lane l (s.laneGen l) (s.laneInject l))

/-- A lane's state changed. An active lane has signal, clock and markers; one under test has signal and clock (R399); a lane
in training or FAILED has what it has, which a read draws (log 10); the others have nothing. -/
def State.setLane (was : State) (l st : Nat) : State :=
  let s := was.wr F.LANE_STATUS_STATE [l] st
  let on := b2n (st == 2 || st == 3)
  (((s.wr F.LANE_STATUS_SIGNAL [l] on).wr F.LANE_STATUS_CDR_LOCK [l] on).wr F.LANE_STATUS_MARKER_LOCK [l]
    (b2n (decide (st = 2)))).showLane was l

/-- R320, R336: a port's state and cause change; an event follows. An accelerator port that goes to OFF or HELD is lost to
the operations of its members (R516); one that retrains is not (R396). -/
def State.setPort (old : State) (p st cause : Nat) : State :=
  let was := old.portState p
  let s := old.wr F.RT_PORT_CAUSE [p] cause
  if was = st then s
  else
    let s := (lanesOf p).foldl (fun s l => s.showLane old l) (s.wr F.RT_PORT_STATE [p] st)
    let s := s.stickEv F.RT_PORT_CHANGED [p]
    let s := if st = pUP ∨ st = pMGMT then s else s.wr F.RT_PORT_LEVEL [p] 0
    let s := if p < 16 ∧ (st = pOFF ∨ st = pHELD) then s.owe (.portLost p) else s
    let s := if (was = pUP ∨ was = pMGMT) ∧ st ≠ pUP ∧ st ≠ pMGMT then s.owe .ringCheck else s
    if st = pUP then s.owe .reoffer else s

/-- R415: a counter of a port; its saturation sets a bit and raises an event. -/
def State.linkCount (s : State) (p n k : Nat) : State :=
  let r := s.bump F.LINK_CNT_COUNT [p, n] k
  if r.2 then
    (r.1.setRaw .linkCntSat [p] (r.1.rawReg .linkCntSat [p] ||| 2 ^ n)).event .linkCntSat [p]
  else r.1

/-! ### Credits (R391 to R393) -/

/-- R391: the number of a packet's virtual channel. -/
def vcOf (cls vc : Nat) : Nat := 3 * cls + vc

/-- R391, R309: credit that a sender has left on a channel, without what routing has reserved. -/
def State.creditLeft (s : State) (p v : Nat) : Nat :=
  let l := s.link p
  (Tbl.look 0 l.txC v + 2 ^ 16 - Tbl.look 0 l.txS v) % 2 ^ 16 - Tbl.look 0 l.txRes v

/-- R309: credit reserved for a packet that will leave on an adaptive channel. -/
def State.reserveCredit (s : State) (p v n : Nat) : State :=
  s.updLink p (fun l => { l with txRes := Tbl.upd 0 v (· + n) l.txRes })

/-- R391: cells sent on a channel. -/
def State.spendCredit (s : State) (p v n : Nat) (reserved : Bool) : State :=
  s.updLink p (fun l => { l with
    txS := Tbl.upd 0 v (fun x => (x + n) % 2 ^ 16) l.txS,
    txRes := if reserved then Tbl.upd 0 v (· - n) l.txRes else l.txRes })

/-- R392: the receive buffer allocation of a channel. -/
def rxAlloc (p v : Nat) : Nat := if v % 3 ≠ 0 then 66 else if portTiles p = 2 then 892 else 1916

/-- R392: a cell that leaves the receive buffer of a fabric port is granted again. -/
def State.grantCredit (s : State) (p v n : Nat) : State :=
  if s.fabricPort p then
    s.updLink p (fun l => { l with rxC := Tbl.upd 0 v (fun x => (x + n) % 2 ^ 16) l.rxC, rxChanged := true })
  else s

/-! ### Control flits (R390) -/

/-- R390: a control flit. -/
def ctrlFlit (ty : Nat) (body : List Byte) : List Byte :=
  let b := leBytes 2 (0x03C0 + ty) ++ (body ++ List.replicate (29 - body.length) 0).take 29
  b ++ [BitVec.ofNat 8 (crc8 b)]

/-- R390: whether a flit's first two bytes mark a control flit. -/
def isCtrl (flit : List Byte) : Bool := fieldOf (leAt flit 0 2) 6 4 == 15

/-- R386, R394: the frame that a port sends at a time: one each 102.8 ns (log 53: the count stands for the clock). While a
replay lasts it is the frame that follows the replay (R395). -/
def State.frameNow (s : State) (p : Nat) : Nat :=
  let l := s.link p
  (l.txStart + (s.now - l.txBase) * 10 / 1028) % 2 ^ 16

/-- R394: a frame carries something beside IDLE flits: it is retained, in the 12 latest frames. -/
def State.retain (s : State) (p : Nat) (x : LinkItem) : State :=
  let f := s.frameNow p
  s.updLink p (fun l => { l with
    sent := l.sent.filter (fun u => decide ((f + 2 ^ 16 - u.1) % 2 ^ 16 < 12)) ++ [(f, x)] })

/-- A control flit leaves on a port (R390, R394). -/
def State.sendFlit (s : State) (p : Nat) (flit : List Byte) : State := (s.retain p (.flit flit)).emit (.flit p flit)

/-- R389, R391: a packet leaves on a port and channel whose credit allows it. -/
def State.sendPacket (s : State) (p v cells : Nat) (reserved : Bool) (pkt : Pkt) : State :=
  ((s.spendCredit p v cells reserved).retain p (.pkt pkt)).emit (.packet p v pkt.encode)

/-- R391: ACK_FSEQ as a receiver sends it. -/
def State.ackFseq (s : State) (p : Nat) : Nat := ((s.link p).rxNext + 2 ^ 16 - 1) % 2 ^ 16

/-- R391, R392: both CREDIT flits of a port. -/
def State.sendCredits (s : State) (p : Nat) : State :=
  let l := s.link p
  let body (lo : Nat) : List Byte :=
    leBytes 2 (s.ackFseq p) ++ ((List.range 12).map (fun i => leBytes 2 (Tbl.look 0 l.rxC (lo + i)))).flatten
  ((s.sendFlit p (ctrlFlit 1 (body 0))).sendFlit p (ctrlFlit 2 (body 12))).updLink p (fun l => { l with rxChanged := false })

/-- The port lanes of a mask. -/
def maskCount (m : Nat) : Nat := ((List.range 32).filter (fun k => bitOf m k)).length

/-- The bits of one mask without those of another. -/
def maskMinus (a b : Nat) : Nat := a - (a &&& b)

/-- R388: the mask that a port's transmitter has announced last. -/
def LinkPort.announced (l : LinkPort) : Nat := (l.txWidths.getLast?.map (·.2)).getD l.txMask

/-- Whether frame `a` has come by frame `now` (R385, R393). -/
def reached (now a : Nat) : Bool := decide ((now + 2 ^ 16 - a % 2 ^ 16) % 2 ^ 16 < 2 ^ 15)

/-- R388: width changes that have been announced take effect as their named frames come. -/
def takeWidths (now m : Nat) : List (Nat × Nat) → Nat × List (Nat × Nat)
  | [] => (m, [])
  | (f, k) :: rest => if reached now f then takeWidths now k rest else (m, (f, k) :: rest)

/-- R388: the port lanes that a port's transmitter uses now. -/
def State.txLanes (s : State) (p : Nat) : Nat := (takeWidths (s.frameNow p) (s.link p).txMask (s.link p).txWidths).1

/-- R534: a stamp: the count and eighths of a nanosecond, which the count does not tell (log 40). -/
def State.stamp (s : State) : Nat × State :=
  let d := s.draw
  ((8 * s.now + d.1.toNat % 8) % 2 ^ 64, d.2)

/-- R534: a TIME packet is stamped as it leaves: a response carries the stamp as T3, and that of a request is kept. -/
def State.stampTime (s : State) (p : Nat) (q : Pkt) : Pkt × State :=
  if q.kind ≠ kTIME then (q, s)
  else
    let t := s.stamp
    if leAt q.payload 0 1 = 2 then ({ q with payload := q.payload.take 16 ++ leBytes 8 t.1 ++ q.payload.drop 24 }.seal, t.2)
    else (q, { t.2 with time := { t.2.time with reqs := t.2.time.reqs.map (fun (r : TimeReq) =>
      if r.port = p ∧ r.num = q.chunk then { r with t1 := t.1 } else r) } })

/-- R391, R403: management packets that waited leave, in order, while credit allows it and a lane carries them. Once none
waits, the DISCOVER that reports OPEN has left (R325). -/
def State.drainMgmt (s : State) (p : Nat) : Nat → State
  | 0 => s
  | n + 1 =>
    match (s.link p).mgmt with
    | [] => s
    | q :: rest =>
      if q.cells ≤ s.creditLeft p (vcOf 6 0) ∧ s.txLanes p ≠ 0 then
        let r := (s.updLink p (fun l => { l with mgmt := rest, opening := l.opening && !rest.isEmpty })).stampTime p q
        (r.2.sendPacket p (vcOf 6 0) q.cells false r.1).drainMgmt p n
      else s

/-- R388, R414: a port's transmitter announces a new width, four frames ahead. -/
def State.sendWidth (s : State) (p mask : Nat) : State :=
  if (s.link p).announced = mask then s
  else
    let f := (s.frameNow p + 4) % 2 ^ 16
    let s := s.sendFlit p (ctrlFlit 4 (leBytes 2 f ++ leBytes 4 mask))
    let now := s.frameNow p
    let s := s.updLink p (fun l =>
      let w := takeWidths now l.txMask l.txWidths
      { l with txMask := w.1, txWidths := w.2 ++ [(f, mask)] })
    (s.stickEv F.LINK_PORT_STATUS_WIDTH_CHG [p]).linkCount p 6 1

/-- R388, R414: the receive width changes. -/
def State.setRxMask (s : State) (p mask : Nat) : State :=
  let s := s.updLink p (fun l => { l with rxMask := mask })
  let s := (s.wr F.LINK_PORT_STATUS_ACTIVE [p] (maskCount mask)).wr F.LINK_PORT_STATUS_RX_MASK [p] mask
  (s.stickEv F.LINK_PORT_STATUS_WIDTH_CHG [p]).linkCount p 6 1

/-- Lanes that a low-power state holds (R388, R402): enabled lanes of the port's idle lane groups that have not failed,
that no self-test has taken and that a mask does not use. -/
def State.idleLanes (s : State) (p mask : Nat) : Nat :=
  ((lanesOf p).filter (fun l => bitOf (s.link p).lpIdle ((l - portLane p) / 8) && s.on F.LANE_CTRL_EN [l] &&
    s.laneState l != 6 && (Tbl.find (l - portLane p) (s.link p).tests).isNone && !bitOf mask (l - portLane p))).length

/-- R388: whether a port has lanes enough with a mask. -/
def State.lanesEnough (s : State) (p mask : Nat) : Bool :=
  decide (s.rd F.LINK_PORT_CFG_MIN_LANES [p] ≤ maskCount mask + s.idleLanes p mask)

/-- Every enabled lane of a port set to a state, the others OFF. -/
def State.setLanes (s : State) (p st : Nat) : State :=
  (lanesOf p).foldl (fun s l => s.setLane l (if s.on F.LANE_CTRL_EN [l] then st else 0)) s

/-- R34: the torus ports: ZP, ZN, XP, XN, YP and YN. -/
def torusPorts : List Nat := [16, 17, 20, 21, 22, 23]

/-- R35, R402, R504, R565: whether a role, the strap code or a UF keeps a port idle. -/
def State.roleIdles (s : State) (p : Nat) : Bool :=
  let r := s.rd F.GLB_COORD_ROLE []
  decide (2 ≤ r) || (r == 1 && decide (p < 16)) || s.slotIdles || s.faults.ufOut

/-- A packet as it was before its place in an output queue: with the channel it came on, and this switch not counted in
HOPS (R288). -/
def QPkt.back (q : QPkt) (now : Nat) : QPkt :=
  { q with pkt := { q.pkt with vc := q.inVc, hops := q.pkt.hops - 1 }, heldAt := some (q.heldAt.getD now) }

/-- R513: what lay queued for a port goes back to the routing engine, in ascending queue number, what
waits for its queue's state too; its link's buffers and credits are lost (R396). -/
def State.flushPort (s : State) (p : Nat) : State :=
  let tiles := (List.range (portTiles p)).map (· + portTile p)
  let s := tiles.foldl (fun s t =>
    let coming := (s.tm t).filling.map (fun (e : Nat × List QPkt) => (t, e.1))
    let s := s.updTm t (fun tm =>
      let all := tm.filling.foldl (fun l (e : Nat × List QPkt) => Tbl.put e.1 e.2 l) tm.queues
      let back := (all.map (fun (e : Nat × List QPkt) => e.2)).flatten
      { tm with hold := tm.hold ++ back.map (fun q => q.back s.now),
                lru := (tm.queues.filter (fun e => decide (10 ≤ e.1))).map (fun (e : Nat × List QPkt) => e.1) ++ tm.lru,
                queues := [], filling := [] })
    { s with fab := { s.fab with qfetch := s.fab.qfetch ++ coming } }) s
  ({ s with fab := { s.fab with sched := Tbl.del p s.fab.sched } }).owe .reoffer

/-- R400: self-tests that run on a port's lanes end with DONE as the port goes down: it needs the lanes to train. -/
def State.testsOver (s : State) (p : Nat) : State :=
  (lanesOf p).foldl (fun s l => if s.rd F.LANE_PRBS_RESULT [l] = 1 then s.wr F.LANE_PRBS_RESULT [l] 4 else s) s

/-- R397: a port starts to train; its link begins again. The accelerator ports of a SPARE switch go to electrical idle
instead (R35, R403). -/
def State.startTraining (s : State) (p : Nat) : State :=
  if !s.fabricPort p then s
  else if s.roleIdles p then
    (if p < 16 ∧ s.rd F.GLB_COORD_ROLE [] = 1 ∧ !s.slotIdles ∧ !s.faults.ufOut then s.setLanes p 4 else s)
  else
    let s := ((s.setPort p pTRAINING 0).setLanes p 1).testsOver p
    let s := ({ s with fab := { s.fab with nbr := Tbl.del p s.fab.nbr } }).updLink p (fun _ => LinkPort.fresh)
    let s := (s.wr F.LINK_PORT_STATUS_ACTIVE [p] 0).wr F.LINK_PORT_STATUS_RX_MASK [p] 0
    let s := if s.rd F.RT_BRINGUP_PHASE [] = 0 then s.wr F.RT_BRINGUP_PHASE [] 1 else s
    s.flushPort p

/-- R320: a port goes to OFF. -/
def State.portOff (s : State) (p : Nat) (lane : Nat) : State :=
  let s := ((s.setPort p pOFF 0).setLanes p lane).testsOver p
  let s := ({ s with fab := { s.fab with nbr := Tbl.del p s.fab.nbr } }).updLink p (fun _ => LinkPort.fresh)
  ((s.wr F.LINK_PORT_STATUS_ACTIVE [p] 0).wr F.LINK_PORT_STATUS_RX_MASK [p] 0).flushPort p

/-- R396, R397: a port retrains. -/
def State.retrain (s : State) (p : Nat) : State :=
  if s.portState p = pOFF then s.startTraining p
  else (s.startTraining p).linkCount p 5 1

/-- R513, R516: a port without lanes enough goes down and trains, which is no retraining of R415; an accelerator port is lost
to its members' operations. -/
def State.lanesGone (s : State) (p : Nat) : State :=
  let live := s.portState p = pMGMT ∨ s.portState p = pUP
  let s := s.startTraining p
  if live ∧ p < 16 then s.owe (.portLost p) else s

/-- R397: training ends: the lanes that pass a mask of port lanes are active; the port enters MGMT or is HELD. -/
def State.trainingDone (s : State) (p mask : Nat) : State :=
  if s.portState p ≠ pTRAINING then s
  else
    let good (l : Nat) : Bool := bitOf mask (l - portLane p) && s.on F.LANE_CTRL_EN [l]
    let s := (lanesOf p).foldl (fun s l =>
      if good l then s.setLane l 2 else if s.on F.LANE_CTRL_EN [l] then s.setLane l 6 else s.setLane l 0) s
    let m := ((List.range (portLanes p)).filter (fun k => good (portLane p + k))).foldl (fun n k => n + 2 ^ k) 0
    if maskCount m < s.rd F.LINK_PORT_CFG_MIN_LANES [p] then
      (s.updLink p (fun l => { l with since := s.now })).setPort p pHELD 4
    else
      let s := s.updLink p (fun _ => { LinkPort.fresh with
        txBase := s.now, txMask := m, rxMask := m, since := s.now,
        rxC := (List.range 24).foldl (fun t v => Tbl.put v (rxAlloc p v) t) [] })
      let s := (s.wr F.LINK_PORT_STATUS_ACTIVE [p] (maskCount m)).wr F.LINK_PORT_STATUS_RX_MASK [p] m
      let s := if s.rd F.RT_BRINGUP_PHASE [] ≤ 1 then s.wr F.RT_BRINGUP_PHASE [] 2 else s
      let s := (s.setPort p pMGMT 0).wr F.RT_PORT_LEVEL [p] (s.rd F.RT_FABLEVEL_LOCAL [])
      s.sendCredits p

/-! ### What arrives in flits (R391 to R395, R388, R400, R402) -/

/-- R393: whether a 16-bit cumulative value lies behind the last one. -/
def behind (new last : Nat) : Bool := decide (2 ^ 15 ≤ (new + 2 ^ 16 - last % 2 ^ 16) % 2 ^ 16)

/-- R391, R393, R394: a CREDIT flit: credit counts from channel `lo` on, and frames acknowledged, the replayed one among them
(R396); management packets that waited for credit go. -/
def State.creditFlit (s : State) (p lo : Nat) (flit : List Byte) : State :=
  let ack := (leAt flit 2 2 + 1) % 2 ^ 16
  let s := s.updLink p (fun l =>
    let l := if behind ack l.acked then l
      else { l with acked := ack, sent := l.sent.filter (fun u => !behind u.1 ack),
                    lastReplay := l.lastReplay.filter (fun r => !behind r.1 ack) }
    { l with txC := (List.range 12).foldl (fun t i =>
        let v := leAt flit (4 + 2 * i) 2
        if behind v (Tbl.look 0 t (lo + i)) then t else Tbl.put (lo + i) v t) l.txC })
  s.drainMgmt p (s.link p).mgmt.length

/-- R394, R395: the last frame that a port has sent or is sending; while a replay lasts, the last one before it. -/
def State.lastFrame (s : State) (p : Nat) : Nat :=
  if s.now < (s.link p).replayUntil then ((s.link p).txStart + 2 ^ 16 - 1) % 2 ^ 16 else s.frameNow p

/-- R395, R396: a RETRY flit names the first bad frame: the frames from it on are sent again from the next frame boundary,
and new frames follow them. -/
def State.retryFlit (s : State) (p f : Nat) : State :=
  let l := s.link p
  let cur := s.lastFrame p
  let back := (cur + 2 ^ 16 - f) % 2 ^ 16
  if 12 ≤ back ∨ behind f l.acked then s.retrain p
  else
    let n := match l.lastReplay with | some (g, k) => if g = f then k else 0 | none => 0
    if max 1 (s.rd F.LINK_PORT_CFG_RETRY_LIMIT [p]) ≤ n then s.retrain p
    else
      let done := s.now + (back + 2) * 103
      let s := (s.emit (.replay p f (l.sent.filter (fun u => !behind u.1 f)))).linkCount p 4 1
      s.updLink p (fun l => { l with txBase := done, txStart := (cur + 1) % 2 ^ 16, lastReplay := some (f, n + 1),
                                     replayUntil := done })

/-- R388: a WIDTH flit names the first frame at a new width. -/
def State.widthFlit (s : State) (p : Nat) (flit : List Byte) : State :=
  s.updLink p (fun l => { l with rxWidths := l.rxWidths ++ [(leAt flit 2 2, leAt flit 4 4)] })

/-- R400: a self-test takes a lane: this end announces a width without it, and keeps the pattern. The lane is under test once
neither direction uses it (`settleLanes`). -/
def State.takeLane (s : State) (p k pattern : Nat) : State :=
  (s.updLink p (fun l => { l with tests := Tbl.put k pattern l.tests })).sendWidth p (maskMinus (s.link p).announced (2 ^ k))

/-- A TEST flit for a port lane (R390, R400). -/
def State.sendTest (s : State) (p k on pattern : Nat) : State :=
  s.sendFlit p (ctrlFlit 5 (leBytes 1 k ++ leBytes 1 on ++ leBytes 1 pattern))

/-- R400: a TEST flit starts or stops PRBS on a lane. The end that is asked answers in kind, and takes the lane from its own
transmit width; an answer asks nothing more. -/
def State.testFlit (s : State) (p : Nat) (flit : List Byte) : State :=
  let k := leAt flit 2 1
  let l := portLane p + k
  let pat := leAt flit 4 1 % 4
  let taken := (Tbl.find k (s.link p).tests).isSome
  if portLanes p ≤ k then s
  else if leAt flit 3 1 = 1 then (if s.laneState l = 2 ∧ !taken then (s.takeLane p k pat).sendTest p k 1 pat else s)
  else if leAt flit 3 1 = 0 then (if taken then s.setLane l 1 else s)
  else s

/-- The mask of the port lanes of a set of lane groups. -/
def groupLanes (p groups : Nat) : Nat :=
  ((List.range (portLanes p)).filter (fun k => bitOf groups (k / 8))).foldl (fun n k => n + 2 ^ k) 0

/-- The power domain of a tile's lane group, and its state: 0 ACTIVE, 1 shallow, 2 deep (R551). -/
def State.groupTol (s : State) (t : Nat) : Nat := s.rd F.PWR_DOMAIN_TOL_NS [t]

/-- R402, R551: lane groups of a port are agreed to go to a low state: their lanes leave the transmit width, and idle when
they have left the receive width, too (`settleLanes`). -/
def State.idleGroups (s : State) (p groups : Nat) : State :=
  let s := s.updLink p (fun l => { l with lpIdle := l.lpIdle ||| groups, lpReq := 0 })
  s.sendWidth p (maskMinus (s.link p).announced (groupLanes p groups))

/-- R388: whether a lane is out of the width of its port in both directions. -/
def State.laneUnused (s : State) (p l : Nat) : Bool :=
  !bitOf (s.link p).rxMask (l - portLane p) && !bitOf (s.txLanes p) (l - portLane p)

/-- R402, R551: lanes of agreed groups that neither direction uses go to electrical idle. -/
def State.settleIdle (s : State) (p : Nat) : State :=
  ((List.range (portTiles p)).filter (fun i => bitOf (s.link p).lpIdle i)).foldl (fun s i =>
    let t := portTile p + i
    let mine := (lanesOf p).filter (fun l => decide (l / 8 = t))
    if s.rd F.PWR_DOMAIN_STATE [t] ≠ 0 ∨ !mine.all (s.laneUnused p) then s
    else
      let s := (s.wr F.PWR_DOMAIN_STATE [t] 1).tick F.PWR_DOMAIN_ENTRIES [t]
      mine.foldl (fun s l => if s.laneState l = 2 then s.setLane l 4 else s) s) s

/-- R400, R411: a lane that neither direction uses any more is under test where a self-test has taken it, and idle where EN is 0;
then the groups that were to idle do so (R402). -/
def State.settleLanes (s : State) (p : Nat) : State :=
  ((lanesOf p).foldl (fun s l =>
    if s.laneState l ≠ 2 ∨ !s.laneUnused p l then s
    else if (Tbl.find (l - portLane p) (s.link p).tests).isSome then s.setLane l 3
    else if !s.on F.LANE_CTRL_EN [l] then s.setLane l 4
    else s) s).settleIdle p

/-- R402, R403: idle lane groups of a port start to return: they train, each until its exit is complete. -/
def State.wakeGroups (s : State) (p groups : Nat) : State :=
  ((List.range (portTiles p)).filter (fun i => bitOf ((s.link p).lpIdle &&& groups) i)).foldl (fun s i =>
    let t := portTile p + i
    ((lanesOf p).filter (fun l => decide (l / 8 = t))).foldl (fun s l =>
      if s.laneState l = 4 ∨ s.laneState l = 5 then s.setLane l 1 else s) (s.wr F.PWR_DOMAIN_STATE [t] 3)) s

/-- R402: a lane group that was idle is back: its lanes are active and return to the width by WIDTH flits. -/
def State.groupBack (s : State) (p i : Nat) : State :=
  let mine := (lanesOf p).filter (fun l => decide (l / 8 = portTile p + i) && s.on F.LANE_CTRL_EN [l] && s.laneState l != 6)
  let m := mine.foldl (fun n l => n + 2 ^ (l - portLane p)) 0
  let s := mine.foldl (fun s l => s.setLane l 2) s
  let s := s.updLink p (fun l => { l with lpIdle := maskMinus l.lpIdle (2 ^ i) })
  (s.wr F.PWR_DOMAIN_STATE [portTile p + i] 0).sendWidth p ((s.link p).announced ||| m)

/-- R402, R552: whether the transmit queues of a port's lane group are empty and low states are allowed. -/
def State.groupsIdle (s : State) (p groups : Nat) : Bool :=
  s.on F.LINK_PORT_CFG_LPM_EN [p] &&
  ((List.range (portTiles p)).filter (fun i => bitOf groups i)).all (fun i =>
    (s.tm (portTile p + i)).queues.isEmpty && (s.tm (portTile p + i)).filling.isEmpty && decide (300 ≤ s.groupTol (portTile p + i)))

/-- An LPI flit for lane groups of a port: 1 request, 2 accept, 3 refuse, 4 wake (R390, R402). -/
def State.sendLpi (s : State) (p groups k : Nat) : State := s.sendFlit p (ctrlFlit 6 (leBytes 1 groups ++ leBytes 1 k))

/-- R403: what is to leave by a port wakes the lane groups that are idle. -/
def State.wakeFor (s : State) (port : Nat) : State :=
  let g := ((List.range (portTiles port)).filter (fun i => bitOf (s.link port).lpIdle i &&
    s.rd F.PWR_DOMAIN_STATE [portTile port + i] != 3)).foldl (fun n i => n + 2 ^ i) 0
  if g = 0 ∨ !s.fabricPort port then s else (s.sendLpi port g 4).wakeGroups port g

/-- R402: an LPI flit. A group whose queues are no longer empty when the other end accepts stays active, and the other end is
told to wake it. -/
def State.lpiFlit (s : State) (p : Nat) (flit : List Byte) : State :=
  let g := leAt flit 2 1 % 16
  match leAt flit 3 1 with
  | 1 => if s.groupsIdle p g then (s.sendLpi p g 2).idleGroups p g else s.sendLpi p g 3
  | 2 =>
    if (s.link p).lpReq = g ∧ g ≠ 0 then
      (if s.groupsIdle p g then s.idleGroups p g else (s.updLink p (fun l => { l with lpReq := 0 })).sendLpi p g 4)
    else s
  | 3 => s.updLink p (fun l => { l with lpReq := 0 })
  | 4 => s.wakeGroups p g
  | _ => s

/-- Lanes of a port that a self-test has taken and that have not been given back yet (R400). -/
def State.testing (s : State) (p : Nat) : List Nat :=
  (lanesOf p).filter (fun l => (Tbl.find (l - portLane p) (s.link p).tests).isSome && s.laneState l != 1)

/-- R400: a self-test of a lane stops, at the end that asked for it with DONE; the other end is told. -/
def State.stopTest (s : State) (p l : Nat) : State :=
  let pat := Tbl.look 0 (s.link p).tests (l - portLane p)
  let s := if s.rd F.LANE_PRBS_RESULT [l] = 1 then s.wr F.LANE_PRBS_RESULT [l] 4 else s
  s.sendTest p (l - portLane p) 0 pat

/-- R400: a self-test of a lane ends, and the lane trains alone. -/
def State.endTest (s : State) (p l : Nat) : State := (s.stopTest p l).setLane l 1

/-- R400, R411, R513: a lane that a self-test has taken is removed or lost: the test stops and gives no lane back. -/
def State.dropTest (s : State) (p l : Nat) : State :=
  let k := l - portLane p
  if (Tbl.find k (s.link p).tests).isSome then (s.stopTest p l).updLink p (fun x => { x with tests := Tbl.del k x.tests }) else s

/-- R388, R400, R513: a port that has lost lanes of a mask keeps going at reduced width; it ends the self-tests of its lanes if it
needs them; without lanes enough it goes down and trains. -/
def State.narrow (s : State) (p mask : Nat) : State :=
  if s.lanesEnough p mask then s
  else
    let ts := s.testing p
    if s.lanesEnough p (ts.foldl (fun m l => m ||| 2 ^ (l - portLane p)) mask) then ts.foldl (fun s l => s.endTest p l) s
    else s.owe (.portDown p)

/-- R513: the other end has lost a lane: the transmitter narrows the port by a lane. Which one no flit says: it is a free one of
those in use (DESIGN CHOICE, log 69). -/
def State.narrowTx (s : State) (p : Nat) : State :=
  let lanes := (List.range (portLanes p)).filter (fun k => bitOf (s.link p).announced k)
  if lanes.isEmpty then s
  else
    let d := s.draw
    let m := maskMinus (s.link p).announced (2 ^ nth 0 lanes (d.1.toNat % lanes.length))
    (d.2.sendWidth p m).narrow p m

/-- R395, R513: a RETRY flit asks for a replay; one of cause 2 tells of a lost lane, too. -/
def State.retryAsked (s : State) (p f cause : Nat) : State :=
  let s := s.retryFlit p f
  if cause = 2 ∧ (s.portState p = pMGMT ∨ s.portState p = pUP) then s.narrowTx p else s

/-- R390, R511: a control flit that has arrived on a port: discarded and counted when its CHK or TYPE is bad. -/
def State.ctrlArrive (s : State) (p : Nat) (flit : List Byte) : State :=
  let ty := leAt flit 0 2 - 0x03C0
  let j := s.injected 0x0C (portDie p) 0 p 1
  let s := j.2.2.2
  if j.1 ≠ 0 ∨ flit.length ≠ 32 ∨ !isCtrl flit ∨ crc8 (flit.take 31) ≠ leAt flit 31 1 ∨ 6 < ty then s.linkCount p 7 1
  else match ty with
    | 1 => s.creditFlit p 0 flit
    | 2 => s.creditFlit p 12 flit
    | 3 => s.retryAsked p (leAt flit 2 2) (leAt flit 4 1)
    | 4 => s.widthFlit p flit
    | 5 => s.testFlit p flit
    | 6 => s.lpiFlit p flit
    | _ => s

/-- A control flit of one TYPE arrives by a row of its own; a flit of another TYPE is no such event. -/
def State.typedFlit (s : State) (p ty : Nat) (flit : List Byte) : State :=
  if leAt flit 0 2 = 0x03C0 + ty ∧ s.fabricPort p ∧ (s.portState p = pMGMT ∨ s.portState p = pUP) then s.ctrlArrive p flit else s

/-! ### Lanes (R399, R400, R411, R413, R513) -/

/-- R513: a lane is lost: the receiver removes it at once and asks for a replay, cause 2. An Ethernet port has no such lane: it
loses its alignment (R417). -/
def State.laneLost (s : State) (l : Nat) : State :=
  let p := lanePort l
  if s.laneState l ≠ 2 ∨ !s.fabricPort p ∨ !(s.portState p = pMGMT ∨ s.portState p = pUP) then s
  else
    let k := l - portLane p
    let s := (s.dropTest p l).setLane l 6
    let s := (s.sendFlit p (ctrlFlit 3 (leBytes 2 (s.link p).rxNext ++ leBytes 1 2))).linkCount p 3 1
    let s := s.updLink p (fun x => { x with rxRetry := true, rxCause := 2 })
    let m := maskMinus (s.link p).rxMask (2 ^ k)
    (s.setRxMask p m).narrow p m

/-- R400: a self-test of a lane is requested. -/
def State.selfTest (s : State) (l : Nat) : State :=
  let p := lanePort l
  let k := l - portLane p
  let pat := s.rd F.LANE_PRBS_PATTERN [l]
  if s.rd F.LANE_PRBS_RESULT [l] = 1 then s
  else if s.laneState l ≠ 2 ∨ (Tbl.find k (s.link p).tests).isSome then s.wr F.LANE_PRBS_RESULT [l] 3
  else if maskCount (s.link p).rxMask ≤ 1 then s.wr F.LANE_PRBS_RESULT [l] 2
  else if !s.lanesEnough p (maskMinus (s.link p).rxMask (2 ^ k)) then s.wr F.LANE_PRBS_RESULT [l] 4
  else ((s.wr F.LANE_PRBS_RESULT [l] 1).takeLane p k pat).sendTest p k 1 pat

/-- R400: a lane's test has run and the lane has retrained: it rejoins its port. -/
def State.selfTestDone (s : State) (l errors : Nat) : State :=
  let p := lanePort l
  let k := l - portLane p
  let taken := (Tbl.find k (s.link p).tests).isSome
  if (s.laneState l = 1 ∨ taken) ∧ s.fabricPort p ∧ (s.portState p = pMGMT ∨ s.portState p = pUP) then
    let s := (s.bump F.LANE_PRBS_ERR_ERRORS [l] errors).1
    let s := if taken ∧ s.laneState l ≠ 1 then s.endTest p l else s
    let s := if s.rd F.LANE_PRBS_RESULT [l] = 1 then s.wr F.LANE_PRBS_RESULT [l] 4 else s
    let s := s.updLink p (fun x => { x with tests := Tbl.del k x.tests })
    (s.setLane l 2).sendWidth p ((s.link p).announced ||| 2 ^ k)
  else s

/-- R411: a change of LANE_CTRL.EN: a lane removed leaves the transmit width by a WIDTH flit; what the partner sends on it ends
with a WIDTH flit of its own; the lane idles once neither uses it. A lane admitted trains and rejoins as after a test, or stays
where it was not yet idle. A lane of an Ethernet port has no width: it idles, or trains while its port is not OFF (R417). -/
def State.laneEnable (s : State) (l : Nat) (en : Bool) : State :=
  let p := lanePort l
  let k := l - portLane p
  let live := s.portState p = pMGMT ∨ s.portState p = pUP
  if !s.fabricPort p then
    s.setLane l (if !en ∨ s.rd F.LINK_ETH_STATUS_STATE [2 * (p - 24) + k / 8] = 0 then 0 else 1)
  else if en then
    if !live ∨ bitOf (s.link p).lpIdle (k / 8) then s
    else if s.laneState l = 0 ∨ s.laneState l = 4 then s.setLane l 1
    else if s.laneState l = 2 ∧ (Tbl.find k (s.link p).tests).isNone then s.sendWidth p ((s.link p).announced ||| 2 ^ k)
    else s
  else
    let s := if live then s.dropTest p l else s
    if live ∧ s.laneState l = 2 then
      let m := maskMinus (s.link p).announced (2 ^ k)
      ((s.sendWidth p m).narrow p m).settleLanes p
    else s.setLane l (if live then 4 else 0)

end Sys2Proof.Machine
end

