-- ==== Sys2Proof/Machine/Route.lean ====
section
/-! DEFINITION. The routing engine and the resequencer (R293 to R319, R341 to R350, R360): where a packet goes, whether it
is admitted, held, discarded or delivered. -/
namespace Sys2Proof.Machine

/-- R28: the switch's own ID. -/
def State.switchId (s : State) : Nat :=
  s.rd F.GLB_COORD_X [] * 128 + s.rd F.GLB_COORD_Y [] * 16 + s.rd F.GLB_COORD_Z []

/-- R28: whether a switch ID is valid; z = 9 is, on the bench module itself. -/
def State.validId (s : State) (id : Nat) : Bool :=
  decide (id % 16 ≤ 8) || (id % 16 == 9 && id == s.switchId)

/-- R29, R30: the fabric address of an internal endpoint function of a die of this switch. -/
def State.ownAddr (s : State) (die g : Nat) : Nat := s.switchId * 64 + 32 + 8 * die + g

/-- A counter of the routing engine; its saturation sets a bit and raises an event (R337). -/
def State.rtCount (s : State) (n : Nat) : State :=
  let r := s.bump F.RT_CNT_COUNT [n] 1
  if r.2 then
    (r.1.setRaw .rtCntSat [] (r.1.rawReg .rtCntSat [] ||| 2 ^ n)).event .rtCntSat []
  else r.1

/-! ### Route entries (R312, R314) -/

/-- A route entry's fields (R312). -/
structure Route where
  valid : Bool
  here : Bool
  adapt : Nat
  esc : Nat
  escDl : Bool
  alt : Nat
  altDl : Bool
  altValid : Bool
  holdOk : Bool
  group : Nat
  deriving DecidableEq, Repr

/-- R312: a route entry decoded. -/
def Route.ofNat (n : Nat) : Route :=
  ⟨bitOf n 0, bitOf n 1, fieldOf n 2 8, fieldOf n 10 3, bitOf n 13, fieldOf n 14 3, bitOf n 17, bitOf n 18, bitOf n 19,
   fieldOf n 20 4⟩

/-- The positions present in the Z ring, rising. -/
def zList (present : Nat) : List Nat := (List.range 9).filter (fun z => bitOf present z)

/-- R22, R24: whether two positions of the Z ring are joined by a hop: next neighbours, or neighbours across one gap. -/
def zJoined (a b : Nat) : Bool := (b + 9 - a) % 9 == 1 || (b + 9 - a) % 9 == 2

/-- R22, R24: from position `a`, the next present position in the plus direction, and whether a hop leads there. -/
def zNext (present a : Nat) : Nat :=
  (((List.range 9).map (fun i => (a + 1 + i) % 9)).find? (fun z => bitOf present z)).getD a

/-- The next present position in the minus direction. -/
def zPrev (present a : Nat) : Nat :=
  (((List.range 9).map (fun i => (a + 8 - i) % 9)).find? (fun z => bitOf present z)).getD a

/-- R24: the ring is open: a gap that no skip link spans. -/
def zOpen (present : Nat) : Bool := (zList present).any (fun z => !zJoined z (zNext present z))

/-- Hops from one position to another in the plus direction, counted over present positions. -/
def zDist (present a b : Nat) : Nat :=
  ((List.range 9).map (fun i => (a + 1 + i) % 9)).foldl (fun (acc : Nat × Bool) z =>
    if acc.2 then acc else (if bitOf present z then (acc.1 + 1, z == b) else acc)) (0, a == b) |>.1

/-- Whether the path in the plus direction from `a` to `b` crosses a hop that does not exist (R24). -/
def zBroken (present a b : Nat) : Nat → Bool
  | 0 => false
  | k + 1 => if a = b then false else !zJoined a (zNext present a) || zBroken present (zNext present a) b k

/-- Output codes of a Z hop: ZP or ZP2 in the plus direction, ZN or ZN2 in the minus one (R19, R312). -/
def zCode (a b : Nat) (plus : Bool) : Nat :=
  if plus then (if (b + 9 - a) % 9 = 1 then 0 else 2) else (if (a + 9 - b) % 9 = 1 then 1 else 3)

/-- R308: whether a Z hop crosses the date line, the hop between the highest and the lowest present position. -/
def zDate (present a b : Nat) : Bool :=
  match (zList present).head?, (zList present).getLast? with
  | some lo, some hi => (a == hi && b == lo) || (a == lo && b == hi)
  | _, _ => false

/-- R314: the Z hops of an entry rewritten for the current Z ring path; `me` and `dst` are positions. -/
def Route.rewriteZ (r : Route) (present me dst : Nat) : Route :=
  if present = 0x1FF ∨ me = dst ∨ !bitOf present dst ∨ !bitOf present me then r
  else
    let up := zNext present me
    let dn := zPrev present me
    let d := zDist present me dst
    let n := (zList present).length
    let plus := if zBroken present me dst 9 then false else if zBroken present dst me 9 then true else decide (d ≤ n - d)
    let hop (p : Bool) : Nat × Bool := if p then (zCode me up true, zDate present me up) else (zCode me dn false, zDate present me dn)
    let r := if r.esc < 4 then { r with esc := (hop plus).1, escDl := (hop plus).2 } else r
    if r.alt < 4 ∧ r.altValid then { r with alt := (hop (!plus)).1, altDl := (hop (!plus)).2 } else r

/-- R314: the Z ring path that routing uses: the full ring until it has formed. -/
def State.zPath (s : State) : Nat := if s.fab.zFormed then s.rd F.RT_BRINGUP_Z_PRESENT [] else 0x1FF

/-- The route entry of a destination as the routing engine uses it. -/
def State.route (s : State) (dst : Nat) : Route :=
  (Route.ofNat (s.rd F.RT_ENTRY_ENTRY [dst])).rewriteZ s.zPath (s.rd F.GLB_COORD_Z []) (dst / 64 % 16)

/-! ### Admission at an output -/

/-- Where a packet would go in an output buffer: tile, queue, fallback, shared cells, reserve. -/
structure Place where
  tile : Nat
  queue : Nat
  fallback : Bool
  shared : Nat
  esc : Bool
  deriving DecidableEq, Repr

/-- R343, R346, R354: the place that a packet would take at a port; none when it is refused there. -/
def State.place (s : State) (p : Pkt) (port : Nat) (here : Bool) (force : Option Nat) (onEsc : Bool) : Option Place :=
  match s.selectQueue p port here force with
  | none => none
  | some (t, j, fb) =>
    if !(s.tm t).canCache j then none
    else (s.tmAdmit t p.cls p.cells onEsc).map (fun a => ⟨t, j, fb, a.1, a.2⟩)

/-- R354: a refusal for want of a cache entry is counted. -/
def State.noteFull (s : State) (p : Pkt) (port : Nat) (here : Bool) (force : Option Nat) : State :=
  match s.selectQueue p port here force with
  | none => s
  | some (t, j, _) => if (s.tm t).canCache j then s else s.tmCount t 22 1

/-- How a packet is offered: the port it came on, its colour, whether R346 has refused it before, whether the resequencer has
let it pass, whether it is new ingress at the switch's edge (R319). -/
structure Offer where
  inPort : Nat
  colour : Nat
  again : Bool
  seqd : Bool
  edge : Bool
  deriving DecidableEq, Repr

/-- R364: a BE packet is checked against random early drop at the tile that it would be queued in, before R346. -/
def State.redAt (s : State) (p : Pkt) (port colour : Nat) (here : Bool) (force : Option Nat) : Bool × State :=
  if p.cls ≠ 7 then (false, s)
  else match s.selectQueue p port here force with
    | some (t, _, _) => s.redCheck t colour
    | none => (false, s)

/-- A packet admitted at a place: counted, and queued with its hop counted (R288); one that finds no
link credit is counted as waiting for it (R415). -/
def State.commit (s : State) (p : Pkt) (port vc : Nat) (o : Offer) (pl : Place) : State :=
  let s := if pl.fallback then s.tmCount pl.tile 24 1 else s
  let s := if o.again then s.tmCount pl.tile 31 1 else s
  let short := s.fabricPort port && vc != 0 && decide (s.creditLeft port (vcOf p.cls vc) < p.cells)
  let s := if short then s.linkCount port 8 1 else s
  s.tmEnqueue port pl.tile pl.queue ⟨{ p with vc := vc, hops := (p.hops + 1) % 32 }, port, o.inPort, p.vc, o.seqd, p.cells,
    pl.shared, pl.esc, o.colour, none, s.now, if s.fabricPort port then 0 else s.rawReg .linkGwEntry [p.dst % 64 - 16],
    o.again, short⟩

/-- Cells of a class queued for a port (R313). -/
def State.queuedCells (s : State) (port cls : Nat) : Nat :=
  ((List.range (portTiles port)).map (fun i =>
    ((s.tm (portTile port + i)).queues.map (fun (e : Nat × List QPkt) =>
      ((e.2.filter (fun q => q.pkt.cls == cls)).map (·.cells)).foldl (· + ·) 0)).foldl (· + ·) 0)).foldl (· + ·) 0

/-- The ring that a port belongs to: 0 Z, 1 X, 2 Y, 3 none. -/
def ringOf (port : Nat) : Nat := if port < 16 then 3 else if port < 20 then 0 else if port < 22 then 1 else if port < 24 then 2 else 3

/-- R308: the escape channel of a hop: E1 across the date line, or when the packet came on E1 over the same ring. -/
def escapeVc (inPort inVc out : Nat) (dl : Bool) : Nat :=
  if dl ∨ (inVc = 2 ∧ ringOf inPort = ringOf out ∧ ringOf out ≠ 3) then 2 else 1

/-- R313, R320: a port that is UP takes any packet, one in MGMT management packets. -/
def State.portTakes (s : State) (p cls : Nat) : Bool := s.portUp p || (s.portState p == pMGMT && cls == 6)

/-- R313, R315: the minimal outputs that are UP, fewest queued cells of the class first. -/
def State.adaptPorts (s : State) (r : Route) (cls : Nat) : List Nat :=
  let skip := decide (3 ≤ s.rd F.RT_FABLEVEL_FABRIC_MIN [])
  let cs := (List.range 8).filter (fun c => bitOf r.adapt c && s.portTakes (16 + c) cls && (skip || c != 2 && c != 3))
  let key (c : Nat) : Nat := s.queuedCells (16 + c) cls
  cs.foldl (fun (acc : List Nat) c =>
    let lo := acc.takeWhile (fun p => decide (key (p - 16) ≤ key c))
    lo ++ (16 + c) :: acc.drop lo.length) []

/-- What becomes of a packet that is offered: it has left its place; R346 refuses it; it waits at the edge for its drain
group (R319); no output is usable. -/
inductive Fate where
  | gone
  | refused
  | waits
  | held
  deriving DecidableEq, Repr

/-- R347: a packet that no output admits: a BE packet is discarded, any other waits. -/
def State.refusedAt (s : State) (p : Pkt) (port : Nat) (here : Bool) (force : Option Nat) : State × Fate :=
  let s := s.noteFull p port here force
  if p.cls = 7 then
    (match s.selectQueue p port here force with
     | some (t, _, _) => (s.tmCount t 16 1, .gone)
     | none => (s.tmCount (leadTile port) 16 1, .gone))
  else (s, .refused)

/-- R319: an entry's drain group is held. -/
def State.groupHeld (s : State) (r : Route) : Bool := r.holdOk && bitOf (s.rd F.RT_STATUS_HELD []) r.group

/-- R319: a packet of RSP, CDN, CMB or MGT to a held drain group keeps to escape channels. -/
def State.keepsEscape (s : State) (p : Pkt) (r : Route) : Bool :=
  s.groupHeld r && (p.cls == 1 || p.cls == 3 || p.cls == 5 || p.cls == 6)

/-- R309, R313, R348: a packet offered to a port, first on the adaptive channel, then on an escape channel; `keepEsc` when it
keeps to the latter (R319). -/
def State.offerPort (s : State) (p : Pkt) (port escVc : Nat) (o : Offer) (here keepEsc : Bool) (force : Option Nat) : State × Fate :=
  match s.redAt p port o.colour here force with
  | (true, s) => (s, .gone)
  | (false, s) =>
    let v := vcOf p.cls 0
    let ad := if keepEsc then none else if !s.fabricPort port ∨ p.cells ≤ s.creditLeft port v then s.place p port here force false else none
    match ad with
    | some pl =>
      let s := if s.fabricPort port then s.reserveCredit port v p.cells else s
      (s.commit p port 0 o pl, .gone)
    | none =>
      match s.place p port here force true with
      | some pl => (s.commit p port escVc o pl, .gone)
      | none => s.refusedAt p port here force

/-- R313: a packet offered to the outputs of its entry. One of RSP, CDN, CMB or MGT to a held drain group keeps to escape
channels (R319). -/
def State.offerTransit (s : State) (p : Pkt) (r : Route) (o : Offer) : State × Fate :=
  let ps := s.adaptPorts r p.cls
  let fit := if s.keepsEscape p r then none
    else ps.findSome? (fun q =>
      if p.cells ≤ s.creditLeft q (vcOf p.cls 0) then (s.place p q false none false).map (fun pl => (q, pl)) else none)
  let altUp := r.altValid && s.portTakes (16 + r.alt) p.cls
  let escUp := s.portTakes (16 + r.esc) p.cls
  let out : Option (Nat × Bool) :=
    if (ps.isEmpty || !escUp) && altUp then some (16 + r.alt, r.altDl)
    else if escUp then some (16 + r.esc, r.escDl) else none
  match fit, out with
  | some (q, pl), _ =>
    (match s.redAt p q o.colour false none with
     | (true, s) => (s, .gone)
     | (false, s) => ((s.reserveCredit q (vcOf p.cls 0) p.cells).commit p q 0 o pl, .gone))
  | none, none => (s, .held)
  | none, some (q, dl) =>
    match s.redAt p q o.colour false none with
    | (true, s) => (s, .gone)
    | (false, s) =>
      match s.place p q false none true with
      | some pl => (s.commit p q (escapeVc o.inPort p.vc q dl) o pl, .gone)
      | none => s.refusedAt p q false none

/-! ### The resequencer (R296 to R301) -/

/-- A NACK of a packet goes back to its source (R300, R302). It carries TILE zero, as an ACK and GET_DATA do: the packet that
they answer does not name its source's tile (DESIGN CHOICE, log 14). -/
def State.sendNack (s : State) (die : Nat) (p : Pkt) (reason : Nat) : State :=
  let n := { Pkt.make kNACK (ackClass p.cls) p.src p.dst with comm := p.comm, seq := p.seq, arg := p.cls + 8 * reason }
  s.owe (.inject die n.seal none)

/-- R300: an ACK of a stream: everything up to a number is delivered and performed. -/
def State.sendAck (s : State) (die : Nat) (k : StreamKey) (seq : Nat) : State :=
  let a := { Pkt.make kACK (ackClass k.cls) k.src k.dst with comm := k.comm, seq := seq, arg := k.cls }
  s.owe (.inject die a.seal none)

/-- A stream's context at a tile. -/
def State.ctx (s : State) (t : Nat) (k : StreamKey) : Option Ctx := (s.tm t).ctxs.find? (fun c => c.key == k)

/-- A stream's context set. -/
def State.setCtx (s : State) (t : Nat) (c : Ctx) : State :=
  s.updTm t (fun tm => { tm with ctxs := c :: tm.ctxs.filter (fun x => !(x.key == c.key)) })

/-- Cells that packets held ahead of order occupy. -/
def heldCells (ps : List HeldPkt) : Nat := (ps.map (fun h => h.pkt.cells)).foldl (· + ·) 0

/-- A stream's context dropped, with the packets it holds. -/
def State.dropCtx (s : State) (t : Nat) (k : StreamKey) : State :=
  match s.ctx t k with
  | none => s
  | some c => s.updTm t (fun tm => { tm with ctxs := tm.ctxs.filter (fun x => !(x.key == k)), reorder := tm.reorder - heldCells c.held })

/-- R297: contexts of a tile, on chip and in HBM. -/
def ctxLimit : Nat := 4096 + 262144

/-- R297: a context's state reads as uncorrectable: it is kept and marked. -/
def State.poisonCtx (s : State) (k : StreamKey) : State :=
  { s with fab := { s.fab with tm := s.fab.tm.map (fun (e : Nat × TmTile) =>
      (e.1, { e.2 with ctxs := e.2.ctxs.map (fun c => if c.key == k then { c with poisoned := true } else c) })) } }

/-- What the resequencer makes of a packet: it is next in order, or dealt with. -/
inductive SeqOut where
  | next
  | done
  deriving DecidableEq, Repr

/-- R300: the current acknowledgement of a stream, if anything of it has been performed. -/
def State.ackAgain (s : State) (t : Nat) (c : Ctx) : State :=
  match c.done with
  | some n => s.sendAck (tileDie t) c.key n
  | none => s

/-- R296: what the resequencer does by the distance of a packet from the number that it expects. -/
def State.reseqIn (s : State) (t : Nat) (c : Ctx) (p : Pkt) (colour inPort : Nat) : State × SeqOut :=
  let d := (p.seq + 2 ^ 16 - c.e) % 2 ^ 16
  if d = 0 then (s, .next)
  else if d < 4096 then
    if c.held.any (fun h => h.pkt.seq == p.seq) then (s.rtCount 7, .done)
    else if (s.tm t).reorder + p.cells ≤ s.rd F.TM_BUF_CFG_REORDER [t] then
      ((s.setCtx t { c with held := c.held ++ [⟨p, colour, inPort, false⟩] }).updTm t
        (fun tm => { tm with reorder := tm.reorder + p.cells }), .done)
    else ((s.rtCount 9).sendNack (tileDie t) p 1, .done)
  else if 2 ^ 15 ≤ d then ((s.rtCount 7).ackAgain t c, .done)
  else (s.rtCount 8, .done)

/-- R296 to R298, R301: a packet of a stream reaches the resequencer of its egress tile. -/
def State.reseq (s : State) (t : Nat) (p : Pkt) (colour inPort : Nat) : State × SeqOut :=
  let die := tileDie t
  if !p.trailerOk then
    let s := s.report ⟨die, 1, 0x0E, 0, p.src, 0, false, false, false⟩
    if p.ordered then ((s.rtCount 6).sendNack die p 0, .done) else (s, .done)
  else if !p.ordered then (s, .next)
  else
    let s := if p.syn then s.dropCtx t p.key else s
    match s.ctx t p.key with
    | none =>
      if !p.syn then ((s.rtCount 10).sendNack die p 2, .done)
      else if ctxLimit ≤ (s.tm t).ctxs.length then ((s.rtCount 10).sendNack die p 3, .done)
      else
        let c : Ctx := ⟨p.key, 0, [], none, none, 0, false, s.now⟩
        (s.setCtx t c).reseqIn t c p colour inPort
    | some c =>
      let c := { c with last := s.now }
      let s := s.setCtx t c
      if c.poisoned then (s.sendNack die p 4, .done) else s.reseqIn t c p colour inPort

/-- R298: whether a packet fits the message in progress on its stream; the progress after it, none when it ends. -/
def msgStep (m : Option (Nat × Nat)) (p : Pkt) : Option (Option (Nat × Nat)) :=
  match m with
  | none => if p.pktIdx = 0 then some (if p.msgLast = 0 then none else some (p.msgLast, 1)) else none
  | some (last, n) =>
    if p.msgLast = last ∧ p.pktIdx = n then some (if n = last then none else some (last, n + 1)) else none

/-- R296: the next expected number moves on past a packet. -/
def State.advanceSeq (s : State) (t : Nat) (p : Pkt) : State :=
  if !p.ordered then s
  else match s.ctx t p.key with
    | none => s
    | some c => s.setCtx t { c with e := (p.seq + 1) % 2 ^ 16 }

/-- R298: a packet in order is taken by its internal endpoint, unless it does not fit its message. -/
def State.takeInOrder (s : State) (t : Nat) (p : Pkt) : State × Bool :=
  if !p.ordered then (s, true)
  else match s.ctx t p.key with
    | none => (s, false)
    | some c =>
      match msgStep c.msg p with
      | none => (s.rtCount 11, false)
      | some m => ((s.setCtx t { c with msg := m }).advanceSeq t p, true)

/-- R298, R341: a packet in order is delivered to an internal endpoint. -/
def State.deliverIn (s : State) (t : Nat) (p : Pkt) : State × Fate :=
  match s.takeInOrder t p with
  | (s, true) => (s.owe (.deliver t p), .gone)
  | (s, false) => (s, .gone)

/-- R30: whether an internal endpoint index is reserved. -/
def reservedEndpoint (e : Nat) : Bool :=
  let g := (e - 32) % 8
  g == 5 || g == 6 || (g == 7 && decide (40 ≤ e))

/-- The tile that a packet to an internal endpoint is for (R290). -/
def internalTile (p : Pkt) : Nat := 16 * ((p.dst % 64 - 32) / 8) + p.tile

/-- The tile whose slice holds the context of a stream to an internal endpoint: one of its die by the hash of R343, in which
TILE does not enter, so that each stream has one context (R294, R296; log 69). -/
def ctxTile (p : Pkt) : Nat := 16 * ((p.dst % 64 - 32) / 8) + fieldOf (flowHash p true) 16 16 % 16

/-- R508: a packet for an internal endpoint of a die whose communicate path is in reset is not taken; the endpoint of the management
block does not lie behind that path. -/
def State.pathShut (s : State) (p : Pkt) : Bool := p.dst % 64 != 39 && s.inReset 5 ((p.dst % 64 - 32) / 8)

/-- The Ethernet port of a gateway entry and its tile (R404, R410). -/
def ethTile (e : Nat) : Nat := nth 46 [46, 47, 62, 63] e

/-- The Ethernet port that a tile carries. -/
def tileEth (t : Nat) : Option Nat := (List.range 4).find? (fun e => ethTile e == t)

/-- A counter of an Ethernet port; its saturation raises an event (R418). -/
def State.ethCount (s : State) (e n k : Nat) : State :=
  let r := s.bump F.LINK_ETH_CNT_COUNT [e, n] k
  if r.2 then r.1.event .linkEthCnt [e, n] else r.1

/-- R417: an Ethernet port is UP. -/
def State.ethUp (s : State) (e : Nat) : Bool := s.rd F.LINK_ETH_STATUS_STATE [e] == 4

/-- R410: whether a SERVE payload is a datagram that may leave: version 6, UDP, a payload length that fits. -/
def datagramOk (d : List Byte) : Bool :=
  decide (40 ≤ d.length) && leAt d 0 1 / 16 == 6 && leAt d 6 1 == 17 && beAt d 4 2 + 40 == d.length

/-- R313, R341: a packet whose entry is LOCAL. -/
def State.offerLocal (s : State) (p : Pkt) (o : Offer) : State × Fate :=
  let e := p.dst % 64
  if e < 16 then
    if !s.portTakes e p.cls then (s, .held)
    else match s.selectQueue p e true none with
      | none => if p.cls = 7 then (s.tmCount (leadTile e) 16 1, .gone) else (s, .refused)
      | some (t, _, _) =>
        match (if o.seqd then (s, SeqOut.next) else s.reseq t p o.colour o.inPort) with
        | (s, .done) => (s, .gone)
        | (s, .next) =>
          match s.offerPort p e 1 { o with seqd := true } true (s.keepsEscape p (s.route p.dst)) none with
          | (s, .gone) => (if o.seqd then s else s.advanceSeq t p, .gone)
          | r => r
  else if e < 32 then
    let q := s.rd F.LINK_GW_ENTRY_PORT [e - 16]
    if p.kind ≠ kSERVE ∨ !p.trailerOk ∨ !datagramOk p.payload ∨ !s.ethUp q then (s.ethCount q 12 1, .gone)
    else s.offerPort p (tilePort (ethTile q)) 0 o true false (some (ethTile q))
  else if s.pathShut p then (s, .gone)
  else
    let t := ctxTile p
    match s.reseq t p o.colour o.inPort with
    | (s, .done) => (s, .gone)
    | (s, .next) => s.deliverIn t p

/-! ### Offering -/

/-- R319: new ingress to a held drain group waits at the switch's edge. -/
def State.groupHolds (s : State) (p : Pkt) (r : Route) (edge : Bool) : Bool :=
  s.groupHeld r && edge && (p.cls == 0 || p.cls == 2 || p.cls == 4 || p.cls == 7)

/-- R293, R31, R32: the counter of a packet that has nowhere to go: no such switch, no valid entry, no gateway entry, or a reserved
internal endpoint. -/
def State.noWay (s : State) (p : Pkt) : Option Nat :=
  let r := s.route p.dst
  let e := p.dst % 64
  if !s.validId (p.dst / 64) ∨ !r.valid then some 0
  else if r.here ∧ 16 ≤ e ∧ e < 32 ∧ !s.on F.LINK_GW_ENTRY_VALID [e - 16] then some 0
  else if r.here ∧ 32 ≤ e ∧ reservedEndpoint e then some 1
  else none

/-- R293, R313, R319, R341: a packet that has passed its checks is offered to the switch. -/
def State.offer (s : State) (p : Pkt) (o : Offer) : State × Fate :=
  match s.noWay p with
  | some n => (s.rtCount n, .gone)
  | none =>
    let r := s.route p.dst
    if s.groupHolds p r o.edge then (s, .waits)
    else if r.here then s.offerLocal p o
    else s.offerTransit p r o

/-- R349: a packet without a usable output is held in the tile that R343 gives for its ESC port, or for its accelerator's
port, within the share of its class. -/
def State.hold (s : State) (p : Pkt) (o : Offer) (since : Nat) : State × Fate :=
  let r := s.route p.dst
  let port := if r.here then p.dst % 64 else 16 + r.esc
  match s.redAt p port o.colour r.here none with
  | (true, s) => (s, .gone)
  | (false, s) =>
    match s.selectQueue p port r.here none with
    | none => if p.cls = 7 then (s.tmCount (leadTile port) 16 1, .gone) else (s, .refused)
    | some (t, _, _) =>
      match s.tmAdmit t p.cls p.cells false with
      | none => if p.cls = 7 then (s.tmCount t 16 1, .gone) else (s, .refused)
      | some (sh, _) =>
        let s := if o.again then s.tmCount t 31 1 else s
        let q : QPkt := ⟨p, port, o.inPort, p.vc, o.seqd, p.cells, sh, false, o.colour, some since, s.now, 0, o.again, false⟩
        (s.updTm t (fun tm => { tm.take q with hold := tm.hold ++ [q] }), .gone)

/-- A packet offered, held when no output can be used. -/
def State.takeIn (s : State) (p : Pkt) (o : Offer) : State × Fate :=
  match s.offer p o with
  | (s, .held) => s.hold p o s.now
  | r => r

/-- What waits in a receive buffer or at an internal source. -/
def State.waiting (s : State) (i : Nat) : List WaitPkt := Tbl.look [] s.fab.rxWait i

/-- What waits replaced. -/
def State.setWaiting (s : State) (i : Nat) (l : List WaitPkt) : State :=
  { s with fab := { s.fab with rxWait := if l.isEmpty then Tbl.del i s.fab.rxWait else Tbl.put i l s.fab.rxWait } }

/-- R319: a packet that comes in at a port of accelerators or uplinks, or from an internal source, is at the edge. -/
def Offer.atEdge (inPort : Nat) (how : Ingress) (again : Bool) : Offer :=
  ⟨inPort, how.colour, again, false, decide (inPort < 16) || decide (24 ≤ inPort)⟩

/-- R353: an earlier copy of the same list waits. -/
def listWaits (ws : List WaitPkt) (how : Ingress) : Bool := how.list.isSome && ws.any (fun w => w.how.list == how.list)

/-- R300: whether two packets are acknowledgements of one stream. -/
def sameAck (a b : Pkt) : Bool :=
  a.kind == kACK && b.kind == kACK && a.dst == b.dst && a.src == b.src && a.comm == b.comm && a.arg == b.arg

/-- A packet joins those that wait; a pending acknowledgement of its stream is updated in place (R300). -/
def joinWaiting (ws : List WaitPkt) (w : WaitPkt) : List WaitPkt :=
  if ws.any (fun x => sameAck x.pkt w.pkt) then ws.map (fun x => if sameAck x.pkt w.pkt then { w with refused := x.refused } else x)
  else ws ++ [w]

/-- R340, R347, R353: what has entered the switch is offered behind what already waits; its receive buffer is freed when it
goes, and it waits when it does not. -/
def State.tryIn (s : State) (inPort : Nat) (w : WaitPkt) : State :=
  let wait (s : State) (w : WaitPkt) : State := s.setWaiting inPort (joinWaiting (s.waiting inPort) w)
  if listWaits (s.waiting inPort) w.how then wait s w
  else match s.takeIn w.pkt (Offer.atEdge inPort w.how w.refused) with
    | (s, .gone) => s.grantCredit inPort (vcOf w.pkt.cls w.pkt.vc) w.pkt.cells
    | (s, f) => wait s { w with refused := w.refused || f == .refused }

/-- R340, R347: a packet enters the switch. -/
def State.enter (s : State) (inPort : Nat) (p : Pkt) (how : Ingress) : State := s.tryIn inPort ⟨p, how, false⟩

/-- R347: a packet that waits is offered again; an earlier copy of its list goes first (R353). -/
def State.retryWait (s : State) (inPort i : Nat) : State :=
  let ws := s.waiting inPort
  match ws[i]? with
  | none => s
  | some w =>
    if listWaits (ws.take i) w.how then s
    else match s.takeIn w.pkt (Offer.atEdge inPort w.how w.refused) with
      | (s, .gone) => (s.setWaiting inPort (ws.eraseIdx i)).grantCredit inPort (vcOf w.pkt.cls w.pkt.vc) w.pkt.cells
      | (s, f) => s.setWaiting inPort (ws.set i { w with refused := w.refused || f == .refused })

/-- Everything that waits is offered again, in order. -/
def State.retryAllWaiting (s : State) : State :=
  (List.range 30).foldl (fun s i => (s.waiting i).foldl (fun s w => s.tryIn i w) (s.setWaiting i [])) s

/-- R313: the output whose buffer refuses a packet that is offered again: its accelerator port, or its escape output. -/
def State.outOf (s : State) (q : QPkt) : Nat :=
  let r := s.route q.pkt.dst
  if r.here then q.pkt.dst % 64
  else if ((s.adaptPorts r q.pkt.cls).isEmpty || !s.portTakes (16 + r.esc) q.pkt.cls) && r.altValid &&
    s.portTakes (16 + r.alt) q.pkt.cls then 16 + r.alt
  else 16 + r.esc

/-- R349: held packets are offered to the routing engine again; the time of their first holding stands, and one that R346 refuses
is marked so (R368). -/
def State.reofferHeld (s : State) : State :=
  (List.range 64).foldl (fun s t =>
    let l := (s.tm t).hold
    l.foldl (fun s q =>
      match (s.tm t).hold.find? (· == q) with
      | none => s
      | some _ =>
        let s' := s.updTm t (fun tm => { tm.give q with hold := tm.hold.erase q })
        match s'.offer q.pkt ⟨q.inPort, q.colour, q.again, q.seqd, false⟩ with
        | (s'', .gone) => s''
        | (_, .refused) => (s.noteFull q.pkt (s.outOf q) (s.route q.pkt.dst).here none).updTm t (fun tm =>
            { tm with hold := tm.hold.map (fun x => if x = q then { q with again := true } else x) })
        | _ => s) s) s

/-- R296: packets held ahead of order that are now next in order follow; at most `k` of them. One that R346 refuses stays, and is
marked so (R368). -/
def State.followHeld (s : State) (t : Nat) (key : StreamKey) : Nat → State
  | 0 => s
  | k + 1 =>
    match s.ctx t key with
    | none => s
    | some c =>
      match c.held.find? (fun h => h.pkt.seq == c.e) with
      | none => s
      | some h =>
        let p := h.pkt
        let s' := (s.setCtx t { c with held := c.held.filter (fun x => x.pkt.seq != p.seq) }).updTm t
          (fun tm => { tm with reorder := tm.reorder - p.cells })
        let r := if p.dst % 64 < 16 ∧ !s'.portTakes (p.dst % 64) p.cls then (s', Fate.held)
          else if p.dst % 64 < 16 then
            (match s'.offerPort p (p.dst % 64) 1 ⟨h.inPort, h.colour, h.again, true, false⟩ true
                (s'.keepsEscape p (s'.route p.dst)) none with
             | (s'', .gone) => (s''.advanceSeq t p, Fate.gone)
             | x => x)
          else s'.deliverIn t p
        match r with
        | (s'', .gone) => s''.followHeld t key k
        | (_, .refused) => (s.noteFull p (p.dst % 64) true none).setCtx t { c with
            held := c.held.map (fun x => if x.pkt.seq = p.seq then { x with again := true } else x) }
        | _ => s

/-- Behind a packet that has been performed, what was held on its stream follows (R296). -/
def State.followPkt (s : State) (t : Nat) (p : Pkt) : State :=
  if !p.ordered then s
  else match s.ctx t p.key with
    | none => s
    | some c => s.followHeld t p.key c.held.length

/-- Every context of a tile lets what is now in order follow. -/
def State.followTile (s : State) (t : Nat) : State :=
  (s.tm t).ctxs.foldl (fun s c => s.followHeld t c.key (c.held.length)) s

/-- Every context of every tile lets what is now in order follow. -/
def State.followAll (s : State) : State := (List.range 64).foldl (fun s t => s.followTile t) s

end Sys2Proof.Machine
end

