-- ==== Sys2Proof/Machine/E2e.lean ====
section
/-! DEFINITION. Streams at their source and at internal endpoints (R184, R185, R294 to R305): numbering, retention,
acknowledgement, re-sending, and PUT, GET and NOTIFY. -/
namespace Sys2Proof.Machine

/-! ### Streams at a source (R294, R295, R299) -/

/-- The stream of a key at this switch's sources, new ones starting with SYN. -/
def State.stream (s : State) (die : Nat) (k : StreamKey) : SrcStream :=
  (s.fab.streams.find? (fun x => x.key == k)).getD ⟨die, k, 0, true, false, [], [], 0⟩

/-- A stream replaced. -/
def State.setStream (s : State) (x : SrcStream) : State :=
  { s with fab := { s.fab with streams := x :: s.fab.streams.filter (fun y => !(y.key == x.key)) } }

/-- R262, R353: the copy list of a token copy: the copies of one token of one DISP. -/
def Own.copyList (o : Own) : Option (Nat × Nat × Nat) := if o.kind = 4 then some (o.a, o.b, o.c / 8) else none

/-- R295: the next waiting packet of a stream is numbered and sent, if the stream may send. A stream that starts again waits
until nothing of its earlier numbers is retained (log 14). -/
def State.pumpOne (s : State) (x : SrcStream) : Option (SrcStream × State) :=
  match x.waiting with
  | [] => none
  | (p, o) :: rest =>
    if x.synOut ∨ 4096 ≤ x.retained.length ∨ (x.start ∧ !x.retained.isEmpty) then none
    else
      let q := { p with seq := if x.start then 0 else x.next, syn := x.start }.seal
      let s := if bitOf q.flags 2 then s.rtCount 12 else s
      some ({ x with next := (q.seq + 1) % 2 ^ 16, start := false, synOut := x.start, waiting := rest,
                     retained := x.retained ++ [⟨q, o, s.now⟩] },
            s.owe (.inject x.die q (if bitOf q.flags 2 then none else o.copyList)))

/-- Waiting packets are sent while the stream may send; `n` of them at most. -/
def State.pumpN (s : State) (x : SrcStream) : Nat → SrcStream × State
  | 0 => (x, s)
  | n + 1 => match s.pumpOne x with
    | none => (x, s)
    | some (x', s') => s'.pumpN x' n

/-- A stream sends what it may. -/
def State.pump (s : State) (x : SrcStream) : State :=
  let r := s.pumpN x x.waiting.length
  r.2.setStream r.1

/-- Packets of one stream are handed to the communicate path, in order. -/
def State.sendPkts (s : State) (die : Nat) (ps : List (Pkt × Own)) : State :=
  match ps with
  | [] => s
  | (p, _) :: _ =>
    let x := s.stream die p.key
    s.pump { x with waiting := x.waiting ++ ps }

/-- R287: a packet marked as a re-send. -/
def Pkt.markRetx (p : Pkt) : Pkt := { p with flags := p.flags ||| 4 }

/-- A retained packet is sent again, with RETX set (R302, R303). -/
def State.resend (s : State) (x : SrcStream) (r : Retained) : State :=
  (s.rtCount 12).owe (.inject x.die { r.pkt.markRetx with vc := 0, hops := 0 }.seal none)

/-- R302: a stream starts again: what it retains is sent again under new numbers. The oldest packet carries SYN as SEQ 0, as
R295 asks of a restart, and the rest follow from 1 (DEDUCED, log 14). -/
def State.restart (s : State) (x : SrcStream) : State :=
  s.pump { x with start := true, synOut := false, retained := [], expiries := 0,
                  waiting := x.retained.map (fun r => (r.pkt.markRetx, r.own)) ++ x.waiting }

/-- Whether two packets belong to one operation. -/
def Own.same (a b : Own) : Bool :=
  a.kind == b.kind && a.kind != 0 && a.a == b.a && (a.kind == 1 || (a.b == b.b && a.c == b.c))

/-- R302, R303: an operation ends with a status: its packets leave the stream, whose next use starts it with SYN. -/
def State.endOwn (s : State) (x : SrcStream) (o : Own) (seq status : Nat) : State :=
  let x := { x with
    start := true, synOut := false, expiries := 0,
    retained := x.retained.filter (fun r => !(r.own.same o || r.pkt.seq == seq)),
    waiting := x.waiting.filter (fun w => !(w.2.same o)) }
  (s.owe (.released o status)).pump x

/-- R303: every operation that has packets retained on a stream ends with TIMEOUT. -/
def State.endStream (s : State) (x : SrcStream) : Nat → State
  | 0 => s.pump x
  | n + 1 =>
    match x.retained with
    | [] => s.pump x
    | r :: _ =>
      let x := { x with
        start := true, synOut := false, expiries := 0,
        retained := x.retained.filter (fun q => !(q.own.same r.own || q.pkt.seq == r.pkt.seq)),
        waiting := x.waiting.filter (fun w => !(w.2.same r.own)) }
      ((s.rtCount 13).owe (.released r.own 0x05)).endStream x n

/-- R300: an ACK covers what it covers: retention ends, and what waited on it goes on. -/
def State.performAck (s : State) (p : Pkt) : State :=
  match s.fab.streams.find? (fun x => x.key == ⟨p.dst, p.src, p.arg % 8, p.comm⟩) with
  | none => s
  | some x =>
    let covered (r : Retained) : Bool := decide ((p.seq + 2 ^ 16 - r.pkt.seq) % 2 ^ 16 < 4096)
    let gone := x.retained.filter covered
    if gone.isEmpty then s
    else
      let x := { x with
        retained := x.retained.filter (fun r => !covered r), expiries := 0,
        synOut := x.synOut && !(gone.any (fun r => r.pkt.syn)) }
      (gone.foldl (fun s r => s.owe (.released r.own 0)) s).pump x

/-- R302: a NACK makes the source act on its reason. -/
def State.performNack (s : State) (p : Pkt) : State :=
  match s.fab.streams.find? (fun x => x.key == ⟨p.dst, p.src, p.arg % 8, p.comm⟩) with
  | none => s
  | some x =>
    match x.retained.find? (fun r => r.pkt.seq == p.seq) with
    | none => s
    | some r =>
      match p.arg / 8 % 8 with
      | 1 => s
      | 3 => s
      | 2 => if x.synOut then s else s.restart x
      | 4 => s.endOwn x r.own r.pkt.seq 0x12
      | _ =>
        let stamp (y : Retained) : Retained := if y.pkt.seq == p.seq then { y with sentAt := s.now } else y
        (s.setStream { x with retained := x.retained.map stamp }).resend x r

/-- R332: a RETRY_LIMIT of 0 means no limit. -/
def State.retriesGone (s : State) (n : Nat) : Bool :=
  let lim := s.rd F.RT_E2E_RETRY_LIMIT []
  lim != 0 && decide (lim ≤ n)

/-- R303: a stream's re-send timer expires: what is retained is sent again, or its operations end. -/
def State.retxStream (s : State) (x : SrcStream) : State :=
  if x.retained.isEmpty then s
  else if x.key.cls ≤ 1 ∧ s.retriesGone (x.expiries + 1) then s.endStream x x.retained.length
  else
    let now (y : Retained) : Retained := { y with sentAt := s.now }
    let x := { x with expiries := x.expiries + 1, retained := x.retained.map now }
    x.retained.foldl (fun s r => s.resend x r) (s.setStream x)

/-! ### Acknowledgement at an internal endpoint (R300) -/

/-- R300, R328: packets that may stand unacknowledged. -/
def State.ackLimit (s : State) : Nat := if 2 ≤ s.rd F.RT_FABLEVEL_FABRIC_MIN [] then 64 else 16

/-- R300: the highest number delivered in order and performed is acknowledged. -/
def State.ackNow (s : State) (t : Nat) (c : Ctx) : State := (s.setCtx t { c with unacked := 0 }).ackAgain t c

/-- R300: a delivered packet has been performed: acknowledged at the end of its message, at the limit, or later. The number that
is acknowledged also covers a refused PUT packet before it (DESIGN CHOICE, log 69). -/
def State.performed (s : State) (t : Nat) (p : Pkt) : State :=
  if !p.ordered then s
  else match s.ctx t p.key with
    | none => s
    | some c =>
      let c := { c with unacked := c.unacked + 1, done := some p.seq }
      if p.pktIdx = p.msgLast ∨ s.ackLimit ≤ c.unacked then s.ackNow t c else s.setCtx t c

/-- R296: an accelerator's acknowledgement of a stream passes its switch, which keeps it as the current one (log 14). -/
def State.seeAck (s : State) (port : Nat) (p : Pkt) : State :=
  if 16 ≤ port ∨ p.kind ≠ kACK then s
  else
    let k : StreamKey := ⟨p.dst, p.src, p.arg % 8, p.comm⟩
    (List.range (portTiles port)).foldl (fun s i =>
      match s.ctx (portTile port + i) k with
      | some c => s.setCtx (portTile port + i) { c with done := some p.seq }
      | none => s) s

/-- R300: the acknowledgement delay limit of a stream expires. -/
def State.ackExpire (s : State) (t : Nat) (k : StreamKey) : State :=
  match s.ctx t k with
  | none => s
  | some c => if c.unacked = 0 then s else s.ackNow t c

/-- R297: a context without packets ages out. -/
def State.ageOut (s : State) (t : Nat) (k : StreamKey) : State :=
  match s.ctx t k with
  | none => s
  | some c => if c.held.isEmpty then s.dropCtx t k else s

/-! ### PUT and GET at their source (R184, R185) -/

/-- R114, R116, R172: the end that an access to one range meets before it moves data; DETAIL is the offset of the first
failed piece (R136). -/
def State.rangeVerdict (s : State) (who : Agent) (a n : Nat) : Option (Nat × Nat) :=
  let ps := (List.range (ceilDiv (a % 64 + n) 64)).map (· + a / 64)
  match ps.find? (fun p => (s.byteWin (64 * p)).isNone) with
  | some p => some (0x07, 64 * p - a)
  | none => (ps.find? (fun p => !s.admits (64 * p) 64 who)).map (fun p => (0x06, 64 * p - a))

/-- The byte ranges of the messages that carry `n` bytes: at most 32 MiB each (R291). -/
def messageCuts (n : Nat) : List (Nat × Nat) :=
  (List.range (ceilDiv n (32 * 2 ^ 20))).map (fun i => (i * (32 * 2 ^ 20), min (32 * 2 ^ 20) (n - i * (32 * 2 ^ 20))))

/-- Packets whose bytes meet a poisoned word carry POISON (R287, R305). -/
def markPoison (local_ : Nat) (bad : List Nat) (off : Nat) (p : Pkt) : Pkt :=
  let lo := local_ + off + 8192 * p.pktIdx
  if bad.any (fun w => meets lo p.payload.length (8 * w) 8) then { p with flags := p.flags ||| 8 } else p

/-- R184, R185: a PUT starts. -/
def State.startPut (s : State) (t : Nat) (op : EngOp) (ecc : Ecc) : State :=
  let die := tileDie t
  let n := op.sc.se % 2 ^ 32
  match s.rangeVerdict (.burin t) op.sc.sb n with
  | some v => s.tileStep t (fun tl => tl.failOp op v.1 v.2)
  | none =>
    let r := s.readMem op.sc.sb n ecc
    let s := r.2.2
    let id := s.fab.nextXfer
    let addr := op.sc.sc
    let ps := ((messageCuts n).map (fun m =>
      let a := (addr + m.1) % 2 ^ 64
      let base := { Pkt.make kPUT 0 (op.sc.sa % 2 ^ 16) (s.ownAddr die 0) with
        comm := fieldOf op.sc.sa 16 20, tile := fieldOf op.sc.sa 36 4, chunk := a % 2 ^ 32, opseq := a / 2 ^ 32 }
      (messagePkts base true ((r.1.drop m.1).take m.2)).map (fun p =>
        (markPoison op.sc.sb r.2.1 m.1 p, (⟨1, id, m.1 + 8192 * p.pktIdx, 0⟩ : Own))))).flatten
    let x : Xfer := ⟨id, t, op.entry, false, op.sc.sa % 2 ^ 16, fieldOf op.sc.sa 16 20, addr, op.sc.sb, n, ps.length,
      !r.2.1.isEmpty, 0⟩
    let s := { s with fab := { s.fab with xfers := s.fab.xfers ++ [x], nextXfer := id + 1 } }
    let s := s.tileStep t (fun tl => let tl := tl.dropOp op.entry
                                     { tl with commRun := tl.commRun ++ [{ op with plates := platesOf op.sc.sb n }] })
    s.sendPkts die ps

/-- R184, R185: a GET starts. -/
def State.startGet (s : State) (t : Nat) (op : EngOp) : State :=
  let die := tileDie t
  let n := op.sc.se % 2 ^ 32
  match s.rangeVerdict (.burin t) op.sc.sb n with
  | some v => s.tileStep t (fun tl => tl.failOp op v.1 v.2)
  | none =>
    let id := s.fab.nextXfer
    let ps := (messageCuts n).map (fun m =>
      let a := (op.sc.sc + m.1) % 2 ^ 64
      ({ Pkt.make kGETREQ 0 (op.sc.sa % 2 ^ 16) (s.ownAddr die 0) with
        comm := fieldOf op.sc.sa 16 20, tile := fieldOf op.sc.sa 36 4, chunk := a % 2 ^ 32, opseq := a / 2 ^ 32,
        payload := leBytes 8 m.2, flags := 3 }, (⟨1, id, m.1, 0⟩ : Own)))
    let x : Xfer := ⟨id, t, op.entry, true, op.sc.sa % 2 ^ 16, fieldOf op.sc.sa 16 20, op.sc.sc, op.sc.sb, n, n, false, 0⟩
    let s := { s with fab := { s.fab with xfers := s.fab.xfers ++ [x], nextXfer := id + 1 } }
    let s := s.tileStep t (fun tl => let tl := tl.dropOp op.entry
                                     { tl with commRun := tl.commRun ++ [{ op with plates := platesOf op.sc.sb n }] })
    s.sendPkts die ps

/-- R186: a NOTIFY posts its record; its ticket waits for the stylus port's confirmation. -/
def State.startNotify (s : State) (t : Nat) (op : EngOp) : State :=
  let ring := op.sc.sa % 4096
  match s.postCq ring op.sc.sb op.sc.sc (some (t, op.entry)) with
  | (s, .posted) => s.tileStep t (fun tl => let tl := tl.dropOp op.entry
                                            { tl with commRun := tl.commRun ++ [op] })
  | (s, .full) => s.tileStep t (fun tl => tl.failOp op 0x13 0)
  | (s, .off) => s.tileStep t (fun tl => tl.failOp op 0x14 ring)

/-- A communicate operation in progress on a tile ends. -/
def State.endComm (s : State) (t entry status detail : Nat) : State :=
  match opAt (s.tile t).commRun entry with
  | none => s
  | some op =>
    (s.tileStep t (fun tl => (tl.finish op ⟨status, detail, .none, [], [], [], none⟩).dropOp op.entry)).settlePlates

/-- R185: a PUT or GET ends. -/
def State.endXfer (s : State) (x : Xfer) (status detail : Nat) : State :=
  ({ s with fab := { s.fab with xfers := s.fab.xfers.filter (fun y => y.id != x.id) } }).endComm x.tile x.entry status detail

/-- A PUT or GET changed. -/
def State.setXfer (s : State) (x : Xfer) : State :=
  { s with fab := { s.fab with xfers := s.fab.xfers.map (fun y => if y.id == x.id then x else y) } }

/-- R185: retention of a packet of a PUT or GET has ended. -/
def State.xferReleased (s : State) (o : Own) (status : Nat) : State :=
  match s.fab.xfers.find? (fun x => x.id == o.a) with
  | none => s
  | some x =>
    if status ≠ 0 then s.endXfer x status (if status = 0x12 then o.b else 0)
    else if x.get then s
    else if x.left ≤ 1 then s.endXfer x (if x.bad then 0x03 else 0) 0
    else s.setXfer { x with left := x.left - 1 }

/-- R304: a GET whose request is acknowledged and whose data does not come waits for as many re-send times as RETRY_LIMIT
allows, then times out (DEDUCED: R298 and R304 name no other clock; log 14), and is counted (R337). -/
def State.getsWait (s : State) (k : StreamKey) : State :=
  if k.cls ≠ 0 then s
  else
    let mine (x : Xfer) : Bool := x.get && x.dst == k.dst && x.comm == k.comm && s.ownAddr (tileDie x.tile) 0 == k.src
    (s.fab.xfers.filter mine).foldl (fun s x =>
      if s.retriesGone (x.idle + 1) then (s.rtCount 13).endXfer x 0x05 0 else s.setXfer { x with idle := x.idle + 1 }) s

/-- R303, R304: the re-send timer of a stream expires. -/
def State.retxExpire (s : State) (k : StreamKey) : State :=
  match s.fab.streams.find? (fun x => x.key == k) with
  | none => s
  | some x => if x.retained.isEmpty then s.getsWait k else s.retxStream x

/-! ### PUT and GET at their destination (R427) -/

/-- R30: the function of an internal endpoint: 0 burin cores, 1 plates. -/
def endpointFn (dst : Nat) : Nat := (dst % 64 - 32) % 8

/-- R427: the address range that a PUT_DATA or GET_REQ names, if the plates endpoint serves it. -/
def State.fabricRange (s : State) (p : Pkt) (n : Nat) : Option Nat :=
  let t := internalTile p
  let a := plateBase + t * plateSize + p.addr
  if endpointFn p.dst = 1 ∧ p.addr + n ≤ plateSize ∧ s.admits a n (.fabric (tileDie t)) then some a else none

/-- R427: PUT_DATA is written, or refused. -/
def State.performPut (s : State) (t : Nat) (p : Pkt) : State :=
  match s.fabricRange p p.payload.length with
  | none => s.sendNack (tileDie t) p 4
  | some a =>
    let s := if p.poison then (s.writeMem a p.payload).writePoison a p.payload.length else s.writeMem a p.payload
    s.performed t p

/-- R427: GET_REQ is answered with GET_DATA, or refused. -/
def State.performGetReq (s : State) (t : Nat) (p : Pkt) (ecc : Ecc) : State :=
  let n := leAt p.payload 0 4
  match s.fabricRange p n with
  | none => s.sendNack (tileDie t) p 4
  | some a =>
    let r := s.readMem a n ecc
    let s := r.2.2.performed t p
    let base := { Pkt.make kGETDATA 1 p.src p.dst with comm := p.comm, chunk := p.chunk, opseq := p.opseq }
    let id := s.fab.nextXfer
    ({ s with fab := { s.fab with nextXfer := id + 1 } }).sendPkts (tileDie t)
      ((messagePkts base true r.1).map (fun q => (markPoison a r.2.1 0 q, (⟨9, id, 0, 0⟩ : Own))))

/-- R185: GET_DATA is written at the local destination of its GET. -/
def State.performGetData (s : State) (t : Nat) (p : Pkt) : State :=
  let s := s.performed t p
  match s.fab.xfers.find? (fun x => x.get && x.dst == p.src && x.comm == p.comm && tileDie x.tile == tileDie t) with
  | none => s
  | some x =>
    let off := (p.addr + 2 ^ 64 - x.remote) % 2 ^ 64
    if x.len < off + p.payload.length then s
    else
      let a := x.local_ + off
      let s := if p.poison then (s.writeMem a p.payload).writePoison a p.payload.length else s.writeMem a p.payload
      let x := { x with left := x.left - p.payload.length, bad := x.bad || p.poison, idle := 0 }
      if x.left = 0 then (s.setXfer x).endXfer x (if x.bad then 0x03 else 0) 0 else s.setXfer x

end Sys2Proof.Machine
end

