-- ==== Sys2Proof/Machine/Fec.lean ====
section
/-! DEFINITION. The codes of a lane frame (R383, R384): the inner parity code, and RS(544,514) over symbols of ten bits with
the field and the generator of IEEE 802.3 (x^10 + x^3 + 1, roots alpha^0 to alpha^29). Bits count from the first on the line;
the eight codewords follow one another, symbol by symbol, each symbol with its low bit first (log 53). -/
namespace Sys2Proof.Machine

/-- A product in the field, ten shifts. -/
def gfShift : Nat → Nat → Nat → Nat → Nat
  | 0, _, _, acc => acc
  | k + 1, a, b, acc =>
    gfShift k (if 1024 ≤ 2 * a then (2 * a) ^^^ 0x409 else 2 * a) (b / 2) (if b % 2 = 1 then acc ^^^ a else acc)

/-- A product in the field. -/
def gfMul (a b : Nat) : Nat := gfShift 10 a b 0

/-- A power in the field. -/
def gfPow (a : Nat) : Nat → Nat
  | 0 => 1
  | n + 1 => gfMul a (gfPow a n)

/-- An inverse in the field: a to the power 1022. -/
def gfInv (a : Nat) : Nat :=
  ((List.range 9).foldl (fun (x : Nat × Nat) _ => let q := gfMul x.1 x.1; (q, gfMul x.2 q)) (a, 1)).2

/-- The value of a polynomial, lowest coefficient first. -/
def gfEval (c : List Nat) (x : Nat) : Nat := c.foldr (fun a acc => a ^^^ gfMul x acc) 0

/-- The sum of two polynomials. -/
def gfAdd : List Nat → List Nat → List Nat
  | [], b => b
  | a, [] => a
  | x :: a, y :: b => (x ^^^ y) :: gfAdd a b

/-- The thirty syndromes of a codeword whose first symbol has the highest power. -/
def syndromes (cw : List Nat) : List Nat :=
  (List.range 30).map (fun i => let x := gfPow 2 i; cw.foldl (fun acc r => gfMul acc x ^^^ r) 0)

/-- The search for the error locator (Berlekamp and Massey): the locator and its length, the last one that failed, its
discrepancy, and the steps since. -/
structure Locator where
  c : List Nat
  l : Nat
  b : List Nat
  d : Nat
  m : Nat
  deriving DecidableEq, Repr

/-- One step of the search, for syndrome `n`. -/
def Locator.next (s : List Nat) (x : Locator) (n : Nat) : Locator :=
  let d := (List.range (x.l + 1)).foldl (fun acc i =>
    if i ≤ n then acc ^^^ gfMul (nth 0 x.c i) (nth 0 s (n - i)) else acc) 0
  if d = 0 then { x with m := x.m + 1 }
  else
    let k := gfMul d (gfInv x.d)
    let c := gfAdd x.c (List.replicate x.m 0 ++ x.b.map (gfMul k))
    if 2 * x.l ≤ n then ⟨c, n + 1 - x.l, x.c, d, 1⟩ else { x with c := c, m := x.m + 1 }

/-- A codeword decoded: the codeword, and whether symbols of it were corrected; none when more than 15 are wrong (R384). -/
def rsDecode (cw : List Nat) : Option (List Nat × Bool) :=
  let s := syndromes cw
  if s.all (· == 0) then some (cw, false)
  else
    let x := (List.range 30).foldl (fun (x : Locator) n => x.next s n) ⟨[1], 0, [1], 1, 1⟩
    let at_ := (List.range 544).filter (fun e => gfEval x.c (gfInv (gfPow 2 e)) == 0)
    let omega := (List.range 30).map (fun n => (List.range (n + 1)).foldl (fun acc i =>
      acc ^^^ gfMul (nth 0 x.c i) (nth 0 s (n - i))) 0)
    let slope := (List.range x.c.length).map (fun i => if i % 2 = 0 then nth 0 x.c (i + 1) else 0)
    let fixed := (cw.zip (List.range 544)).map (fun r =>
      let e := 543 - r.2
      if at_.contains e then
        let inv := gfInv (gfPow 2 e)
        r.1 ^^^ gfMul (gfPow 2 e) (gfMul (gfEval omega inv) (gfInv (gfEval slope inv)))
      else r.1)
    if x.l ≤ 15 ∧ at_.length = x.l ∧ (syndromes fixed).all (· == 0) then some (fixed, true) else none

/-- Whether a number has an odd count of ones among its low `n` bits. -/
def oddOnes (v n : Nat) : Bool := (List.range n).foldl (fun b i => b != bitOf v i) false

/-- A lane's frame decoded: the 5,140 message bytes; symbols that the inner code moved; codewords that the inner code alone
repaired, that the outer code corrected, and that it could not correct (R384). -/
structure LaneMsg where
  lane : Nat
  bytes : List Byte
  flips : Nat
  inner : Nat
  corrected : Nat
  lost : Nat
  deriving DecidableEq, Repr

/-- R384, step 1: the inner blocks of a frame: the 256 bits of each, and which bit of which block was moved. -/
def innerDecode (f : LaneFrame) : List (Nat × Option (Nat × Nat)) :=
  (List.range 170).map (fun i =>
    let v := fieldOf f.line (257 * i) 257
    if oddOnes v 257 then
      let k := nth 0 f.weak i
      (fieldOf (v ^^^ 2 ^ k) 0 256, some (i, k))
    else (fieldOf v 0 256, none))

/-- Numbers of `w` bits put together, the first lowest. -/
def joinBits (w : Nat) : List Nat → Nat
  | [] => 0
  | v :: vs => v + 2 ^ w * joinBits w vs

/-- R384: a lane's frame decoded, inner code and outer code. -/
def LaneFrame.decode (f : LaneFrame) : LaneMsg :=
  let blocks := innerDecode f
  let bits := joinBits 256 (blocks.map (·.1))
  let moved := blocks.filterMap (·.2)
  let words := (List.range 8).map (fun j =>
    let cw := (List.range 544).map (fun k => fieldOf bits (10 * (544 * j + k)) 10)
    (cw, rsDecode cw, moved.any (fun b => decide (b.2 < 256) && (256 * b.1 + b.2) / 5440 == j)))
  let msg := joinBits 10 ((words.map (fun w => ((w.2.1.map (·.1)).getD w.1).take 514)).flatten)
  { lane := f.lane, bytes := leBytes 5140 msg, flips := moved.length,
    inner := (words.filter (fun w => w.2.1.map (·.2) == some false && w.2.2)).length,
    corrected := (words.filter (fun w => w.2.1.map (·.2) == some true)).length,
    lost := (words.filter (fun w => w.2.1.isNone)).length }

end Sys2Proof.Machine
end

