-- ==== Sys2Proof/Machine/Arrive.lean ====
section
/-! DEFINITION. Packets that arrive on a port and leave by one (R293, R320, R340 to R362, R384 to R396, R403, R410). -/
namespace Sys2Proof.Machine

/-! ### Arrival (R293) -/

/-- R361, R378: the pre-colour of a packet: that of its DSCP for a SERVE packet from an uplink, else green. -/
def State.preColour (s : State) (port : Nat) (p : Pkt) : Nat :=
  if p.kind = kSERVE ∧ 24 ≤ port then
    let dscp := (fieldOf (leAt p.payload 0 1) 0 4 * 16 + leAt p.payload 1 1 / 16) / 4
    let lead := leadTile port
    min 2 (if dscp < 32 then fieldOf (s.rawReg .tmDscpColour0 [lead]) (2 * dscp) 2
           else fieldOf (s.rawReg .tmDscpColour1 [lead]) (2 * (dscp - 32)) 2)
  else 0

/-- A packet that is discarded leaves the receive buffer (R392). -/
def State.freeRx (s : State) (port : Nat) (p : Pkt) : State := s.grantCredit port (vcOf p.cls p.vc) p.cells

/-- R360 to R362, R340: a packet that has passed its checks, the last of R293 among them, is policed and enters the switch; `eth` is the Ethernet port and
the priority of its frame. -/
def State.enterPort (s : State) (port : Nat) (p : Pkt) (eth : Option (Nat × Nat)) : State :=
  match s.noWay p with
  | some n => (s.rtCount n).freeRx port p
  | none =>
    match s.police p port (s.preColour port p) with
    | (_, true, s) => s.freeRx port p
    | (c, false, s) => s.enter port p ⟨c, none, eth⟩

/-- R293, R320, R511: a packet arrives on a port; `ctxBad` tells that its stream's context reads as uncorrectable (R297). -/
def State.arrive (s : State) (port : Nat) (bytes : List Byte) (ctxBad : Bool) : State :=
  let st := s.portState port
  if !s.fabricPort port ∨ !(st = pMGMT ∨ st = pUP) then s
  else match Pkt.parse bytes with
    | .hdrCheck => (s.rtCount 2).freeRx port (Pkt.ofBytes bytes)
    | .bad => (s.rtCount 3).freeRx port (Pkt.ofBytes bytes)
    | .ok p =>
      let j := s.injected 0x0D (portDie port) 0 port 1
      let s := j.2.2.2
      if j.1 ≠ 0 then (s.rtCount 2).freeRx port p
      else if 24 ≤ p.hops then (s.rtCount 5).freeRx port p
      else if port < 16 ∧ p.src ≠ s.switchId * 64 + port then (s.rtCount 4).freeRx port p
      else if st = pMGMT ∧ p.cls ≠ 6 then s.freeRx port p
      else if p.kind = kDISCOVER ∨ p.kind = kTIME then (s.freeRx port p).owe (.portMsg port p)
      else ((if ctxBad then s.poisonCtx p.key else s).seeAck port p).enterPort port p none

/-- R349: a held packet's hold reaches its limit. -/
def State.holdExpire (s : State) (t i : Nat) : State :=
  match (s.tm t).hold[i]? with
  | none => s
  | some q =>
    let s := (s.updTm t (fun tm => { tm.give q with hold := tm.hold.eraseIdx i })).tmCount t 23 1
    let s := if (q.pkt.kind = kPARTIAL ∨ q.pkt.kind = kRESULT) ∧ q.pkt.src / 64 = s.switchId ∧ q.pkt.dst / 64 ≠ s.switchId
      then s.owe (.memberLost q.pkt.comm q.pkt.opseq) else s
    s.owe .retryAll

/-! ### Ethernet frames (R410) -/

/-- CRC-32 of IEEE 802.3: eight shifts of the reflected register. -/
def crc32Shift : Nat → Nat → Nat
  | 0, c => c
  | k + 1, c => crc32Shift k (if c % 2 = 1 then (c / 2) ^^^ 0xEDB88320 else c / 2)

/-- The frame check sequence of a frame (R405, R410). -/
def fcs (bs : List Byte) : Nat :=
  (bs.foldl (fun c b => crc32Shift 8 (c ^^^ b.toNat)) 0xFFFFFFFF) ^^^ 0xFFFFFFFF

/-- A MAC frame from its addresses, tag, EtherType and data, padded to 64 bytes, with its FCS. -/
def ethFrame (dst src : Nat) (tag : Option Nat) (etype : Nat) (data : List Byte) : List Byte :=
  let b := beBytes 6 dst ++ beBytes 6 src ++
    (match tag with | some t => beBytes 2 0x8100 ++ beBytes 2 t | none => []) ++ beBytes 2 etype ++ data
  let b := b ++ List.replicate (60 - b.length) 0
  b ++ leBytes 4 (fcs b)

/-- R406: the priority of a packet that leaves by a gateway entry. -/
def State.gwPrio (s : State) (e gw : Nat) : Nat :=
  if bitOf gw 53 then fieldOf gw 50 3 else s.rd F.LINK_ETH_CFG_DEF_PRIO [e]

/-- R410: the frame of a SERVE packet. -/
def State.gwFrame (s : State) (e gw : Nat) (data : List Byte) : List Byte :=
  ethFrame (fieldOf gw 0 48) (s.rd F.LINK_ETH_MAC_MAC [e])
    (if bitOf gw 53 then some (fieldOf gw 50 3 * 2 ^ 13 + s.rd F.LINK_ETH_CFG_VID [e]) else none) 0x86DD data

/-! ### Transmission (R352, R356, R357, R403) -/

/-- Whether a packet at the head of a queue may be sent now: its channel has credit, and the DISCOVER that opens its port has left
(R325); its frame is not paused. -/
def State.txReady (s : State) (port : Nat) (q : QPkt) : Bool :=
  if s.fabricPort port then
    (s.portTakes port q.pkt.cls) && s.txLanes port != 0 && !(s.link port).opening &&
    (q.pkt.vc == 0 || decide (q.cells ≤ s.creditLeft port (vcOf q.pkt.cls q.pkt.vc)))
  else
    let e := fieldOf q.gw 48 2
    s.ethUp e && !bitOf (Tbl.look ⟨0, 0⟩ s.fab.eth e).paused (s.gwPrio e q.gw)

/-- R352: an uncorrectable cell of the output buffer is recorded; which cell of the buffer it is, is free. -/
def State.bufFault (s : State) (t cls : Nat) (inj noEsc : Bool) : State :=
  let d := s.draw
  d.2.report ⟨tileDie t, cls, 8, t, d.1.toNat % 16384, 0, inj, noEsc, false⟩

/-- A packet leaves: counted, sampled, and put on its link or out as a frame. A spoiled one has its trailer inverted, a spoiled
frame its FCS, so that it is lost (R352). -/
def State.putOut (s : State) (port t j : Nat) (q : QPkt) (spoil : Bool) : State :=
  let p := if spoil then { q.pkt with trailer := q.pkt.trailer ^^^ 0xFFFFFFFF } else q.pkt
  let s := (s.tmCount t q.pkt.cls 1).tmCount t (8 + q.pkt.cls) q.pkt.wire
  let s := s.sample t port { q with pkt := p } j
  if s.fabricPort port then s.sendPacket port (vcOf p.cls p.vc) q.cells (decide (p.vc = 0)) p
  else
    let e := fieldOf q.gw 48 2
    let f := s.gwFrame e q.gw p.payload
    let f := if spoil then f.take (f.length - 4) ++ leBytes 4 (leAt f (f.length - 4) 4 ^^^ 0xFFFFFFFF) else f
    ((s.ethCount e 2 1).ethCount e 3 f.length).emit (.eth e f)

/-- R415: packets at the heads of a port's queues that find no credit on their channel are counted as waiting for it, each once. -/
def State.noteWaits (s : State) (port : Nat) : State :=
  if !s.fabricPort port then s
  else (s.portHeads port).foldl (fun s h =>
    let q := h.2.2
    if q.waited ∨ q.pkt.vc = 0 ∨ q.cells ≤ s.creditLeft port (vcOf q.pkt.cls q.pkt.vc) then s
    else (s.linkCount port 8 1).updTm (portTile port + h.1) (fun tm =>
      { tm with queues := Tbl.upd [] h.2.1 (fun l => { q with waited := true } :: l.drop 1) tm.queues })) s

/-- R340, R352, R356, R357: a port sends the management packets that wait for it (R391) and the packet that its scheduler selects; `err` is what the read of its cells finds. -/
def State.transmit (s : State) (port : Nat) (err : BufErr) : State :=
  let s := if (s.portHeads port).isEmpty then s else s.wakeFor port
  let s := (s.drainMgmt port (s.link port).mgmt.length).noteWaits port
  match s.selectPkt port (s.txReady port) with
  | none => s
  | some (off, j, q, s) =>
    let t := portTile port + off
    let s := s.popQueue port off j q
    let i := s.injected 8 (tileDie t) t 0 (ceilDiv q.pkt.wire 8)
    let s := i.2.2.2
    let err := if i.1 ≠ 0 ∧ i.2.1 ≠ 0 then BufErr.first else err
    let s := if i.1 ≠ 0 ∧ i.2.1 = 0 then s.bufFault t 1 true i.2.2.1 else s
    let hurt (s : State) : State := s.bufFault t 2 (i.1 != 0) i.2.2.1
    let s := match err with
      | .none => s.putOut port t j q false
      | .later => (hurt s).putOut port t j q true
      | .first =>
        let s := (s.tmCount t 29 1)
        let s := if s.fabricPort port ∧ q.pkt.vc = 0 then
          s.updLink port (fun l => { l with txRes := Tbl.upd 0 (vcOf q.pkt.cls 0) (· - q.cells) l.txRes }) else s
        hurt s
    (s.followTile t).owe .retryAll

/-! ### Port frames (R384 to R390, R395) -/

/-- R385: whether a lane frame's marker passes its check. -/
def markerOk (f : LaneMsg) : Bool :=
  crc8 (f.bytes.take 3) == leAt f.bytes 3 1 && fieldOf (leAt f.bytes 2 1) 6 2 == 0 && fieldOf (leAt f.bytes 2 1) 0 5 == f.lane

/-- FSEQ of a lane frame (R385). -/
def markerSeq (f : LaneMsg) : Nat := leAt f.bytes 0 2

/-- REPLAY of a lane frame (R385). -/
def markerReplay (f : LaneMsg) : Bool := bitOf (leAt f.bytes 2 1) 5

/-- R386: the link stream of a port frame, dealt word by word over the active lanes in ascending order. -/
def dealWords (lanes : List (List Byte)) : List Byte :=
  ((List.range 642).map (fun w => (lanes.map (fun l => (l.drop (4 + 8 * w)).take 8)).flatten)).flatten

/-- R389, R390: the flits at the front of the link stream are taken: a control flit, or a packet once all its bytes are
there; at most `n` of them. -/
def State.takeFlits (s : State) (port : Nat) (bs : List Byte) : Nat → State × List Byte
  | 0 => (s, bs)
  | n + 1 =>
    if bs.length < 32 then (s, bs)
    else if isCtrl (bs.take 32) then
      (s.ctrlArrive port (bs.take 32)).takeFlits port (bs.drop 32) n
    else
      let len := 36 + fieldOf (leAt bs 6 2) 0 14
      let room := roundUp len 32
      if bs.length < room then (s, bs)
      else (s.arrive port (bs.take len) false).takeFlits port (bs.drop room) n

/-- R395: a RETRY names the first bad frame, and the cause. -/
def State.sendRetry (s : State) (port cause : Nat) : State :=
  ((s.sendFlit port (ctrlFlit 3 (leBytes 2 (s.link port).rxNext ++ leBytes 1 cause))).linkCount port 3 1).updLink port
    (fun l => { l with rxRetry := true, rxCause := cause })

/-- R412, R384: corrections of a lane frame are counted per lane and port; a corrected codeword is a CE. -/
def State.countLane (s : State) (port : Nat) (f : LaneMsg) : State :=
  let l := portLane port + f.lane
  let s := (s.linkCount port 0 f.flips).linkCount port 1 f.corrected
  let s := ((s.bump F.LANE_CW_CNT_CORRECTED [l] (f.inner + f.corrected)).1.bump F.LANE_CW_CNT_UNCORRECTABLE [l] f.lost).1
  if f.corrected = 0 ∧ f.flips = 0 then s else s.report ⟨portDie port, 1, 0x0B, 0, l, l, false, false, false⟩

/-- R388: width changes whose named frame has come take effect; lanes that are out of the width then do what they were taken for
(R400, R402, R411). -/
def State.dueWidth (s : State) (port : Nat) : State :=
  let l := s.link port
  let w := takeWidths l.rxNext l.rxMask l.rxWidths
  let s := s.updLink port (fun l => { l with rxWidths := w.2 })
  (if l.rxMask = w.1 then s else (s.setRxMask port w.1).narrow port w.1).settleLanes port

/-- R399: bit errors that the checkers of lanes find, while they run. -/
def State.prbsFrame (s : State) (port : Nat) (frames : List LaneFrame) : State :=
  frames.foldl (fun s f =>
    let l := portLane port + f.lane
    if f.lane < portLanes port ∧ s.prbsMay l ∧ (s.on F.LANE_PRBS_CHK_EN [l] ∨ s.laneState l = 3) then
      (s.bump F.LANE_PRBS_ERR_ERRORS [l] f.prbs).1 else s) s

/-- What the receiver finds of a port frame (R384 to R387): the decoded lanes of the receive width; whether it is sound, in
every lane and marker; whether some codeword is lost; whether a good marker starts a replay. -/
structure FrameView where
  lanes : List LaneMsg
  sound : Bool
  lost : Bool
  replay : Bool
  deriving DecidableEq, Repr

/-- R384, R386, R387: a port frame as the receiver finds it. -/
def State.frameView (s : State) (port : Nat) (frames : List LaneFrame) : FrameView :=
  let want := (List.range (portLanes port)).filter (fun k => bitOf (s.link port).rxMask k)
  let got := want.filterMap (fun k => (frames.find? (fun f => f.lane == k)).map LaneFrame.decode)
  let lost := got.any (fun f => f.lost != 0)
  let same := match got with | f :: _ => got.all (fun g => markerSeq g == markerSeq f) | [] => false
  ⟨got, decide (got.length = want.length) && !lost && got.all markerOk && same, lost,
    got.any (fun f => f.lost == 0 && markerOk f && markerReplay f)⟩

/-- R395: a port frame is found bad: it is counted and its failing lanes are reported. -/
def State.badFrame (s : State) (port : Nat) (v : FrameView) : State :=
  (v.lanes.filter (fun f => f.lost != 0 || !markerOk f)).foldl (fun s f =>
    s.report ⟨portDie port, 1, 0x0B, 0, portLane port + f.lane, portLane port + f.lane, false, false, false⟩) (s.linkCount port 2 1)

/-- R386, R389: a good port frame's flits enter the link. -/
def State.goodFrame (s : State) (port : Nat) (v : FrameView) : State :=
  let s := s.updLink port (fun l => { l with rxNext := (l.rxNext + 1) % 2 ^ 16, rxRetry := false })
  let bs := (s.link port).rxPart ++ dealWords (v.lanes.map (·.bytes))
  let r := s.takeFlits port bs (bs.length / 32)
  r.1.updLink port (fun l => { l with rxPart := r.2 })

/-- R384 to R395: a port frame arrives, one lane frame for each active lane. While a replay is awaited, only the frame that
begins it is taken; a bad frame that begins it asks for it again. A frame out of turn is a bad one. -/
def State.portFrame (s : State) (port : Nat) (frames : List LaneFrame) : State :=
  let s := s.prbsFrame port frames
  let st := s.portState port
  if !s.fabricPort port ∨ !(st = pMGMT ∨ st = pUP) then s
  else
    let s := s.dueWidth port
    let v := s.frameView port frames
    let s := v.lanes.foldl (fun s f => s.countLane port f) s
    let l := s.link port
    let turn := v.lanes.all (fun f => markerSeq f == l.rxNext)
    let cause := if v.lost then 0 else 1
    if l.rxRetry then
      (if v.sound then (if turn && v.lanes.all markerReplay then s.goodFrame port v else s)
       else if v.replay then (s.badFrame port v).sendRetry port cause else s.badFrame port v)
    else if v.sound && turn then s.goodFrame port v
    else (s.badFrame port v).sendRetry port cause

/-- R395: a replay that has not begun is asked for again, with the cause of the first request. -/
def State.retryRepeat (s : State) (port : Nat) : State :=
  if (s.link port).rxRetry ∧ (s.portState port = pMGMT ∨ s.portState port = pUP) then
    s.sendRetry port (s.link port).rxCause else s

/-- R392: CREDIT flits while a count has changed. -/
def State.creditTimer (s : State) (port : Nat) : State :=
  if s.fabricPort port ∧ (s.link port).rxChanged ∧ (s.portState port = pMGMT ∨ s.portState port = pUP) then s.sendCredits port
  else s

end Sys2Proof.Machine
end

