-- ==== Sys2Proof/Machine/Bringup.lean ====
section
/-! DEFINITION. Discovery, the rings and the opening of the switch (R19 to R35, R320 to R328, R515, R565), route commands
(R317 to R319, R329 to R338). -/
namespace Sys2Proof.Machine

/-! ### DISCOVER (R321) -/

/-- GLB_COORD as it reads (R33): SWITCH_ID is formed from the coordinates (R28). -/
def State.coordWord (s : State) : Nat := setFieldOf (s.rawReg .glbCoord []) 20 10 s.switchId

/-- The Z positions that port `p` of position `z` leads to (R19). -/
def zPortTo (z p : Nat) : Nat := (z + nth 0 [1, 8, 2, 7] (p - 16)) % 9

/-- Whether two Z positions are joined by a link (R19). -/
def zLinked (a b : Nat) : Bool := [1, 2, 7, 8].contains ((b + 9 - a) % 9)

/-- What a port's neighbour last reported, while the port is in MGMT or UP. -/
def State.nbrOf (s : State) (p : Nat) : Option Nbr :=
  if s.portState p = pMGMT ∨ s.portState p = pUP then Tbl.find p s.fab.nbr else none

/-- The neighbours on the Z ports with the positions that they report. -/
def State.zNbrs (s : State) : List Nbr := [16, 17, 18, 19].filterMap s.nbrOf

/-- z of a neighbour (R33). -/
def Nbr.z (n : Nbr) : Nat := fieldOf n.coord 0 4

/-- Whether this switch has a Z link of its own to a position. -/
def State.zDirect (s : State) (f : Nat) : Bool := s.zNbrs.any (fun n => n.z == f)

/-- R323, R515: whether a position is present in this switch's view: its own, one that it has a link to, one that a neighbour
reports. -/
def State.zSees (s : State) (f : Nat) : Bool :=
  f == s.rd F.GLB_COORD_Z [] || s.zNbrs.any (fun n => n.z == f || bitOf n.zPresent f)

/-- The Z ports that lead in the direction from which a Z port's far side cannot know what comes: ZN and ZN2 for ZP and ZP2, and
the other way round. -/
def zBehind (p : Nat) : List Nat := if p = 16 ∨ p = 18 then [17, 19] else [16, 18]

/-- R321, R323, R515: whether DISCOVER on a port reports a position as present in this switch's view. On a Z port it reports
what this switch knows from its own links and from the other direction of the ring, and over a link that leads past a position
only a link of its own to it: what comes back from the far side would keep a lost position present for ever, where R515 has a
position absent once all its links are down (DEDUCED, log 59). -/
def State.zTells (s : State) (p f : Nat) : Bool :=
  let me := s.rd F.GLB_COORD_Z []
  if p < 16 ∨ 20 ≤ p then s.zSees f
  else if f = me ∨ s.zDirect f then true
  else if (p = 18 ∧ f = (me + 1) % 9) ∨ (p = 19 ∧ f = (me + 8) % 9) then false
  else ((zBehind p).filterMap s.nbrOf).any (fun n => bitOf n.zPresent f)

/-- A mask of Z positions. -/
def zMask (p : Nat → Bool) : Nat := ((List.range 9).filter p).foldl (fun n z => n + 2 ^ z) 0

/-- The Z positions joined by a link to some position of a mask, and the mask itself. -/
def zSpread (present m : Nat) : Nat := zMask (fun z => bitOf m z || (bitOf present z && (List.range 9).any (fun y => bitOf m y && zLinked y z)))

/-- Links between a Z position and another one over the present positions, at most `n`. -/
def zHops (present a m : Nat) : Nat → Nat
  | 0 => 0
  | n + 1 => if bitOf m a then 0 else 1 + zHops present a (zSpread present m) n

/-- R25: the leader: the lowest z that is known to be active: this switch and its neighbours by their own ROLE; of the others, one
that a neighbour names as leader which lies nearer to it than this switch does, so that no two switches keep a leader alive
between them (DESIGN CHOICE, log 59: the spec does not say how a switch knows of active switches beyond its neighbours). -/
def State.zLeader (s : State) (present : Nat) : Nat :=
  let me := s.rd F.GLB_COORD_Z []
  let mine := if s.rd F.GLB_COORD_ROLE [] = 0 then [me] else []
  let theirs := s.zNbrs.filterMap (fun n => if fieldOf n.coord 12 2 = 0 then some n.z else none)
  let far (z x : Nat) : Nat := zHops present z (2 ^ x) 9
  let nearest (x : Nat) : Nat := (s.zNbrs.map (fun n => far n.z x)).foldl min 9
  let named := (s.zNbrs.filter (fun n => n.leader != me && !s.zDirect n.leader && decide (far n.z n.leader ≤ nearest n.leader))).map
    (fun n => n.leader)
  ((mine ++ theirs ++ named).filter (fun z => decide (z < 9) && bitOf present z)).foldl min 15

/-- R321: the payload of DISCOVER. -/
def State.discoverPayload (s : State) (p : Nat) : List Byte :=
  leBytes 4 s.coordWord ++ leBytes 1 p ++
  leBytes 1 (s.rd F.RT_FABLEVEL_LOCAL [] + 16 * s.rd F.RT_FABLEVEL_HW_MAX []) ++
  leBytes 1 (s.rd F.RT_BRINGUP_PHASE []) ++ [0] ++ leBytes 8 (s.rawReg .secSerial []) ++
  leBytes 2 (zMask (s.zTells p)) ++ leBytes 1 (s.rd F.RT_BRINGUP_LEADER []) ++ List.replicate 45 0

/-- A management packet that stays on one link leaves by its port (R320, R321, R533), behind those that wait for credit
(R391); it wakes idle lane groups (R403), and is counted when it waits for credit (R415). -/
def State.sendOnPort (s : State) (p : Nat) (pkt : Pkt) : State :=
  let q := pkt.seal
  let s := (s.updLink p (fun l => { l with mgmt := l.mgmt ++ [q] })).wakeFor p
  let s := s.drainMgmt p (s.link p).mgmt.length
  if (s.link p).mgmt.isEmpty ∨ q.cells ≤ s.creditLeft p (vcOf 6 0) then s else s.linkCount p 8 1

/-- The neighbour's management block, this switch's own until the neighbour is known (R30). -/
def State.nbrMgmt (s : State) (p : Nat) : Nat :=
  (if (s.nbrOf p).isSome then s.rd F.RT_PORT_NBR_ID [p] else s.switchId) * 64 + 39

/-- R321: a port in MGMT or UP sends DISCOVER; no Ethernet port does (R417). -/
def State.sendDiscover (s : State) (p : Nat) : State :=
  if s.fabricPort p ∧ (s.portState p = pMGMT ∨ s.portState p = pUP) then
    s.sendOnPort p { Pkt.make kDISCOVER 6 (s.nbrMgmt p) (s.switchId * 64 + 39) with payload := s.discoverPayload p, flags := 1 }
  else s

/-- R321: DISCOVER leaves at once on every port. -/
def State.discoverAll (s : State) : State := (List.range 26).foldl (fun s p => s.sendDiscover p) s

/-! ### Rings (R22 to R25, R323, R324, R515) -/

/-- Bring-up reaches a phase at least. -/
def State.phaseUp (s : State) (n : Nat) : State :=
  if s.rd F.RT_BRINGUP_PHASE [] < n then s.wr F.RT_BRINGUP_PHASE [] n else s

/-! ### DISCOVER received (R322, R325, R327) -/

/-- R322: the port code that a port must find at its other end. -/
def partner (p : Nat) : Nat := if p % 2 = 0 then p + 1 else p - 1

/-- R19, R26, R322: whether the neighbour's port and coordinates fit. -/
def State.wiringOk (s : State) (p : Nat) (n : Nbr) : Bool :=
  let c := s.rawReg .glbCoord []
  let z := fieldOf c 0 4
  let known := bitOf c 10 && bitOf n.coord 10
  let x := fieldOf c 4 3
  let y := fieldOf c 7 3
  let nx := fieldOf n.coord 4 3
  let ny := fieldOf n.coord 7 3
  if p < 16 ∨ 24 ≤ p then true
  else n.port == partner p &&
    (if p < 20 then n.z == zPortTo z p && (!known || (nx == x && ny == y))
     else n.z == z && (!known ||
       (if p = 20 then nx == (x + 1) % 8 && ny == y
        else if p = 21 then x == (nx + 1) % 8 && ny == y
        else if p = 22 then ny == (y + 1) % 8 && nx == x
        else y == (ny + 1) % 8 && nx == x)))

/-- A port is HELD for a cause (R320, R322, R327). -/
def State.holdPort (s : State) (p cause : Nat) : State :=
  let s := { s with fab := { s.fab with nbr := Tbl.del p s.fab.nbr } }
  ((s.setPort p pHELD cause).setLanes p 0).flushPort p

/-- The control node is told of something that RT_BRINGUP shows (R20, R24, R323, R324): an event for that register. The spec
says that it is told and not by what (DESIGN CHOICE, log 59). -/
def State.tellBringup (s : State) : State := s.event .rtBringup []

/-- A bit of RT_BRINGUP that shows an open ring: the control node is told when it is set. -/
def State.setOpen (s : State) (f : Fld) (isOpen : Bool) : State :=
  let was := s.on f []
  let s := s.wr f [] (b2n isOpen)
  if isOpen ∧ !was then s.tellBringup else s

/-- R314, R323, R515: the Z ring is formed once every position is present or known to be absent, and follows the view from
then on; WAIT_XY is reached when its leader is chosen, and the leader reports it. A switch with a clash joins no ring: its
view stays as it was, and Z_CLASH is not cleared before a reset (R20; DESIGN CHOICE, log 59). -/
def State.zEval (s : State) : State :=
  if 9 ≤ s.rd F.GLB_COORD_Z [] ∨ s.on F.RT_BRINGUP_Z_CLASH [] then s
  else
    let seen := zMask s.zSees
    let s := { s with fab := { s.fab with zAbsent := maskMinus s.fab.zAbsent seen } }
    let formed := s.fab.zFormed || (seen ||| s.fab.zAbsent) == 0x1FF
    let was := s.rawReg .rtBringup []
    let s := (s.wr F.RT_BRINGUP_Z_PRESENT [] seen)
    let s : State :=
      if formed then
        let s := { s with fab := { s.fab with zFormed := true } }
        let led := s.zLeader seen
        let s := (s.setOpen F.RT_BRINGUP_Z_OPEN (zOpen seen)).wr F.RT_BRINGUP_LEADER [] led
        if led = 15 then s.phaseUp 3
        else if s.rd F.RT_BRINGUP_PHASE [] < 4 then
          (let s := s.phaseUp 4
           if led = s.rd F.GLB_COORD_Z [] then s.tellBringup else s)
        else s
      else s.phaseUp 3
    if s.rawReg .rtBringup [] = was then s else (s.owe .reoffer).owe .ringView

/-- R323: how long a position may be silent, in nanoseconds. -/
def silenceNs : Nat := 1500000000

/-- R324: whether a port of the X or Y axis has the neighbour that it must have; none while that is not known. `formed` tells
that the ring has formed: from then on a port that is not in MGMT or UP has none (R515). Before, a port in training is
waited for, and one out of training until 1.5 s have passed. -/
def State.xyNbr (s : State) (p : Nat) (formed : Bool) : Option Bool :=
  if (s.nbrOf p).isSome then some true
  else if formed ∧ !(s.portState p = pMGMT ∨ s.portState p = pUP) then some false
  else if s.portState p = pTRAINING then none
  else if (s.link p).since + silenceNs ≤ s.now then some false
  else none

/-- R324: a ring of an axis: still unknown, closed, or open. -/
def State.xyRing (s : State) (plus minus : Nat) (formed : Bool) : Option Bool :=
  match s.xyNbr plus formed, s.xyNbr minus formed with
  | some a, some b => some (a && b)
  | _, _ => none

/-- R26, R322, R324: neighbours of the axes that do not fit, once X and Y are known, are HELD with cause WIRING. -/
def State.xyWiring (s : State) : State :=
  [16, 17, 18, 19, 20, 21, 22, 23].foldl (fun s p =>
    match s.nbrOf p with
    | some n => if !s.bench ∧ !s.wiringOk p n then s.holdPort p 1 else s
    | none => s) s

/-- R324: the X ring, then the Y ring, form once X and Y are assigned and the Z ring has its leader. -/
def State.xyEval (s : State) : State :=
  if !s.on F.GLB_COORD_XY_VALID [] ∨ s.rd F.RT_BRINGUP_PHASE [] < 4 then s
  else
    let s := s.xyWiring.phaseUp 5
    match s.xyRing 20 21 (decide (6 ≤ s.rd F.RT_BRINGUP_PHASE [])) with
    | none => s
    | some okX =>
      let s := (s.setOpen F.RT_BRINGUP_X_OPEN (!okX)).phaseUp 6
      match s.xyRing 22 23 (decide (7 ≤ s.rd F.RT_BRINGUP_PHASE [])) with
      | none => s
      | some okY => (s.setOpen F.RT_BRINGUP_Y_OPEN (!okY)).phaseUp 7

/-- Z_PRESENT as DISCOVER reports it on the Z ports. -/
def State.zContent (s : State) : List Nat := [16, 17, 18, 19].map (fun p => zMask (s.zTells p))

/-- R321, R323, R324, R515: the rings are looked at again; DISCOVER leaves at once when its content has changed, or when it
must (`force`). -/
def State.ringsEval (s : State) (force : Bool) : State :=
  let was := (s.rawReg .rtBringup [], s.zContent)
  let s := s.zEval.xyEval
  if force ∨ (s.rawReg .rtBringup [], s.zContent) ≠ was then s.discoverAll else s

/-- R323: a position silent for 1.5 s is absent. -/
def State.zAbsence (s : State) (z : Nat) : State :=
  if s.zSees z ∨ z = s.rd F.GLB_COORD_Z [] then s
  else ({ s with fab := { s.fab with zAbsent := s.fab.zAbsent ||| 2 ^ z } }).ringsEval false

/-- R321: every 10 ms a port in MGMT or UP sends DISCOVER; what has stayed silent on the axes meanwhile is found (R324). -/
def State.discoverTick (s : State) : State := s.zEval.xyEval.discoverAll

/-- R325: a port in MGMT of an open switch whose neighbour is open moves to UP; no data leaves while the DISCOVER that reports OPEN
still waits. -/
def State.portOpen (s : State) (p : Nat) : State :=
  match s.nbrOf p with
  | some n =>
    if s.portState p = pMGMT ∧ s.rd F.RT_BRINGUP_PHASE [] = 8 ∧ n.phase = 8 then
      let s := s.sendDiscover p
      (s.updLink p (fun l => { l with opening := !l.mgmt.isEmpty })).setPort p pUP 0
    else s
  | none => s

/-- What a DISCOVER packet says (R321). -/
def Nbr.ofPayload (b : List Byte) : Nbr :=
  ⟨leAt b 0 4, leAt b 4 1, leAt b 5 1, leAt b 6 1, leAt b 8 8, leAt b 0x10 2, fieldOf (leAt b 0x12 1) 0 4⟩

/-- R322, R325, R327: a DISCOVER payload arrives on a port. -/
def State.discover (s : State) (p : Nat) (b : List Byte) : State :=
  if !s.fabricPort p ∨ !(s.portState p = pMGMT ∨ s.portState p = pUP) then s
  else
    let n := Nbr.ofPayload b
    let first := (s.nbrOf p).isNone
    let clash := !s.bench && decide (16 ≤ p) && decide (p < 20) && n.z == s.rd F.GLB_COORD_Z []
    let mine := s.rd F.RT_FABLEVEL_LOCAL []
    let lvl := n.level % 16
    if clash then ((s.stick F.RT_BRINGUP_Z_CLASH []).tellBringup).holdPort p 3
    else if !s.bench ∧ !s.wiringOk p n then s.holdPort p 1
    else if mine + 1 < lvl ∨ lvl + 1 < mine then s.holdPort p 2
    else
      let was := s.zContent
      let s := { s with fab := { s.fab with nbr := Tbl.put p n s.fab.nbr } }
      let s := ((s.wr F.RT_PORT_LEVEL [p] (min mine lvl)).wr F.RT_PORT_NBR_ID [p] (fieldOf n.coord 20 10)).wr
        F.RT_PORT_NBR_PORT [p] n.port
      let s := if first then s.sendDiscover p else s
      ((s.ringsEval (s.zContent != was)).portOpen p).owe .ringView

/-! ### Route table and commands (R312, R317 to R319, R325, R329 to R338) -/

/-- Any data port is UP (R317). -/
def State.anyUp (s : State) : Bool := (List.range 26).any s.portUp

/-- RT_STATUS.LAST_RESULT set. -/
def State.rtResult (s : State) (n : Nat) : State := s.wr F.RT_STATUS_LAST_RESULT [] n

/-- R317, R338: a write of a route entry; ESC, ESC_DL and LOCAL stay on a live fabric. Bits [31:24] are zero in the layout of
R312: they take no write, as reserved bits do (R9). -/
def State.writeEntry (s : State) (dst v : Nat) : State :=
  let old := s.rd F.RT_ENTRY_ENTRY [dst]
  let v := v % 2 ^ 24
  let fixed (n : Nat) : Nat × Nat := (fieldOf n 1 1, fieldOf n 10 4)
  if s.anyUp ∧ fixed old ≠ fixed v then s.refuse (regAddr .rtEntry [dst])
  else (s.wr F.RT_ENTRY_ENTRY [dst] v).owe .reoffer

/-- R319: a drain group is held. -/
def State.rtHold (s : State) (g : Nat) : State :=
  let h := s.rd F.RT_STATUS_HELD []
  if bitOf h g then s.rtResult 2 else (s.wr F.RT_STATUS_HELD [] (h ||| 2 ^ g)).rtResult 0

/-- R318: a drain group is released; what waited at the edge is offered. -/
def State.rtRelease (s : State) (g : Nat) : State :=
  let h := s.rd F.RT_STATUS_HELD []
  ((s.wr F.RT_STATUS_HELD [] (maskMinus h (2 ^ g))).rtResult 0).owe .retryAll

/-- R329, R331: a table load starts. -/
def State.rtLoad (s : State) : State :=
  let a := s.rd F.RT_TABLE_SRC_ADDR []
  if s.anyUp then s.rtResult 2
  else if a % 64 ≠ 0 then s.rtResult 4
  else ({ s with fab := { s.fab with tableLoad := some a } }).wr F.RT_STATUS_BUSY [] 1

/-- The registers of the route table replaced by a loaded image, in destination order. -/
def spliceTable (regs : Tbl Word) (bytes : List Byte) : Tbl Word :=
  let lo := RegName.base .rtEntry
  let hi := lo + 8 * 65536
  regs.filter (fun (e : Nat × Word) => decide (e.1 < lo)) ++
  (List.range 65536).map (fun i => (lo + 8 * i, BitVec.ofNat 64 (leAt bytes (4 * i) 4))) ++
  regs.filter (fun (e : Nat × Word) => decide (hi ≤ e.1))

/-- R331: reading the table image ends. -/
def State.rtLoadDone (s : State) (ecc : Ecc) : State :=
  match s.fab.tableLoad with
  | none => s
  | some a =>
    let s := ({ s with fab := { s.fab with tableLoad := none } }).wr F.RT_STATUS_BUSY [] 0
    let w := s.rangeWin a 262144
    if w ≠ some .hbm ∧ w ≠ some .ddr then s.rtResult 3
    else
      let r := s.readMem a 262144 ecc
      let s := r.2.2
      if !r.2.1.isEmpty then s.rtResult 3
      else if (List.range 65536).any (fun i => leAt r.1 (4 * i + 3) 1 != 0) then s.rtResult 4
      else ((({ s with regs := spliceTable s.regs r.1 }).stick F.RT_STATUS_LOADED []).rtResult 0).owe .reoffer

/-- R325, R565: OPEN. -/
def State.rtOpen (s : State) : State :=
  if !s.on F.RT_STATUS_LOADED [] ∨ (!s.bench ∧ (!s.on F.GLB_COORD_XY_VALID [] ∨ !s.on F.GC_STATUS_SYNCED [])) then s.rtResult 5
  else
    let s := ((s.wr F.RT_BRINGUP_PHASE [] 8).rtResult 0).discoverAll
    (List.range 26).foldl (fun s p => s.portOpen p) s

/-- R329, R607: a write of RT_CMD. -/
def State.rtCmdWrite (s : State) (v : Nat) : State :=
  let go := bitOf v 7
  if go ∧ s.on F.RT_STATUS_BUSY [] then s.stick F.RT_STATUS_CMD_LOST []
  else
    let s := s.swWrite .rtCmd [] v
    if !go then s
    else match fieldOf v 4 3 with
      | 0 => s
      | 1 => s.rtHold (v % 16)
      | 2 => s.rtRelease (v % 16)
      | 3 => s.rtLoad
      | 4 => s.rtOpen
      | _ => s.rtResult 1

/-- R319, R335: packets to a drain group in this switch: in queues, on hold, in retry buffers, held ahead of order. -/
def State.inFlight (s : State) (g : Nat) : Nat :=
  let mine (p : Pkt) : Bool :=
    let r := Route.ofNat (s.rd F.RT_ENTRY_ENTRY [p.dst])
    r.holdOk && r.group == g
  let inTm (tm : TmTile) : Nat :=
    let qs := ((tm.queues ++ tm.filling).map (fun (e : Nat × List QPkt) => e.2)).flatten ++ tm.hold
    (qs.filter (fun q => mine q.pkt)).length + ((tm.ctxs.map (fun c => c.held.filter (fun h => mine h.pkt))).flatten).length
  (s.fab.tm.map (fun (e : Nat × TmTile) => inTm e.2)).foldl (· + ·) 0 +
  (s.fab.link.map (fun (e : Nat × LinkPort) => (e.2.sent.filter (fun u => match u.2 with
    | .pkt p => mine p
    | .flit _ => false)).length)).foldl (· + ·) 0 +
  (s.fab.rxWait.map (fun (e : Nat × List WaitPkt) =>
    (e.2.filter (fun w => mine w.pkt && !(s.groupHolds w.pkt (Route.ofNat (s.rd F.RT_ENTRY_ENTRY [w.pkt.dst]))
      (Offer.atEdge e.1 w.how w.refused).edge))).length)).foldl (· + ·) 0

/-- R333: a write of RT_FABLEVEL: LOCAL while every data port is OFF or TRAINING; FEATURES follow FABRIC_MIN (R328). A write
that would leave FABRIC_MIN above LOCAL leaves FABRIC_MIN as it is, and LOCAL too where lowering it would break that (R328;
DESIGN CHOICE, log 59: the spec speaks of FABRIC_MIN alone). -/
def State.fabLevelWrite (s : State) (v : Nat) : State :=
  let quiet := (List.range 26).all (fun p => decide (s.portState p ≤ 1))
  let old := s.rd F.RT_FABLEVEL_LOCAL []
  let oldMin := s.rd F.RT_FABLEVEL_FABRIC_MIN []
  let asked := fieldOf v 8 4
  let loc := if quiet ∧ 1 ≤ asked ∧ asked ≤ 3 then asked else old
  let m := if fieldOf v 12 4 ≤ loc then fieldOf v 12 4 else oldMin
  let loc := if m ≤ loc then loc else old
  (((s.wr F.RT_FABLEVEL_LOCAL [] loc).wr F.RT_FABLEVEL_FABRIC_MIN [] m).wr F.RT_FABLEVEL_FEATURES []
    (b2n (decide (2 ≤ m)) + 2 * b2n (decide (3 ≤ m)))).discoverAll

end Sys2Proof.Machine
end

