-- ==== Sys2Proof/Machine/Coll.lean ====
section
/-! DEFINITION. Communicators (R190 to R211): descriptors, commands, agreement, quotas, credits, and the messages that
leave for members and group switches. -/
namespace Sys2Proof.Machine

/-! ### Statuses (R97, R229, R277) -/

/-- MISMATCH. -/
def cMISMATCH : Nat := 0x22
/-- BAD_SHAPE. -/
def cBADSHAPE : Nat := 0x23
/-- BAD_DESCRIPTOR. -/
def cBADDESC : Nat := 0x24
/-- CHUNK_ERROR. -/
def cCHUNKERR : Nat := 0x25
/-- MEMBER_LOST. -/
def cMEMBERLOST : Nat := 0x26
/-- DROPPED. -/
def cDROPPED : Nat := 0x27
/-- PAUSED. -/
def cPAUSED : Nat := 0x28
/-- TOKEN_ERROR. -/
def cTOKENERR : Nat := 0x31

/-- R229: statuses that move a communicator to FAULTED. -/
def commLevel (status : Nat) : Bool := [0x22, 0x26, 0x05, 0x04].contains status

/-! ### Communicators in the state -/

/-- A communicator that is not EMPTY. -/
def State.comm (s : State) (id : Nat) : Option Comm := Tbl.find id s.cs.comms

/-- A communicator replaced. -/
def State.setComm (s : State) (c : Comm) : State :=
  { s with cs := { s.cs with comms := Tbl.put c.desc.id c s.cs.comms } }

/-- A communicator changed, if it is not EMPTY. -/
def State.onComm (s : State) (id : Nat) (f : State → Comm → State) : State :=
  match s.comm id with
  | none => s
  | some c => f s c

/-- A collective of a communicator by its sequence number. -/
def Comm.coll (c : Comm) (seq : Nat) : Option Coll := c.ops.find? (fun x => x.seq == seq)

/-- A collective replaced. -/
def Comm.setColl (c : Comm) (x : Coll) : Comm :=
  { c with ops := c.ops.map (fun y => if y.seq == x.seq then x else y) }

/-- A level entry: 1 Z, 2 X, 3 Y. -/
def Comm.lv (c : Comm) (l : Nat) : Level := nth ⟨1, 0, []⟩ c.desc.levels (l - 1)

/-- R212: the ring levels used. -/
def Comm.rings (c : Comm) : List Nat := [1, 2, 3].filter (fun l => decide (1 < (c.lv l).size))

/-- The member entries with their numbers. -/
def Comm.members (c : Comm) : List (Nat × Member) := (List.range c.desc.members.length).zip c.desc.members

/-- The member entry numbers in rank order (R216, R243). -/
def Comm.byRank (c : Comm) : List Nat :=
  ((c.members.map (fun m => (m.2.rank, m.1))).foldl (fun t (m : Nat × Nat) => Tbl.put m.1 m.2 t) ([] : Tbl Nat)).map (·.2)

/-- A member entry. -/
def Comm.mem (c : Comm) (i : Nat) : Member := nth ⟨0, 0, 0⟩ c.desc.members i

/-- The local member's entry number, if there is one (R202). -/
def Comm.localMem (c : Comm) : Option Nat := (c.members.find? (fun m => m.2.ep == 0xFF)).map (·.1)

/-! ### Descriptors (R196 to R204) -/

/-- Whether a run of bytes is zero. -/
def zeroBytes (bs : List Byte) (off n : Nat) : Bool := ((bs.drop off).take n).all (fun b => b == 0)

/-- A level entry's fields. -/
def parseLevel (bs : List Byte) (off : Nat) : Level :=
  ⟨leAt bs off 1, leAt bs (off + 1) 1, (List.range (min 9 (leAt bs off 1))).map (fun i => leAt bs (off + 8 + 2 * i) 2)⟩

/-- A member entry's fields. -/
def parseMember (bs : List Byte) (i : Nat) : Member :=
  ⟨leAt bs (0x40 + 16 * i) 2, leAt bs (0x42 + 16 * i) 1, leAt bs (0x48 + 16 * i) 8⟩

/-- R196: a descriptor's fields. -/
def parseDesc (bs : List Byte) : Desc :=
  { id := leAt bs 0 4, level := leAt bs 4 1, wire := leAt bs 5 1, express := bitOf (leAt bs 6 1) 0,
    chunk := leAt bs 8 4, window := leAt bs 0xC 2, nranks := leAt bs 0x10 4, slot := leAt bs 0x14 4,
    seed := leAt bs 0x18 8, record := leAt bs 0x20 8, quota := leAt bs 0x28 4, plate := leAt bs 0x2C 4,
    members := (List.range (min 16 (leAt bs 7 1))).map (parseMember bs),
    levels := [parseLevel bs 0x140, parseLevel bs 0x180, parseLevel bs 0x1C0] }

/-- R196, R197: a level entry is in range, its unused bytes zero, and this switch stands at its position. -/
def State.levelOk (s : State) (bs : List Byte) (off most : Nat) : Bool :=
  let l := parseLevel bs off
  decide (1 ≤ l.size) && decide (l.size ≤ most) && decide (l.pos < l.size) && zeroBytes bs (off + 2) 6 &&
  zeroBytes bs (off + 8 + 2 * l.size) (0x40 - 8 - 2 * l.size) && l.ids.all (fun i => decide (i < 1024)) &&
  nth 1024 l.ids l.pos == s.switchId

/-- No value occurs twice. -/
def distinct (l : List Nat) : Bool := decide l.Nodup

/-- R203: bytes of a chunk's footprint. -/
def footprint (d : Desc) : Nat := d.chunk * 9 / 8

/-- R203: bytes of staging that the windows of a communicator's inbound streams take. -/
def windowBytes (d : Desc) : Nat :=
  d.window * footprint d * (d.members.length + 4 * (d.levels.filter (fun l => decide (1 < l.size))).length)

/-- R203: the smallest QUOTA_KIB: the formula's value, which need not be whole. -/
def quotaMin (d : Desc) : Nat := ceilDiv (windowBytes d) 1024

/-- Whether a range lies in the HBM or DDR5 window (R198). -/
def State.inDram (s : State) (a n : Nat) : Bool := s.rangeWin a n == some .hbm || s.rangeWin a n == some .ddr

/-- R197, R198: positions go by the lowest rank held on each switch. Where one ring level alone is used, the ranks below this
switch's lowest one all stand on the switches before it, 16 at most on each; a switch may hold none, and ranks of other switches
are not in the descriptor, so this is what it shows of the order (DEDUCED, log 62). -/
def rankOrderOk (d : Desc) : Bool :=
  match d.members.map (·.rank), d.levels.filter (fun l => decide (1 < l.size)) with
  | r :: rs, [l] => decide (rs.foldl min r ≤ 16 * l.pos)
  | _, _ => true

/-- R196 to R198, R203: the checks that end CREATE with BAD_DESCRIPTOR. -/
def State.descOk (s : State) (id : Nat) (bs : List Byte) : Bool :=
  let d := parseDesc bs
  let ms := d.members
  leAt bs 0 4 == id && decide (id < 0xFFFFF) && (d.wire == 4 || d.wire == 5) && decide (leAt bs 6 1 < 2) &&
  decide (leAt bs 7 1 ≤ 16) && (List.range 9).any (fun k => d.chunk == 4096 * 2 ^ k) &&
  decide (2 ≤ d.window) && decide (d.window ≤ 64) && zeroBytes bs 0xE 2 &&
  decide (1 ≤ d.nranks) && decide (d.nranks ≤ 16384) && decide (1 ≤ d.slot) && decide (d.slot ≤ 2 ^ 28) &&
  d.record % 512 == 0 && s.inDram d.record 4096 && d.plate % 64 == 0 && decide (d.plate ≤ d.quota) &&
  decide (quotaMin d ≤ d.quota) && zeroBytes bs 0x30 16 &&
  (List.range ms.length).all (fun i => zeroBytes bs (0x43 + 16 * i) 5) &&
  ms.all (fun m => decide (m.rank < d.nranks) && (decide (m.ep ≤ 15) || (m.ep == 0xFF && m.base == 0))) &&
  distinct (ms.map (·.rank)) && distinct (ms.map (·.ep)) &&
  s.levelOk bs 0x140 9 && s.levelOk bs 0x180 8 && s.levelOk bs 0x1C0 8 && rankOrderOk d

/-- R204: HBM KiB of staging quotas held. -/
def State.hbmQuota (s : State) : Nat := (s.cs.comms.map (fun (e : Nat × Comm) => e.2.desc.quota - e.2.desc.plate)).foldl (· + ·) 0

/-- R204: KiB of the plate parts of staging quotas held, over all plates. -/
def State.plateKib (s : State) : Nat := (s.plateQuota.map (fun q => 64 * q.2.2)).foldl (· + ·) 0

/-- R204: free pieces of the staging region of one plate that hold `need` KiB, the highest first, when `held` lists the parts
in use from the top down and `above` KiB have been passed. -/
def freeParts : Nat → Nat → List (Nat × Nat × Nat) → List (Nat × Nat)
  | above, need, [] => if need = 0 then [] else [(above, need)]
  | above, need, q :: qs =>
    let room := min need (q.2.1 - above)
    (if room = 0 then [] else [(above, room)]) ++ freeParts (max above (q.2.1 + q.2.2)) (need - room) qs

/-- A part among those in use, from the top down. -/
def addPart (p : Nat × Nat × Nat) : List (Nat × Nat × Nat) → List (Nat × Nat × Nat)
  | [] => [p]
  | q :: qs => if p.2.1 < q.2.1 then p :: q :: qs else q :: addPart p qs

/-- R204: a communicator's plate part is reserved, PLATE_KIB / 64 in each plate (log 20). -/
def State.reservePlates (s : State) (id kib : Nat) : State :=
  { s with plateQuota := (freeParts 0 kib s.plateQuota).foldl (fun l p => addPart (id, p.1, p.2) l) s.plateQuota }

/-- R192: a communicator's plate part is free again. -/
def State.releasePlates (s : State) (id : Nat) : State :=
  { s with plateQuota := s.plateQuota.filter (fun q => q.1 != id) }

/-- R237: counts of communicators after a change. -/
def State.commCounts (s : State) : State :=
  (s.wr F.GLB_COMM_STATUS_ACTIVE_COUNT [] s.cs.comms.length).wr F.GLB_COMM_STATUS_EXPRESS_COUNT []
    (s.cs.comms.filter (fun (e : Nat × Comm) => e.2.desc.express)).length

/-- R237: a command of GLB_COMM_CMD ends. -/
def State.commEnd (s : State) (id result : Nat) : State :=
  let s := s.commCounts
  let c := s.comm id
  (((s.wr F.GLB_COMM_STATUS_LAST_RESULT [] result).wr F.GLB_COMM_STATUS_BUSY [] 0).wr F.GLB_COMM_STATUS_STATE []
    (match c with | some c => c.st | none => 0)).wr F.GLB_COMM_STATUS_NEXT_SEQ []
    (match c with | some c => c.next | none => 0)

/-- A communicator right after CREATE. -/
def Comm.made (d : Desc) : Comm :=
  ⟨d, 1, false, 0, false, [], [], [], [], [], [], [], [], 0, none, [], [], [], []⟩

/-- R192, R198, R204, R237: the descriptor has been read; its words may have been uncorrectable. -/
def State.commCreateDone (s : State) (ecc : Ecc) : State :=
  match s.cs.creating with
  | none => s
  | some id =>
    let s := { s with cs := { s.cs with creating := none } }
    let src := s.rd F.GLB_COMM_SRC_ARG []
    if src % 64 ≠ 0 ∨ !s.inDram src 512 then s.commEnd id 1
    else
      let r := s.readMem src 512 ecc
      let s := r.2.2
      let d := parseDesc r.1
      if !r.2.1.isEmpty then s.commEnd id 0xA
      else if !s.descOk id r.1 then s.commEnd id 1
      else if !bitOf (s.rd F.GLB_NUMLEVEL_SUPPORTED []) d.level then s.commEnd id 6
      else if 4096 ≤ s.cs.comms.length ∨
          (d.express ∧ 8 ≤ (s.cs.comms.filter (fun (e : Nat × Comm) => e.2.desc.express)).length) then s.commEnd id 5
      else if s.rd F.GLB_STAGE_POOL_PLATE_KIB [] * 64 < s.plateKib + d.plate ∨
          s.rd F.GLB_STAGE_POOL_HBM_MIB [] * 1024 < s.hbmQuota + (d.quota - d.plate) then s.commEnd id 4
      else ((s.reservePlates id (d.plate / 64)).setComm (Comm.made d)).commEnd id 0

/-! ### Agreement (R194, R195) -/

/-- R194: the digest of a level: every agreed field, DETERM, the level and its IDS, and the state of the sender as R191 numbers
it in GLB_COMM_STATUS (log 24). -/
def Comm.digest (c : Comm) (l : Nat) : List Byte :=
  let d := c.desc
  leBytes 4 d.id ++ leBytes 1 d.level ++ leBytes 1 d.wire ++ leBytes 1 (b2n d.express) ++ leBytes 1 (b2n c.determ) ++
  leBytes 4 d.chunk ++ leBytes 2 d.window ++ leBytes 4 d.nranks ++ leBytes 4 d.slot ++ leBytes 8 d.seed ++
  (d.levels.map (fun v => leBytes 1 v.size)).flatten ++ leBytes 1 l ++ ((c.lv l).ids.map (leBytes 2)).flatten ++
  leBytes 1 c.st

/-- The part of a digest that must be equal: all but the sender's state. -/
def digestBody (bs : List Byte) : List Byte := bs.take (bs.length - 1)

/-- R194: the sender of a digest is RESERVED or ACTIVE. -/
def digestStands (bs : List Byte) : Bool :=
  let st := leAt bs (bs.length - 1) 1
  st == 1 || st == 2

/-- The level that a digest speaks of. -/
def digestLevel (bs : List Byte) : Nat := leAt bs 33 1

/-- The other switches of the level groups, by 16 × level + position, with their switch IDs. -/
def Comm.peers (c : Comm) : List (Nat × Nat) :=
  (c.rings.map (fun l => (((List.range (c.lv l).size).zip (c.lv l).ids).filter (fun p => p.1 != (c.lv l).pos)).map
    (fun p => (16 * l + p.1, p.2)))).flatten

/-- A digest sent to one switch of a level. -/
def State.sendDigest (s : State) (c : Comm) (key sw : Nat) : State :=
  let p := { Pkt.make kDIGEST 6 (sw * 64 + 39) (s.switchId * 64 + 39) with
    comm := c.desc.id, payload := c.digest (key / 16), flags := 1 }
  s.owe (.inject 0 p.seal none)

/-- R194: ARM's digest to every other switch of the level groups. -/
def State.sendDigests (s : State) (c : Comm) : State := c.peers.foldl (fun s p => s.sendDigest c p.1 p.2) s

/-- R192, R200, R206: credits as ARM and RESET grant them. -/
def Comm.grant (c : Comm) : Comm :=
  { c with
    cred := (c.rings.map (fun l => (List.range 4).map (fun k => (8 * l + k, c.desc.window)))).flatten,
    memCred := (c.members.filter (fun m => m.2.ep != 0xFF)).map (fun m => (m.1, c.desc.window)) }

/-- R194: ARM goes on with the digests received so far. -/
def State.armCheck (s : State) (c : Comm) : State :=
  if !c.arming then s.setComm c
  else
    let seen := c.peers.map (fun p => (p.1, Tbl.find p.1 c.digests))
    if seen.any (fun p => match p.2 with | some b => digestBody b != digestBody (c.digest (p.1 / 16)) | none => false) then
      (s.setComm { c with arming := false, digests := [] }).commEnd c.desc.id 7
    else if seen.all (fun p => p.2.any digestStands) then
      (s.setComm { c.grant with arming := false, st := 2, next := 0 }).commEnd c.desc.id 0
    else s.setComm c

/-- R194: a digest of another switch. It is kept for ARM; a communicator past ARM answers one that is RESERVED. -/
def State.digestIn (s : State) (p : Pkt) : State :=
  s.onComm p.comm (fun s c =>
    match c.peers.find? (fun q => q.2 == p.src / 64 && q.1 / 16 == digestLevel p.payload) with
    | none => s
    | some q =>
      if c.st = 1 then s.armCheck { c with digests := Tbl.put q.1 p.payload c.digests }
      else if leAt p.payload (p.payload.length - 1) 1 = 1 then s.sendDigest c q.1 q.2
      else s)

/-- R192, R194, R195: ARM. -/
def State.commArm (s : State) (c : Comm) : State :=
  let c := { c with determ := s.on F.GLB_MODE_DETERM [], arming := true }
  let s := (s.wr F.GLB_COMM_STATUS_BUSY [] 1).sendDigests c
  s.armCheck c

/-- R194: ARM hears nothing for LIMIT. -/
def State.armTimeout (s : State) (id : Nat) : State :=
  s.onComm id (fun s c =>
    if c.arming ∧ s.rd F.GLB_COMM_TIMEOUT_LIMIT [] ≠ 0 then
      (s.setComm { c with arming := false, digests := [] }).commEnd id 8
    else s)

/-- R298: while ARM is in progress, the digest is sent again to the switches that have not answered. -/
def State.digestRepeat (s : State) (id : Nat) : State :=
  s.onComm id (fun s c =>
    if c.arming then
      c.peers.foldl (fun s p => if (Tbl.find p.1 c.digests).any digestStands then s else s.sendDigest c p.1 p.2) s
    else s)

/-! ### Commands (R192, R235 to R237) -/

/-- R192, R607: GO of GLB_COMM_CMD with the operation and communicator that the register holds. -/
def State.commGo (s : State) : State :=
  let op := s.rd F.GLB_COMM_CMD_OP []
  let id := s.rd F.GLB_COMM_CMD_COMM_ID []
  match op, s.comm id with
  | 0, _ => s
  | 1, some _ => s.commEnd id 2
  | 1, none => ({ s with cs := { s.cs with creating := some id } }).wr F.GLB_COMM_STATUS_BUSY [] 1
  | 2, none => s.commEnd id 3
  | 2, some c => if c.st = 1 then s.commArm c else s.commEnd id 0xC
  | 3, none => s.commEnd id 3
  | 3, some c =>
    if !c.ops.isEmpty then s.commEnd id 9
    else
      let s := s.releasePlates id
      ({ s with cs := { s.cs with comms := Tbl.del id s.cs.comms } }).commEnd id 0
  | 4, none => s.commEnd id 3
  | 4, some c =>
    if c.st ≠ 3 then s.commEnd id 0xC
    else if !c.ops.isEmpty then s.commEnd id 9
    else
      (s.setComm { c.grant with
        st := 2, next := s.rd F.GLB_COMM_SRC_ARG [] % 2 ^ 32, asm := [], early := [], outs := [], areas := [],
        saved := [], barred := [], past := [], failed := [], pause := none }).commEnd id 0
  | 5, _ => s.commEnd id 0
  | _, _ => s.commEnd id 0xB

/-! ### Messages out (R199 to R206, R290) -/

/-- R290: the plates endpoint of the home tile's die on another switch. -/
def ringAddr (sw home : Nat) : Nat := sw * 64 + 32 + 8 * tileDie home + 1

/-- A packet of a communicator from its home die to a group switch. -/
def State.toSwitch (s : State) (c : Comm) (kind cls home sw chunk seq arg : Nat) : Pkt :=
  { Pkt.make kind cls (ringAddr sw home) (s.ownAddr (tileDie home) 1) with
    comm := c.desc.id, chunk := chunk, opseq := seq, arg := arg, tile := home % 16 }

/-- A packet of a communicator from its home die to an accelerator, by fabric address. -/
def State.toAddr (s : State) (c : Comm) (kind cls home dst chunk seq arg : Nat) : Pkt :=
  { Pkt.make kind cls dst (s.ownAddr (tileDie home) 1) with comm := c.desc.id, chunk := chunk, opseq := seq, arg := arg }

/-- The fabric address of a member's accelerator on this switch. -/
def State.memAddr (s : State) (c : Comm) (i : Nat) : Nat := s.switchId * 64 + (c.mem i).ep

/-- The key of a ring credit count. -/
def credKey (level dir path : Nat) : Nat := 8 * level + 2 * dir + path

/-- R206, R542: one waiting message is sent if it may be; else it keeps waiting. -/
def State.flushOne (s : State) (c : Comm) (o : Outgo) : Option (State × Comm) :=
  if (match c.pause with | some p => p.held | none => false) then none
  else
    let key := credKey o.level o.dir o.path
    let n := Tbl.look 0 c.cred key
    if o.level ≠ 0 ∧ n = 0 then none
    else
      let c := if o.level = 0 then c else { c with cred := Tbl.put key (n - 1) c.cred }
      let c := if o.base.kind = kCREDIT ∧ o.own.c < 16 then
          { c with memCred := Tbl.put o.own.c (Tbl.look 0 c.memCred o.own.c + o.base.arg % 2 ^ 16) c.memCred }
        else c
      let ps := (messagePkts o.base false o.data).map (fun p => (p, o.own))
      some (s.sendPkts ((o.base.src % 64 - 32) / 8) ps, c)

/-- Waiting messages in order; what cannot be sent stays. -/
def State.flushOuts (s : State) (c : Comm) : List Outgo → State × Comm
  | [] => (s, c)
  | o :: os =>
    match s.flushOne c o with
    | some r => r.1.flushOuts r.2 os
    | none => let r := s.flushOuts c os; (r.1, { r.2 with outs := o :: r.2.outs })

/-- Every waiting message that may be sent is sent. -/
def State.flush (s : State) (c : Comm) : State × Comm := s.flushOuts { c with outs := [] } c.outs

/-- A message joins those waiting. -/
def Comm.post (c : Comm) (o : Outgo) : Comm := { c with outs := c.outs ++ [o] }

/-- R200: one credit returned to an accelerator member; tokens' credits travel on CMB (R276). -/
def State.creditMember (s : State) (c : Comm) (home i : Nat) (cmb : Bool) : Comm :=
  if (c.mem i).ep = 0xFF ∨ c.desc.members.length ≤ i then c
  else c.post ⟨0, 0, 0, s.toAddr c kCREDIT (if cmb then 5 else 3) home (s.memAddr c i) 0 0 1, [], ⟨8, c.desc.id, 0, i⟩⟩

/-- R206: one credit of a ring stream returned to the switch that used it. -/
def State.creditRing (s : State) (c : Comm) (home : Nat) (st : Staged) : Comm :=
  if st.level = 0 then c
  else c.post ⟨0, 0, 0, s.toSwitch c kCREDIT 3 home (st.src / 64) 0 0 (1 + st.level * 2 ^ 16 + st.dir * 2 ^ 18), [],
    ⟨8, c.desc.id, 0, 16⟩⟩

/-- A message that a save record brought back; it holds no credit (R546; log 32). -/
def fromRecord : Nat := 0xFFFF

/-- R200, R206, R209: the credit of a staged message goes back to who sent it. -/
def State.creditBack (s : State) (c : Comm) (home : Nat) (st : Staged) : Comm :=
  if st.src = fromRecord then c
  else if st.kind = kCONTRIB then s.creditMember c home st.who false
  else if st.kind = kTOKEN then s.creditMember c home st.who true
  else s.creditRing c home st

/-- R206: ring credits arrive. A packet does not say for which path; how many of them are the up path's is a free value within
what both paths may hold (log 25). -/
def State.creditIn (s : State) (p : Pkt) : State :=
  s.onComm p.comm (fun s c =>
    let n := p.arg % 2 ^ 16
    let level := p.arg / 2 ^ 16 % 4
    let dir := p.arg / 2 ^ 18 % 2
    if c.st ≠ 2 ∨ level = 0 then s
    else
      let up := Tbl.look 0 c.cred (credKey level dir 0)
      let dn := Tbl.look 0 c.cred (credKey level dir 1)
      let d := s.draw
      let s := d.2
      let k := min (max (d.1.toNat % (n + 1)) (n - (c.desc.window - dn))) (c.desc.window - up)
      let cred := Tbl.put (credKey level dir 0) (up + k) c.cred
      let cred := Tbl.put (credKey level dir 1) (min c.desc.window (dn + (n - k))) cred
      let c := { c with cred := cred }
      let r := s.flush c
      r.1.setComm r.2)

end Sys2Proof.Machine
end

