-- ==== Sys2Proof/Machine/CollGeo.lean ====
section
/-! DEFINITION. The shape of a collective (R212, R213, R219 to R228): chunks, generations, who contributes and who receives,
element and scale bytes of a chunk on the wire and in memory, and the values of contributions and partials. -/
namespace Sys2Proof.Machine

/-! ### Element and scale bytes -/

/-- Codes packed in a plane (R43). -/
def packCodes (bits : Nat) (codes : List Nat) : List Byte :=
  leBytes (ceilDiv (codes.length * bits) 8) (codes.foldr (fun c n => c % 2 ^ bits + n <<< bits) 0)

/-- The elements that a chunk's bytes hold: an element plane, for block-scaled formats followed by one scale code for each
block (log 26). -/
def msgElems (f : Fmt) (bs len : Nat) : Nat :=
  if f.isBlock then len * 8 / (bs * f.bits + 8) * bs else len * 8 / f.bits

/-- The lanes of a chunk's bytes. -/
def msgLanes (f : Fmt) (bs : Nat) (data : List Byte) : List Nat :=
  let n := msgElems f bs data.length
  (List.range n).map (fun i =>
    toLane f (planeElem data f.bits i) (if f.isBlock then (nth 0 data (n * f.bits / 8 + i / bs)).toNat else 0))

/-- The scale codes of lanes. -/
def laneScales (f : Fmt) (bs : Nat) (ls : List Nat) : List Byte :=
  if f.isBlock then (List.range (ceilDiv ls.length bs)).map (fun j => BitVec.ofNat 8 (fieldOf (nth 0 ls (j * bs)) 24 8)) else []

/-- A chunk's bytes from its lanes. -/
def lanesMsg (f : Fmt) (bs : Nat) (ls : List Nat) : List Byte :=
  packCodes f.bits (ls.map (ofLane f)) ++ laneScales f bs ls

/-- Where the scale plane of a tensor of `total` elements stands behind its element plane (log 26). -/
def scaleOffset (f : Fmt) (total : Nat) : Nat := roundUp (ceilDiv (total * f.bits) 8) 64

/-- Bytes of a tensor in memory, both planes. -/
def tensorBytes (f : Fmt) (bs total : Nat) : Nat :=
  if f.isBlock then scaleOffset f total + total / bs else ceilDiv (total * f.bits) 8

/-- Elements `first` onward of a tensor in memory, with whether a word was poisoned. -/
def State.readTensor (s : State) (f : Fmt) (bs base total first n : Nat) (ecc : Ecc) : List Nat × Bool × State :=
  let e := s.readMem (base + first * f.bits / 8) (ceilDiv (n * f.bits) 8) ecc
  let q := if f.isBlock then e.2.2.readMem (base + scaleOffset f total + first / bs) (n / bs) ecc else ([], [], e.2.2)
  ((List.range n).map (fun i => toLane f (planeElem e.1 f.bits i) (if f.isBlock then (nth 0 q.1 (i / bs)).toNat else 0)),
   !(e.2.1.isEmpty && q.2.1.isEmpty), q.2.2)

/-- Elements `first` onward of a tensor in memory written. -/
def State.writeTensor (s : State) (f : Fmt) (bs base total first : Nat) (ls : List Nat) : State :=
  let s := s.writeMem (base + first * f.bits / 8) (packCodes f.bits (ls.map (ofLane f)))
  if f.isBlock then s.writeMem (base + scaleOffset f total + first / bs) (laneScales f bs ls) else s

/-! ### Values -/

/-- The values of lanes with the flags that decoding sets. -/
def lanesVals (f : Fmt) (ls : List Nat) : List Val × Flags :=
  let rs := ls.map (Val.ofLane f)
  (rs.map (·.1), rs.foldl (fun fl r => fl.join r.2) .none)

/-- R215, R218: values stored to a format: lanes and flags, with the communicator's key. -/
def storeChunk (f : Fmt) (bs : Nat) (mode : Mode) (level seed comm chunk : Nat) (vs : List Val) : List Nat × Flags :=
  let rnd (i : Nat) : Rnd := ⟨mode, level, ⟨seed, comm, chunk, i⟩⟩
  let ivs := (List.range vs.length).zip vs
  if f.isBlock then
    let rs := (pieces bs (ceilDiv vs.length bs) ivs).map (fun b => storeBlock f level (b.map (fun p => (p.2.toAcc, rnd p.1))))
    ((rs.map (·.1)).flatten, rs.foldl (fun fl r => fl.join r.2) .none)
  else
    let rs := ivs.map (fun p =>
      match p.2 with
      | .int z => if f.isInt then storeInt z f else storeElem (Acc.ofInt z) f (rnd p.1)
      | .acc a => storeElem a f (rnd p.1))
    (rs.map (fun r => toLane f r.1 0), rs.foldl (fun fl r => fl.join r.2) .none)

/-- R219: the identity of RED in a format. -/
def redIdentity (f : Fmt) (red : Nat) : Val :=
  if f.isInt then
    let hi : Int := (f.maxCode : Int)
    let lo : Int := -((f.maxNeg : Nat) : Int)
    .int (match red with | 1 => lo | 2 => hi | 3 => if f.isUnsigned then (2 ^ 32 - 1 : Nat) else -1 | _ => 0)
  else .acc (match red with | 1 => .inf true | 2 => .inf false | _ => .zero false)

/-- RED on two runs of values, element by element. -/
def redVals (f : Fmt) (red : Nat) (a b : List Val) : List Val × Flags :=
  let rs := (a.zip b).map (fun p => Val.bin f (redOp red) p.1 p.2)
  (rs.map (·.1), rs.foldl (fun fl r => fl.join r.2) .none)

/-- R215: the wire format of partials: 32-bit integers for integer formats, else WIRE. -/
def wireFmt (c : Comm) (f : Fmt) : Fmt := if f.isInt then (if f.isUnsigned then .u32 else .i32) else if c.desc.wire = 4 then .w16 else .w32

/-- R69, R215: values rounded to WIRE by RNE. -/
def roundWire (c : Comm) (f : Fmt) (vs : List Val) : List Val × Flags :=
  let rs := vs.map (fun v =>
    match v with
    | .int z => (Val.int z, Flags.none)
    | .acc a => let r := storeElem a (wireFmt c f) Rnd.near; (Val.acc (decodeLane (wireFmt c f) r.1).1, r.2))
  (rs.map (·.1), rs.foldl (fun fl r => fl.join r.2) .none)

/-- A partial's bytes on the wire; the values are already rounded. -/
def wireBytes (c : Comm) (f : Fmt) (vs : List Val) : List Byte :=
  let w := wireFmt c f
  packCodes w.bits (vs.map (fun v =>
    match v with | .int z => wrapInt z 32 | .acc a => (storeElem a w Rnd.near).1))

/-- A partial's values. -/
def wireVals (c : Comm) (f : Fmt) (data : List Byte) : List Val := (lanesVals (wireFmt c f) (msgLanes (wireFmt c f) 32 data)).1

/-! ### Chunks and generations (R212) -/

/-- R212: operations that reduce. -/
def redOpc (op : Nat) : Bool := op == 0 || op == 1 || op == 4 || op == 7

/-- R212: elements of a chunk. -/
def Comm.elems (c : Comm) (op : Nat) (f : Fmt) : Nat :=
  if redOpc op then c.desc.chunk / ((wireFmt c f).bits / 8)
  else
    let n := c.desc.chunk * 8 / f.bits
    if f = .q6 then n / 256 * 256 else n

/-- Chunks of one contribution, of a block for A2AV. -/
def Comm.perSlot (c : Comm) (op : Nat) (f : Fmt) (count : Nat) : Nat := ceilDiv count (c.elems op f)

/-- R212: chunk generations of a collective. -/
def Comm.gensOf (c : Comm) (op : Nat) (f : Fmt) (count : Nat) : Nat :=
  let k := c.perSlot op f count
  if op = 2 ∨ op = 6 then c.desc.nranks * k else if op = 5 then c.desc.nranks * c.desc.nranks * k else k

/-- Block size of a collective's elements: that of the AGMM descriptor, else 32 (log 26). -/
def Coll.bs (x : Coll) : Nat := if x.op = 6 then (if leAt x.dbytes 2 1 = 0 then 16 else 32) else 32

/-- Chunks of one contribution or block. -/
def Coll.per (c : Comm) (x : Coll) : Nat := c.perSlot x.op x.fmt x.count

/-- Chunks that one member may send. -/
def Coll.sends (c : Comm) (x : Coll) : Nat := if x.op = 5 then c.desc.nranks * x.per c else x.per c

/-- Place of a chunk in its contribution or block. -/
def Coll.place (c : Comm) (x : Coll) (i : Nat) : Nat := if redOpc x.op ∨ x.op = 3 then i else i % x.per c

/-- Elements of a chunk, by its place. -/
def Coll.size (c : Comm) (x : Coll) (i : Nat) : Nat :=
  min (c.elems x.op x.fmt) (x.count - x.place c i * c.elems x.op x.fmt)

/-- The generation that a member's chunk is, for its rank. -/
def Coll.genOf (c : Comm) (x : Coll) (rank i : Nat) : Nat :=
  if redOpc x.op ∨ x.op = 3 then i else rank * x.sends c + i

/-- The rank that alone contributes a generation of a moving operation. -/
def Coll.origin (c : Comm) (x : Coll) (g : Nat) : Option Nat :=
  if redOpc x.op then none else if x.op = 3 then some x.root else some (g / x.sends c)

/-- A generation's number among the chunks of its contributor. -/
def Coll.sendNo (c : Comm) (x : Coll) (g : Nat) : Nat := if redOpc x.op ∨ x.op = 3 then g else g % x.sends c

/-- The member entry of a rank on this switch. -/
def Comm.rankMem (c : Comm) (rank : Nat) : Option Nat := (c.members.find? (fun m => m.2.rank == rank)).map (·.1)

/-! ### Rings and trees (R213, R214, R216) -/

/-- R213: the owner's position of a chunk at a level; express communicators converge on position 0 (R214). -/
def Comm.owner (c : Comm) (l g : Nat) : Nat :=
  if c.desc.express then 0
  else
    let z := (c.lv 1).size
    let x := (c.lv 2).size
    match l with
    | 1 => g % z
    | 2 => g / z % x
    | _ => g / (z * x) % (c.lv 3).size

/-- The lowest bit that is set. -/
def lowBit (n : Nat) : Nat := ((List.range 16).find? (fun k => n.testBit k)).elim 16 (2 ^ ·)

/-- R214: the positions that send to a position in the pairwise tree, nearest first. -/
def treeKids (size p : Nat) : List Nat :=
  ((List.range 4).filter (fun k => decide (2 ^ k < lowBit p) && decide (p + 2 ^ k < size))).map (fun k => p + 2 ^ k)

/-- The position after `p` in a direction: 0 plus, 1 minus. -/
def ringNext (size dir p : Nat) : Nat := if dir = 0 then (p + 1) % size else (p + size - 1) % size

/-- R213: the shorter way from a position to another; plus when both are equal (log 27). -/
def shorterWay (size p o : Nat) : Nat := if 2 * ((o + size - p) % size) ≤ size then 0 else 1

/-- R212: the tile that combines the contributions of a die for a chunk, and the one that combines the die partials and holds
the switch's partial. -/
def dieTile (die g : Nat) : Nat := 16 * die + g % 16
/-- The tile that holds a switch's partial of a chunk. -/
def chunkTile (g : Nat) : Nat := dieTile (g % 4) g

/-- R213: hops that a result travels from its owner in a direction. -/
def spanOf (size dir : Nat) : Nat := if dir = 0 then size / 2 else size - 1 - size / 2

/-- R213, R214: where a result that arrived at a level in a direction, or is formed here (level 4), goes next: level,
direction and position. -/
def Comm.downTo (c : Comm) (g level dir : Nat) : List (Nat × Nat × Nat) :=
  if c.desc.express then
    (c.rings.filter (fun l => decide (l ≤ level))).reverse.flatMap (fun l =>
      (treeKids (c.lv l).size (c.lv l).pos).map (fun q => (l, 0, q)))
  else
    let on (l : Nat) : List (Nat × Nat × Nat) :=
      [0, 1].filterMap (fun d => if 1 ≤ spanOf (c.lv l).size d then some (l, d, ringNext (c.lv l).size d (c.lv l).pos) else none)
    let further : List (Nat × Nat × Nat) :=
      if level ≤ 3 then
        let v := c.lv level
        let o := c.owner level g
        let dist := if dir = 0 then (v.pos + v.size - o) % v.size else (o + v.size - v.pos) % v.size
        if dist < spanOf v.size dir then [(level, dir, ringNext v.size dir v.pos)] else []
      else []
    further ++ (c.rings.filter (fun l => decide (l < level))).reverse.flatMap on

/-- R216: the rank-order tree of a ring level: internal nodes rounded to WIRE; the root too unless it is the last level's. -/
def ringTree (c : Comm) (f : Fmt) (red : Nat) (last : Bool) (size : Nat) (ls : List (Option (List Val))) : List Val × Flags :=
  let round (r : List Val × Flags) : List Val × Flags := let w := roundWire c f r.1; (w.1, r.2.join w.2)
  let op (a b : List Val) : List Val × Flags := round (redVals f red a b)
  let k := if size ≤ 2 then 1 else if size ≤ 4 then 2 else if size ≤ 8 then 3 else 4
  let half := 2 ^ (k - 1)
  let a := treeOf op (k - 1) (ls.take half ++ List.replicate (half - ls.length) none)
  let b := treeOf op (k - 1) (ls.drop half ++ List.replicate (2 * half - max half ls.length) none)
  let fl := a.2.join b.2
  match a.1, b.1 with
  | none, y => (y.getD [], fl)
  | some x, none => (x, fl)
  | some x, some y => let r := if last then redVals f red x y else op x y; (r.1, fl.join r.2)

/-! ### Descriptors of AGMM and ARAP (R223 to R228) -/

/-- A field of an operation's descriptor. -/
def Coll.dAt (x : Coll) (off n : Nat) : Nat := leAt x.dbytes off n

/-- MAT_FMT and OUT_FMT of AGMM. -/
def Coll.matFmt (x : Coll) : Fmt := (Fmt.ofCode (x.dAt 0 1)).getD .w32
/-- OUT_FMT of AGMM. -/
def Coll.outFmt (x : Coll) : Fmt := (Fmt.ofCode (x.dAt 1 1)).getD .w32
/-- ROWS of AGMM. -/
def Coll.rows (x : Coll) : Nat := x.dAt 4 4
/-- K_PIECE of AGMM. -/
def Coll.kPiece (x : Coll) : Nat := x.dAt 8 4
/-- N of AGMM. -/
def Coll.nCols (x : Coll) : Nat := x.dAt 0xC 4

/-- Bytes of a member's resident matrix, elements and scales (R223, R48). -/
def Coll.matBytes (c : Comm) (x : Coll) : Nat × Nat :=
  let k := c.desc.nranks * x.kPiece
  (ceilDiv (x.nCols * k * x.matFmt.bits) 8, if x.matFmt.isBlock then x.nCols * k / x.bs else 0)

/-- R58: formats that form a pair. -/
def pairOk (a b : Nat) : Bool := (codeIsBlock a && codeIsBlock b) || (a == 4 && b == 4)

/-- R224: an AGMM descriptor is valid. -/
def Coll.agmmOk (c : Comm) (x : Coll) : Bool :=
  let b := x.dbytes
  pairOk (x.dAt 0 1) x.fmt.code && decide (x.dAt 1 1 ≤ 5) && !levelLacks c.desc.level (x.dAt 0 1) &&
  !levelLacks c.desc.level (x.dAt 1 1) && decide (x.dAt 2 1 ≤ 1) && decide (x.dAt 3 1 ≤ 1) &&
  decide (1 ≤ x.rows) && decide (x.rows ≤ 4096) && x.kPiece % x.bs == 0 && decide (16 ≤ x.kPiece) &&
  decide (x.kPiece ≤ 65536) && x.nCols % 64 == 0 && decide (64 ≤ x.nCols) && decide (x.nCols ≤ 256) && zeroBytes b 0x18 8 &&
  (List.range c.desc.members.length).all (fun i =>
    let e := x.dAt (0x20 + 16 * i) 8
    let q := x.dAt (0x28 + 16 * i) 8
    e % 64 == 0 && inPlates e (x.matBytes c).1 && (!x.matFmt.isBlock || (q % 64 == 0 && inPlates q (x.matBytes c).2)))

/-- The stage word of an ARAP descriptor (R157, R227). -/
def Coll.stages (x : Coll) : List Nat := chainStages (BitVec.ofNat 119 (x.dAt 0 9))

/-- OP_FMT of ARAP. -/
def Coll.opFmt (x : Coll) : Fmt := (Fmt.ofCode (x.dAt 9 1)).getD .w32

/-- WRITEBACK of ARAP. -/
def Coll.writeback (x : Coll) : Bool := bitOf (x.dAt 0xA 1) 0

/-- The vector operands that ARAP's stages use. -/
def Coll.vecUsed (x : Coll) (j : Nat) : Bool :=
  (x.stages.any (fun st => stageHasOperand (stageOp st) && stageSel st == j)) || (j == 0 && x.writeback)

/-- R159, R226 to R228: an ARAP descriptor is valid. -/
def State.arapOk (s : State) (c : Comm) (x : Coll) : Bool :=
  let all := (List.range 8).map (wStage (BitVec.ofNat 119 (x.dAt 0 9)))
  !stagesBroken false all &&
  x.stages.all (fun st => !(decide (0x10 ≤ stageOp st) && decide (stageOp st ≤ 0x12)) &&
    !(stageHasOperand (stageOp st) && decide (4 ≤ stageSel st) && decide (stageSel st < 8))) &&
  (match Fmt.ofCode (x.dAt 9 1) with | some f => f.isFloat | none => false) && !levelLacks c.desc.level (x.dAt 9 1) &&
  decide (x.dAt 0xA 1 ≤ 1) && zeroBytes x.dbytes 0xB 5 && (!x.writeback || x.fmt.code == x.dAt 9 1) &&
  [0, 1, 2, 3].all (fun j =>
    let a := x.dAt (0x30 + 8 * j) 8
    if x.vecUsed j then s.rangeWin a (tensorBytes x.opFmt 32 x.count) == some .hbm else a == 0)

/-! ### Who receives what (R199, R220 to R225) -/

/-- What a member receives of a generation: the chunk number that the packet names, the first element and how many of the
generation, and where they stand in the member's result. -/
def Coll.share (c : Comm) (x : Coll) (rank g : Nat) : Option (Nat × Nat × Nat × Nat) :=
  let n := x.size c g
  let lo := x.place c g * c.elems x.op x.fmt
  match x.op with
  | 1 =>
    let p := x.count / c.desc.nranks
    let a := max lo (rank * p)
    let b := min (lo + n) ((rank + 1) * p)
    if a < b then some (g, a - lo, b - a, a - rank * p) else none
  | 4 => if rank = x.root then some (g, 0, n, lo) else none
  | 2 => some (g, 0, n, g / x.sends c * x.count + lo)
  | 5 =>
    let m := g / x.sends c
    let k := g % x.sends c / x.per c
    if k = rank then some (m * x.per c + x.place c g, 0, n, m * x.count + lo) else none
  | 6 => if bitOf (x.dAt 3 1) 0 then some (g, 0, n, g / x.sends c * x.count + lo) else none
  | _ => some (g, 0, n, lo)

/-- Elements of a member's whole result. -/
def Coll.resultElems (c : Comm) (x : Coll) : Nat :=
  match x.op with
  | 1 => x.count / c.desc.nranks
  | 2 | 5 | 6 => c.desc.nranks * x.count
  | _ => x.count

/-- Where the local member's result of a collective stands; the gathered tensor of AGMM lies GATHER_OFS further (log 28). -/
def Coll.localBase (x : Coll) : Nat := if x.op = 6 then x.sc + x.dAt 0x10 8 else x.sc

end Sys2Proof.Machine
end

