-- ==== Sys2Proof/Machine/CollRun.lean ====
section
/-! DEFINITION. Collectives at work (R199 to R234): intake of contributions, combining steps, results on their way down,
and completion. Each operation takes the communicator and the collective out of the state and answers them changed. -/
namespace Sys2Proof.Machine

/-- What a step of a collective works on: the state, its communicator and the collective itself. -/
structure Run where
  s : State
  c : Comm
  x : Coll
  deriving DecidableEq, Repr

/-- A collective taken up. -/
def State.withColl (s : State) (id seq : Nat) (f : Run → Run) : State :=
  s.onComm id (fun s c =>
    match c.coll seq with
    | none => s
    | some x => let r := f ⟨s, c, x⟩; r.s.setComm (r.c.setColl r.x))

/-- The state of a run changed. -/
def Run.onState (r : Run) (f : State → State) : Run := { r with s := f r.s }

/-- A member's account changed. -/
def Run.onMem (r : Run) (i : Nat) (f : MemSt → MemSt) : Run := { r with x := { r.x with mems := modNth r.x.mems i f } }

/-- Flags raised by the collective on this switch (R234). -/
def Run.raise (r : Run) (fl : Flags) : Run := { r with x := { r.x with flags := r.x.flags ||| fl.toNat } }

/-- R73, R234: flags that an engine of a tile raises for the collective: its own sticky flags, and those of the record. -/
def Run.raiseAt (r : Run) (t : Nat) (xh : Bool) (fl : Flags) : Run := (r.raise fl).onState (fun s => s.raiseFlags t xh fl)

/-- R76, R77, R511: an engine of a tile makes `n` checks for the collective; `found` mismatches are what it meets by itself.
Whether a check failed (log 61). -/
def Run.checked (r : Run) (t : Nat) (xh : Bool) (n found : Nat) : Bool × Run :=
  let j := r.s.injected (if xh then 6 else 5) (tileDie t) t 0 n
  let own := ownHits xh n j.1 found
  let s := if j.1 = 0 then j.2.2.2 else j.2.2.2.residueHits t xh 0 j.1 true j.2.2.1
  (decide (j.1 + own ≠ 0), { r with s := if own = 0 then s else s.residueHits t xh 0 own false false })

/-- The hatch engine of a tile works for the device's machinery: it is not in reset (R509), and its tile is in no low state
(R553). -/
def State.hatchUp (s : State) (t : Nat) : Bool := !s.inReset 1 t && s.pwrState (64 + t) == 0

/-- The crosshatch unit of a tile works for the device's machinery: as above, and it has power (R553). -/
def State.unitUp (s : State) (t : Nat) : Bool := !s.inReset 2 t && s.pwrState (128 + t) == 0

/-- A hatch engine takes new work of the device's machinery: no self-test holds it (R519). -/
def State.hatchFree (s : State) (t : Nat) : Bool := !(s.tile t).testHold && s.hatchUp t

/-- A crosshatch unit takes new work of the device's machinery. -/
def State.unitFree (s : State) (t : Nat) : Bool := !(s.tile t).testHold && s.unitUp t

/-- The communicator holds its work because of a pause (R542). -/
def Comm.paused (c : Comm) : Bool := match c.pause with | some p => p.held | none => false

/-- A collective still runs: no status has ended it. -/
def Coll.live (x : Coll) : Bool := x.fin.isNone && x.stage == 0

/-! ### Ends (R230, R231) -/

/-- A collective ends with a status; a communicator-level one makes the communicator FAULTED and cancels every later one that
was accepted, whatever it had met (R231). -/
def Comm.endColl (c : Comm) (seq status : Nat) : Comm :=
  if commLevel status then
    { c with
      st := 3,
      ops := c.ops.map (fun x =>
        if x.stage ≠ 0 then x
        else if x.seq == seq then { x with fin := some status }
        else if (x.seq + 2 ^ 32 - seq) % 2 ^ 32 < 2 ^ 31 then { x with fin := some 0x01 } else x) }
  else { c with ops := c.ops.map (fun x =>
    if x.seq == seq && x.fin.isNone && x.stage == 0 then { x with fin := some status } else x) }

/-- The collective of a run ends with a status. -/
def Run.fail (r : Run) (status : Nat) : Run :=
  let c := (r.c.setColl r.x).endColl r.x.seq status
  { r with c := c, x := (c.coll r.x.seq).getD r.x }

/-! ### Intake (R199 to R201, R209, R210, R219, R221) -/

/-- A contribution's block: A2AV's destination rank, else 0. -/
def Coll.block (c : Comm) (x : Coll) (i : Nat) : Nat := if x.op = 5 then i / x.per c else 0

/-- Whether a member's contribution ended before a chunk of it. -/
def Coll.endedAt (c : Comm) (x : Coll) (m i : Nat) : Bool :=
  x.ended.any (fun e => e.1 == m && e.2.1 == x.block c i && decide (e.2.2 ≤ i))

/-- R201, R219 to R222: a member's chunk is staged; what is beyond the contribution is dropped, a chunk that holds fewer
elements than its place ends the contribution (log 29). -/
def Run.contrib (r : Run) (st : Staged) : Run :=
  let c := r.c
  let x := r.x
  let m := st.who
  let ne := msgElems x.fmt x.bs st.data.length
  let tag := 16 * st.chunk + m
  if (x.op = 3 ∧ (c.mem m).rank ≠ x.root) ∨ x.sends c ≤ st.chunk ∨ x.held.contains tag ∨ x.endedAt c m st.chunk then
    let r := { r with c := r.s.creditBack c x.home st }
    if x.held.contains tag then r else r.onMem m (fun a => { a with dropped := satAdd 32 a.dropped ne })
  else
    let want := x.size c st.chunk
    let pl := x.place c st.chunk
    let short := decide (ne < want) && !st.bad
    let lastOf := decide (pl + 1 = (if redOpc x.op ∨ x.op = 3 then x.sends c else x.per c))
    let missing := x.count - pl * c.elems x.op x.fmt - ne
    let bkey := 16 * x.block c st.chunk + m
    let b := Tbl.look 0 x.blocks bkey
    let b := setFieldOf b 0 31 (fieldOf b 0 31 + min ne want)
    let b := if want < ne then setFieldOf b 31 1 1 else b
    let b := if short || lastOf || st.bad then setFieldOf b 32 1 1 else b
    let x := { x with
      staged := x.staged ++ [st], held := x.held ++ [tag],
      blocks := if x.op = 5 then Tbl.put bkey b x.blocks else x.blocks,
      ended := if short then x.ended ++ [(m, x.block c st.chunk, st.chunk + 1)] else x.ended }
    ({ r with x := x }).onMem m (fun a => { a with
      dropped := satAdd 32 a.dropped (ne - want), padded := if short then satAdd 32 a.padded missing else a.padded })

/-- The bytes that a partial of a generation holds; 0 stands for an absent one. -/
def Coll.partialOk (c : Comm) (x : Coll) (st : Staged) : Bool :=
  if st.bad || st.data.isEmpty then true
  else if redOpc x.op then st.data.length == ceilDiv (x.size c st.chunk * (wireFmt c x.fmt).bits) 8
  else
    let extra := if x.op = 5 ∧ x.place c st.chunk = 0 then 4 else 0
    msgElems x.fmt x.bs (st.data.length - extra) == x.size c st.chunk

/-- R210, R213: a ring neighbour's partial is staged; parameters that differ end the collective. -/
def Run.partialIn (r : Run) (st : Staged) : Run :=
  if !st.agree || decide (r.x.gens ≤ st.chunk) || !r.x.partialOk r.c st then r.fail cMISMATCH
  else { r with x := { r.x with staged := r.x.staged ++ [st], poisonIn := r.x.poisonIn || st.bad } }

/-! ### Results on their way down (R213, R214, R232, R233) -/

/-- A RESULT message to a local member; its header carries the flags of the chunk's final store (R234, R287). -/
def Run.sendResult (r : Run) (i chunk gen : Nat) (data : List Byte) (aflags : Nat) : Run :=
  let x := r.x
  let c := r.c
  if x.acked.contains (16 * gen + i) then r
  else
    let p := r.s.toAddr c kRESULT 3 x.home (r.s.memAddr c i) chunk x.seq 0
    let p := { p with flags := p.flags + 16 * (aflags % 16) }
    { r with
      c := c.post ⟨0, 0, 0, p, data, ⟨2, c.desc.id, x.seq, 32 * gen + i⟩⟩,
      x := { x with flight := x.flight ++ [(i, gen, (cutMessage data).length)] } }

/-- R233, R234: a generation is delivered to a member as an error. -/
def Run.badFor (r : Run) (i gen : Nat) : Run :=
  let r := r.onMem i (fun a => { a with
    bad := satAdd 32 a.bad 1, first := min a.first gen, last := if a.last = 0xFFFFFFFF then gen else max a.last gen })
  if r.x.badGens.contains gen then r else { r with x := { r.x with badGens := r.x.badGens ++ [gen] } }

/-- R233, R444, R453: the datamover of the home tile's die writes the local member's results; while it does not work the write
fails. -/
def Run.localUp (r : Run) : Bool := r.s.machineUp (tileDie r.x.home)

/-- A result's lanes for one member: to the accelerator, or into memory for the local member. A member whose generation is an
error is sent no packet of it; its notice tells (R518, R232). A failed write of the local member makes its generation an error. -/
def Run.deliverTo (r : Run) (g : Nat) (ls : List Nat) (bad : Bool) (aflags i : Nat) : Run :=
  let x := r.x
  match x.share r.c (r.c.mem i).rank g with
  | none => r
  | some (chunk, first, n, off) =>
    let part := (ls.drop first).take n
    if bad then (if x.acked.contains (16 * g + i) then r else r.badFor i g)
    else if (r.c.mem i).ep = 0xFF then
      if r.localUp then r.onState (fun s => s.writeTensor x.fmt x.bs x.localBase (x.resultElems r.c) off part) else r.badFor i g
    else r.sendResult i chunk g (lanesMsg x.fmt x.bs part) aflags

/-- R222: the count word of an A2AV block reaches its member; it follows the slots' chunks (log 30). -/
def Run.countWord (r : Run) (g word i : Nat) : Run :=
  let x := r.x
  let m := g / x.sends r.c
  if g % x.sends r.c / x.per r.c ≠ (r.c.mem i).rank then r
  else if (r.c.mem i).ep = 0xFF then
    if r.localUp then r.onState (fun s => s.writeMem (x.sf + 4 * m) (leBytes 4 word)) else r.badFor i (x.gens + m)
  else r.sendResult i (r.c.desc.nranks * x.per r.c + m) (x.gens + m) (leBytes 4 word) 0

/-- R228: ARAP's result is written into operand 0 on every switch. -/
def Run.writeOperand (r : Run) (g : Nat) (ls : List Nat) : Run :=
  let x := r.x
  if x.op = 7 ∧ x.writeback then
    r.onState (fun s => s.writeTensor x.opFmt 32 (x.dAt 0x30 8) x.count (x.place r.c g * r.c.elems x.op x.fmt) ls)
  else r

/-- What tells the RESULT copy of a generation for a switch from its other copies: level and direction, or the child's number in
an express tree. -/
def downTag (level k : Nat) : Nat := 16 + 4 * level + k

/-- R213, R232: a RESULT copy of a generation for another switch of a level. -/
def Run.resultCopy (r : Run) (c : Comm) (g : Nat) (data : List Byte) (bad : Bool) (aflags level dir q k : Nat) : Comm :=
  let p := r.s.toSwitch c kRESULT 3 r.x.home (nth 0 (c.lv level).ids q) g r.x.seq (level + 4 * dir + 8 * b2n c.desc.express)
  let p := { p with flags := p.flags + (if bad then 8 else 0) + 16 * (aflags % 16) }
  c.post ⟨level, dir, 1, p, if bad then [] else data, ⟨2, c.desc.id, r.x.seq, 32 * g + downTag level k⟩⟩

/-- A copy's number among those of its level: the direction round a ring, the child's number in a tree. -/
def Comm.downNo (c : Comm) (t : Nat × Nat × Nat) : Nat :=
  if c.desc.express then (treeKids (c.lv t.1).size (c.lv t.1).pos).findIdx (fun q => q == t.2.2) else t.2.1

/-- R213, R232: a generation's result is at this switch, formed here (level 4) or arrived at a level: it goes on, and is
delivered to the local members. -/
def Run.result (r : Run) (g : Nat) (data : List Byte) (bad : Bool) (aflags level dir : Nat) : Run :=
  let x := r.x
  let c := r.c
  if x.seen.contains g then r
  else
    let c := (c.downTo g level dir).foldl (fun (c : Comm) t =>
      r.resultCopy c g data bad aflags t.1 t.2.1 t.2.2 (c.downNo t)) c
    let head := if x.op = 5 ∧ x.place c g = 0 then 4 else 0
    let ls := msgLanes x.fmt x.bs (data.drop head)
    let r : Run := ⟨r.s, c, { x with
      seen := x.seen ++ [g], flags := x.flags ||| aflags,
      good := x.good || (!bad && (x.op != 6 || bitOf (x.dAt 3 1) 0)),
      land := if x.op = 6 then Tbl.put g (if bad then [] else data) x.land else x.land }⟩
    let r := if bad then r else r.writeOperand g ls
    let r := (List.range c.desc.members.length).foldl (fun r i => r.deliverTo g ls bad aflags i) r
    if head = 4 ∧ !bad then
      (List.range c.desc.members.length).foldl (fun r i => r.countWord g (leAt data 0 4) i) r
    else r

/-- R213: a RESULT from a higher level or further round a ring; its credit goes back. -/
def Run.resultIn (r : Run) (st : Staged) : Run :=
  if !st.agree || decide (r.x.gens ≤ st.chunk) then r.fail cMISMATCH
  else
    let r := { r with c := r.s.creditBack r.c r.x.home st, x := { r.x with poisonIn := r.x.poisonIn || st.bad } }
    r.result st.chunk st.data st.bad st.flags st.level st.dir

/-! ### Combining (R212 to R219) -/

/-- A member's chunk for the switch level, once it is staged, read from memory, or known to be missing: lanes with
whether they are bad. -/
def Run.inputOf (r : Run) (m i : Nat) (ecc : Ecc) : Option (List Nat × Bool × Run) :=
  let x := r.x
  let n := x.size r.c i
  if (r.c.mem m).ep = 0xFF then
    let total := if x.op = 5 then r.c.desc.nranks * x.count else x.count
    let first := x.block r.c i * x.count + x.place r.c i * r.c.elems x.op x.fmt
    let q := r.s.readTensor x.fmt x.bs x.sb total first n ecc
    some (q.1, q.2.1, { r with s := q.2.2 })
  else
    match x.staged.find? (fun st => st.kind == kCONTRIB && st.who == m && st.chunk == i) with
    | some st => some ((msgLanes x.fmt x.bs st.data).take n, st.bad, r)
    | none => if x.endedAt r.c m i then some ([], false, r) else none

/-- Inputs of a step leave staging; their credits go back (R200, R206). -/
def Run.consume (r : Run) (f : Staged → Bool) : Run :=
  let x := r.x
  let c := (x.staged.filter f).foldl (fun (c : Comm) st => r.s.creditBack c x.home st) r.c
  { r with c := c, x := { x with staged := x.staged.filter (fun st => !f st) } }

/-- R212: the die on which a member's contribution is combined: that of its port, for the local member that of the home tile
(log 62). -/
def Run.memberDie (r : Run) (m : Nat) : Nat :=
  if (r.c.mem m).ep = 0xFF then tileDie r.x.home else portDie (r.c.mem m).ep

/-- A value on its way through the switch level: the tile that holds it, and the flags raised so far with the tiles that raised
them. -/
structure Leaf where
  vals : List Val
  tile : Nat
  flags : List (Nat × Flags)
  bad : Bool
  deriving DecidableEq, Repr

/-- The members' chunks of a reducing operation as values, in the order in which they are added: rank order when
deterministic, else that of arrival. None while one is missing. -/
def Run.leaves (r : Run) (g : Nat) (ecc : Ecc) : List Nat → Option (List Leaf × Run)
  | [] => some ([], r)
  | m :: ms =>
    match r.inputOf m g ecc with
    | none => none
    | some (ls, bad, r) =>
      let v := lanesVals r.x.fmt ls
      let full := v.1 ++ List.replicate (r.x.size r.c g - v.1.length) (redIdentity r.x.fmt r.x.red)
      let t := dieTile (r.memberDie m) g
      match r.leaves g ecc ms with
      | none => none
      | some (rest, r) => some (⟨full, t, [(t, v.2)], bad⟩ :: rest, r)

/-- R212: two values added: on their tile when both lie on one, else on the tile that holds the switch's partial. -/
def addLeaves (f : Fmt) (red g : Nat) (a b : Leaf) : Leaf :=
  let q := redVals f red a.vals b.vals
  let t := if a.tile = b.tile then a.tile else chunkTile g
  ⟨q.1, t, a.flags ++ b.flags ++ [(t, q.2)], a.bad || b.bad⟩

/-- R212, R217: without determinism the contributions of each die are added as they came, then the partials of the dies. -/
def addDies (f : Fmt) (red g : Nat) (ls : List Leaf) : Option Leaf :=
  let chain (l : List Leaf) : Option Leaf :=
    match l with | [] => none | a :: rest => some (rest.foldl (addLeaves f red g) a)
  chain ((((ls.map (·.tile)).foldl (fun ts t => if ts.contains t then ts else ts ++ [t]) []).map
    (fun t => chain (ls.filter (fun l => l.tile == t)))).filterMap id)

/-- R216: with determinism, the rank-order tree of n = 16. -/
def treeLeaves (f : Fmt) (red g : Nat) (ls : List Leaf) : Option Leaf :=
  (treeOf (fun a b => (addLeaves f red g a b, Flags.none)) 4 (ls.map some ++ List.replicate (16 - ls.length) none)).1

/-- Flags that tiles' hatch engines raise. -/
def Run.raiseAll (r : Run) (fs : List (Nat × Flags)) : Run := fs.foldl (fun r e => r.raiseAt e.1 false e.2) r

/-- The order in which members' chunks are added at the switch level (R216, R217). -/
def Run.memberOrder (r : Run) (g : Nat) : List Nat :=
  if r.c.determ then r.c.byRank
  else
    let came := (r.x.staged.filter (fun st => st.kind == kCONTRIB && st.chunk == g)).map (·.who)
    came ++ (List.range r.c.desc.members.length).filter (fun m => !came.contains m)

/-- R212, R215 to R217: the switch level of a reducing operation. -/
def Run.switchStep (r : Run) (g : Nat) (ecc : Ecc) : Run :=
  match r.leaves g ecc (r.memberOrder g) with
  | none => r
  | some (ins, r) =>
    let f := r.x.fmt
    let sum := ((if r.c.determ then treeLeaves f r.x.red g ins else addDies f r.x.red g ins).getD ⟨[], chunkTile g, [], false⟩)
    let out := if r.c.determ && !r.c.rings.isEmpty then roundWire r.c f sum.vals else (sum.vals, Flags.none)
    let r := (r.raiseAll sum.flags).raiseAt (chunkTile g) false out.2
    let r := r.consume (fun st => st.kind == kCONTRIB && st.chunk == g)
    { r with x := { r.x with
      parts := r.x.parts ++ [⟨g, 0, if sum.bad then [] else out.1, [], sum.bad, 0⟩], poisonIn := r.x.poisonIn || sum.bad } }

/-- R212, R221, R222: the switch level of a moving operation, on the switch of the member that holds the chunk. -/
def Run.moveStep (r : Run) (m g : Nat) (ecc : Ecc) : Run :=
  let x := r.x
  let i := x.sendNo r.c g
  let isLocal := (r.c.mem m).ep == 0xFF
  let word := if isLocal then x.count else Tbl.look 0 x.blocks (16 * x.block r.c i + m)
  if x.op = 5 ∧ x.place r.c i = 0 ∧ !isLocal ∧ word < 2 ^ 32 then r
  else
    match r.inputOf m i ecc with
    | none => r
    | some (ls, bad, r) =>
      let n := x.size r.c i
      let data := lanesMsg x.fmt x.bs (ls ++ List.replicate (n - ls.length) 0)
      let data := if x.op = 5 ∧ x.place r.c i = 0 then leBytes 4 (word % 2 ^ 32) ++ data else data
      let r := r.consume (fun st => st.kind == kCONTRIB && st.chunk == i && st.who == m)
      { r with x := { r.x with
        parts := r.x.parts ++ [⟨g, 0, [], if bad then [] else data, bad, 0⟩], poisonIn := r.x.poisonIn || bad } }

/-- What tells a PARTIAL of a generation from others: level, direction and the position it goes to. -/
def upTag (g level dir q : Nat) : Nat := 128 * g + 32 * level + 16 * dir + q

/-- A partial leaves for another switch of a level (R213, R215). -/
def Run.sendUp (r : Run) (p : Part) (l dir q : Nat) : Run :=
  let x := r.x
  let w := if redOpc x.op then roundWire r.c x.fmt p.vals else ([], Flags.none)
  let data := if redOpc x.op then wireBytes r.c x.fmt w.1 else p.data
  let k := r.s.toSwitch r.c kPARTIAL 2 x.home (nth 0 (r.c.lv l).ids q) p.gen x.seq (l + 4 * dir + 8 * b2n r.c.desc.express)
  let k := { k with flags := k.flags + (if p.bad then 8 else 0) }
  let r := r.raiseAt (chunkTile p.gen) false w.2
  { r with
    c := r.c.post ⟨l, dir, 0, k, if p.bad then [] else data, ⟨7, r.c.desc.id, x.seq, upTag p.gen l dir q⟩⟩,
    x := { r.x with parts := r.x.parts.filter (fun y => y.gen != p.gen), upDone := r.x.upDone ++ [p.gen] } }

/-- Two partials added; an absent one yields to the other. -/
def addParts (f : Fmt) (red : Nat) (a b : List Val) : List Val × Flags :=
  if a.isEmpty then (b, .none) else if b.isEmpty then (a, .none) else redVals f red a b

/-- A step's result replaces this switch's part of a generation. -/
def Run.setPart (r : Run) (p : Part) (fl : Flags) : Run :=
  let r := r.raiseAt (chunkTile p.gen) false fl
  { r with x := { r.x with parts := p :: r.x.parts.filter (fun y => y.gen != p.gen) } }

/-- The staged partial of a generation at a level from a position. -/
def Coll.partialAt (x : Coll) (g l who : Nat) : Option Staged :=
  x.staged.find? (fun st => st.kind == kPARTIAL && st.chunk == g && st.level == l && st.who == who)

/-- R213 to R217: one step of a ring level for a chunk of a reducing operation; `last` when it is the last level used. -/
def Run.ringStep (r : Run) (p : Part) (l : Nat) (last : Bool) : Run :=
  let x := r.x
  let c := r.c
  let f := x.fmt
  let v := c.lv l
  let o := c.owner l p.gen
  let vals (st : Staged) : List Val := if st.bad then [] else wireVals c f st.data
  let take (r : Run) (froms : List Nat) : Run :=
    r.consume (fun st => st.kind == kPARTIAL && st.chunk == p.gen && st.level == l && froms.contains st.who)
  if c.desc.express then
    let kids := treeKids v.size v.pos
    let ins := kids.map (x.partialAt p.gen l)
    if ins.any (fun i => i.isNone) then r
    else
      let came := x.staged.filter (fun st => ins.contains (some st))
      let sts := if c.determ then ins.filterMap id else came
      let step (a : List Val × Flags) (k : Nat × Staged) : List Val × Flags :=
        let q := addParts f x.red a.1 (vals k.2)
        let w := if c.determ && !(last && decide (v.pos = 0) && decide (k.1 + 1 = sts.length)) then roundWire c f q.1
          else (q.1, Flags.none)
        (w.1, (a.2.join q.2).join w.2)
      let sum := ((List.range sts.length).zip sts).foldl step (p.vals, Flags.none)
      let bad := p.bad || sts.any (·.bad)
      let r := take r kids
      let p' : Part := { p with vals := if bad then [] else sum.1, bad := bad, level := l }
      if v.pos = 0 then r.setPart p' sum.2
      else (r.raiseAt (chunkTile p.gen) false sum.2).sendUp p' l 0 (v.pos - lowBit v.pos)
  else if c.determ then
    if v.pos ≠ o then r.sendUp p l (shorterWay v.size v.pos o) o
    else
      let others := (List.range v.size).filter (fun q => q != v.pos)
      if others.any (fun q => (x.partialAt p.gen l q).isNone) then r
      else
        let leaf (vs : List Val) : Option (List Val) := if vs.isEmpty then none else some vs
        let ls := (List.range v.size).map (fun q =>
          if q = v.pos then leaf p.vals else ((x.partialAt p.gen l q).map vals).elim none leaf)
        let bad := p.bad || others.any (fun q => match x.partialAt p.gen l q with | some st => st.bad | none => false)
        let sum := ringTree c f x.red last v.size ls
        let r := take r others
        r.setPart { p with vals := if bad then [] else sum.1, bad := bad, level := l } sum.2
  else
    let dir := p.gen % 2
    let prev := ringNext v.size (1 - dir) v.pos
    let next := ringNext v.size dir v.pos
    if prev = o then r.sendUp p l dir next
    else
      match x.partialAt p.gen l prev with
      | none => r
      | some st =>
        let sum := addParts f x.red (vals st) p.vals
        let bad := p.bad || st.bad
        let r := take r [prev]
        let p' : Part := { p with vals := if bad then [] else sum.1, bad := bad, level := l }
        if v.pos = o then r.setPart p' sum.2 else (r.raiseAt (chunkTile p.gen) false sum.2).sendUp p' l dir next

/-- R226 to R228: the stroke chain of ARAP at the top, on one chunk. -/
def Run.strokeTop (r : Run) (p : Part) (ecc : Ecc) : List Val × Flags × Bool × Run :=
  let x := r.x
  let f := x.opFmt
  let n := p.vals.length
  let lo := x.place r.c p.gen * r.c.elems x.op x.fmt
  let vec := [0, 1, 2, 3].foldl (fun (acc : List (List Nat) × Bool × State) j =>
    if x.vecUsed j then
      let q := acc.2.2.readTensor f 32 (x.dAt (0x30 + 8 * j) 8) x.count lo n ecc
      (acc.1 ++ [q.1], acc.2.1 || q.2.1, q.2.2)
    else (acc.1 ++ [[]], acc.2)) (([] : List (List Nat)), false, r.s)
  let r := { r with s := vec.2.2 }
  let outs := ((List.range n).zip p.vals).map (fun e =>
    let y (st : Nat) : Nat :=
      if stageSel st < 4 then nth 0 (nth [] vec.1 (stageSel st)) e.1 else x.dAt (0x10 + 4 * (stageSel st - 8)) 4
    chainLane f r.c.desc.level (x.stages.map (fun st => (stageOp st, y st))) (.acc e.2.toAcc) (Val.zeroOf f) .none)
  (outs.map (·.1), outs.foldl (fun (fl : Flags) o => fl.join o.2) Flags.none, vec.2.1, r)

/-- R215, R216, R218, R226: the top switch rounds a chunk once and sends the result down. -/
def Run.top (r : Run) (p : Part) (ecc : Ecc) : Run :=
  let r := { r with x := { r.x with
    parts := r.x.parts.filter (fun y => y.gen != p.gen), upDone := r.x.upDone ++ [p.gen] } }
  let x := r.x
  if !redOpc x.op then r.result p.gen p.data p.bad 0 4 0
  else if p.bad then r.result p.gen [] true 0 4 0
  else
    let v : List Val × Flags × Bool × Run := if x.op = 7 then r.strokeTop p ecc else (p.vals, .none, false, r)
    let r := v.2.2.2.raiseAt (chunkTile p.gen) false v.2.1
    let d := r.c.desc
    let out := storeChunk x.fmt 32 ((Mode.ofCode x.rm).getD .rne) d.level d.seed d.id p.gen v.1
    let r := r.raiseAt (chunkTile p.gen) false out.2
    if v.2.2.1 then ({ r with x := { r.x with poisonIn := true } }).result p.gen [] true 0 4 0
    else r.result p.gen (lanesMsg x.fmt 32 out.1) false out.2.toNat 4 0

/-- R212 to R217: the next step of a chunk whose inputs are staged; nothing while one is missing. -/
def Run.combine (r : Run) (g : Nat) (ecc : Ecc) : Run :=
  let x := r.x
  if !x.live || r.c.paused || decide (x.gens ≤ g) || decide (0x10 ≤ x.op) then r
  else
    match x.parts.find? (fun p => p.gen == g) with
    | none =>
      if x.upDone.contains g || x.seen.contains g then r
      else if redOpc x.op then r.switchStep g ecc
      else
        (match (x.origin r.c g).bind r.c.rankMem with
         | some m => r.moveStep m g ecc
         | none =>
           match x.staged.find? (fun st => st.kind == kPARTIAL && st.chunk == g) with
           | none => r
           | some st =>
             let r := r.consume (fun t => t.kind == kPARTIAL && t.chunk == g)
             { r with x := { r.x with parts := r.x.parts ++ [⟨g, st.level - 1, [], st.data, st.bad, 0⟩] } })
    | some p =>
      match r.c.rings.filter (fun l => decide (p.level < l)) with
      | [] => r.top p ecc
      | l :: more =>
        if redOpc x.op then r.ringStep p l more.isEmpty
        else
          let v := r.c.lv l
          let o := r.c.owner l g
          if v.pos = o then r.setPart { p with level := l } .none
          else if r.c.desc.express then r.sendUp p l 0 (v.pos - lowBit v.pos)
          else if r.c.determ then r.sendUp p l (shorterWay v.size v.pos o) o
          else r.sendUp p l (g % 2) (ringNext v.size (g % 2) v.pos)

/-! ### AGMM (R223 to R225) -/

/-- R225: the running product of one member after one piece; rows of X times the piece's columns of W. -/
def Run.agmmRows (r : Run) (i rank : Nat) (piece : List Nat) (ecc : Ecc) : List Val × Flags × Bool × Run :=
  let x := r.x
  let kp := x.kPiece
  let k := r.c.desc.nranks * kp
  let n := x.nCols
  let old := Tbl.look (List.replicate (x.rows * n) (Val.acc (.zero false))) x.y i
  let eb := x.dAt (0x20 + 16 * i) 8
  let sb := x.dAt (0x28 + 16 * i) 8
  let mb := x.matBytes r.c
  let e := r.s.readMem eb mb.1 ecc
  let q := if x.matFmt.isBlock then e.2.2.readMem sb mb.2 ecc else ([], [], e.2.2)
  let cols := (List.range n).map (fun j =>
    ((List.range kp).map (fun t => planeElem e.1 x.matFmt.bits (j * k + rank * kp + t)),
     (List.range (kp / x.bs)).map (fun t => (nth 0 q.1 ((j * k + rank * kp) / x.bs + t)).toNat)))
  let outs := ((List.range x.rows).map (fun row =>
    let left := (piece.drop (row * kp)).take kp
    ((List.range n).zip cols).map (fun col =>
      let a := (nth (Val.acc (.zero false)) old (row * n + col.1)).toAcc
      sumInto a (if x.fmt.isBlock then dotBlocks x.fmt x.matFmt x.bs left col.2.1 col.2.2 else dotW16 left col.2.1)))).flatten
  let vs := roundWire r.c .w32 (outs.map (fun o => Val.acc o.1))
  (vs.1, (outs.foldl (fun (fl : Flags) o => fl.join o.2) Flags.none).join vs.2, !(e.2.1.isEmpty && q.2.1.isEmpty), { r with s := q.2.2 })

/-- R225: the tile whose plate holds a member's resident matrix. -/
def Coll.matTile (x : Coll) (i : Nat) : Nat := plateOf (x.dAt (0x20 + 16 * i) 8)

/-- R76, R511: checks that one piece of a product makes: one for each block pair, or each W16 element. -/
def Coll.pieceChecks (x : Coll) : Nat := x.rows * x.nCols * (if x.fmt.isBlock then x.kPiece / x.bs else 1)

/-- R225: Y is stored once and written to the member; its chunks are numbered after those of X (log 31). -/
def Run.agmmDone (r : Run) (i : Nat) (bad : Bool) : Run :=
  let x := r.x
  let d := r.c.desc
  let vs := Tbl.look [] x.y i
  let per := d.chunk * 8 / x.outFmt.bits
  let per := if x.outFmt = .q6 then per / 256 * 256 else per
  (List.range (ceilDiv (x.rows * x.nCols) per)).foldl (fun r j =>
    let out := storeChunk x.outFmt x.bs ((Mode.ofCode x.rm).getD .rne) d.level d.seed d.id (x.gens + j)
      ((vs.drop (j * per)).take per)
    let r := r.raiseAt (x.matTile i) true out.2
    let bad := bad || ((r.c.mem i).ep == 0xFF && !r.localUp)
    let r := if bad then r.badFor i (x.gens + j) else { r with x := { r.x with good := true } }
    if (r.c.mem i).ep = 0xFF then
      if bad then r else r.onState (fun s => s.writeTensor x.outFmt x.bs x.sc (x.rows * x.nCols) (j * per) out.1)
    else if bad then r
    else r.sendResult i (x.gens + j) (x.gens + j) (lanesMsg x.outFmt x.bs out.1) out.2.toNat) r

/-- The key of a piece that a member's product has consumed. -/
def usedKey (rank i : Nat) : Nat := 16 * rank + i

/-- The pieces that a member's product has consumed, in order. -/
def Coll.usedBy (x : Coll) (i : Nat) : List Nat := (x.used.filter (fun k => k % 16 == i)).map (· / 16)

/-- R76, R225: a landed piece is multiplied into one member's running product, on the crosshatch unit of the matrix's tile. -/
def Run.agmmMember (r : Run) (rank : Nat) (piece : List Nat) (bad : Bool) (ecc : Ecc) (residue : Nat) (i : Nat) : Run :=
  let x := r.x
  if (x.usedBy i).contains rank || (r.c.determ && rank != (x.usedBy i).length) || !r.s.unitFree (x.matTile i) then r
  else
    let k := r.checked (x.matTile i) true x.pieceChecks residue
    let o := k.2.agmmRows i rank piece ecc
    let r := o.2.2.2.raiseAt (x.matTile i) true o.2.1
    let bad := bad || o.2.2.1 || k.1 || (Tbl.find i r.x.y == some [])
    let r : Run := { r with x := { r.x with
      y := Tbl.put i (if bad then [] else o.1) r.x.y, used := r.x.used ++ [usedKey rank i],
      poisonIn := r.x.poisonIn || o.2.2.1 } }
    if (r.x.usedBy i).length = r.c.desc.nranks then r.agmmDone i (Tbl.look [] r.x.y i).isEmpty else r

/-- R225: a landed piece is multiplied into every member's running product whose unit is free: in rank order when
deterministic. It is dropped once every member's has consumed it. -/
def Run.agmmPiece (r : Run) (rank : Nat) (ecc : Ecc) (residue : Nat) : Run :=
  let x := r.x
  let per := x.per r.c
  let gs := (List.range per).map (· + rank * per)
  if x.op ≠ 6 ∨ !x.live ∨ r.c.paused ∨ r.c.desc.nranks ≤ rank ∨ !gs.all (fun g => x.seen.contains g) then r
  else
    let datas := gs.map (fun g => Tbl.look [] x.land g)
    let piece := (datas.map (msgLanes x.fmt x.bs)).flatten
    let ms := List.range r.c.desc.members.length
    let r := ms.foldl (fun r i => r.agmmMember rank piece (datas.any (·.isEmpty)) ecc residue i) r
    if ms.all (fun i => (r.x.usedBy i).contains rank) then
      { r with x := { r.x with land := r.x.land.filter (fun (e : Nat × List Byte) => !gs.contains e.1) } }
    else r

/-! ### Completion (R211, R229 to R234) -/

/-- The work of a collective of chapter 05 is done: every generation has passed and every copy has ended. -/
def Coll.worked (c : Comm) (x : Coll) : Bool :=
  x.seen.length == x.gens && x.flight.isEmpty && x.staged.isEmpty && (x.op != 6 || x.used.length == c.desc.nranks * c.desc.members.length) &&
  !(c.outs.any (fun o => o.own.kind == 2 && o.own.b == x.seq && o.own.c % 32 < 16))

/-- R230, R277: the status of a collective, DISP or COMB whose work is done; that of a DONE one launched again is OK (R547). -/
def Coll.status (x : Coll) : Nat :=
  match x.fin with
  | some v => v
  | none =>
    let wide := decide (0x10 ≤ x.op)
    if x.wasDone then 0
    else if x.poisonIn && !x.good then 0x03
    else if if wide then x.mems.any (fun a => a.bad != 0) else !x.badGens.isEmpty then (if wide then cTOKENERR else cCHUNKERR)
    else if !redOpc x.op && x.mems.any (fun a => a.dropped != 0) then cDROPPED
    else 0

/-- R230, R233: a member's own status. -/
def Coll.memStatus (x : Coll) (a : MemSt) : Nat :=
  match x.fin with
  | some v => v
  | none =>
    if a.bad ≠ 0 then (if 0x10 ≤ x.op then cTOKENERR else cCHUNKERR)
    else if !redOpc x.op && a.dropped != 0 then cDROPPED
    else 0

/-- R233: a member completion notice. -/
def Coll.noticeBytes (c : Comm) (x : Coll) (i : Nat) : List Byte :=
  let a := nth MemSt.fresh x.mems i
  leBytes 4 c.desc.id ++ leBytes 4 x.seq ++ leBytes 1 (x.memStatus a) ++ leBytes 1 (x.flags % 16) ++
  leBytes 2 (c.mem i).rank ++ leBytes 4 a.bad ++ leBytes 4 a.first ++ leBytes 4 a.dropped ++ leBytes 4 a.padded ++ leBytes 4 0

/-- R233: the notices of a collective go out; its local member needs none, and a DONE collective sends none (R547). One that ends
ISOLATED has no path to send any (R504, R509; log 64). One that
carries PAUSED cancels the credits that its member holds (R543). -/
def Run.notices (r : Run) : Run :=
  let x := { r.x with stage := 1 }
  let r := { r with x := x }
  r.c.members.foldl (fun r m =>
    if m.2.ep = 0xFF ∨ x.wasDone ∨ x.fin = some 0x04 then r.onMem m.1 (fun a => { a with notice := 2 })
    else
      let p := { r.s.toAddr r.c kNOTICE 3 x.home (r.s.memAddr r.c m.1) 0 x.seq 0 with flags := 3, payload := x.noticeBytes r.c m.1 }
      let r := r.onState (fun s => s.sendPkts (tileDie x.home) [(p, ⟨3, r.c.desc.id, x.seq, m.1⟩)])
      let r := if x.fin = some cPAUSED then { r with c := { r.c with memCred := Tbl.put m.1 0 r.c.memCred } } else r
      r.onMem m.1 (fun a => { a with notice := 1 })) r

/-- R279: the fields of a record at 0x140 for DISP and COMB. -/
def Coll.recordTail (x : Coll) : List Byte :=
  match x.disp, x.comb with
  | some d, _ =>
    let top := (d.selected.foldl (fun (m : Nat × Nat) e => if m.1 < e.2 then (e.2, e.1) else m) (0, 0))
    leBytes 8 (x.dAt 0 8) ++ leBytes 1 (d.slot.getD 0) ++ leBytes 1 (b2n d.paged) ++ leBytes 2 0 ++
    leBytes 4 (if d.valid then min d.drops.length (x.dAt 0x1C 4) else 0) ++ leBytes 4 top.1 ++ leBytes 2 top.2 ++ leBytes 2 0
  | none, some b =>
    leBytes 8 b.disp ++ leBytes 4 0 ++ leBytes 4 b.answers ++ leBytes 4 b.late ++ leBytes 4 0 ++ leBytes 4 b.stray
  | none, none => []

/-- R234, R279: the completion record. -/
def Run.recordBytes (r : Run) : List Byte :=
  let x := r.x
  let d := r.c.desc
  let ents := ((List.range d.members.length).map (fun i =>
    let a := nth MemSt.fresh x.mems i
    leBytes 2 (r.c.mem i).rank ++ leBytes 1 (r.c.mem i).ep ++ leBytes 1 (x.memStatus a) ++ leBytes 4 a.dropped ++
    leBytes 4 a.padded ++ leBytes 4 a.bad)).flatten
  let first := x.mems.foldl (fun m a => min m a.first) 0xFFFFFFFF
  let last := x.mems.foldl (fun m a => if a.last = 0xFFFFFFFF then m else if m = 0xFFFFFFFF then a.last else max m a.last) 0xFFFFFFFF
  let bads := if 0x10 ≤ x.op then (x.mems.map (·.bad)).foldl (satAdd 32) 0 else x.badGens.length
  let body := leBytes 4 d.id ++ leBytes 4 x.seq ++ leBytes 1 x.op ++ leBytes 1 x.status ++
    leBytes 1 (x.flags % 16 + 16 * b2n r.c.determ + 32 * b2n d.express) ++ leBytes 1 d.level ++
    leBytes 1 (x.fmt.code + 16 * x.red) ++ leBytes 1 d.members.length ++ leBytes 2 0 ++
    leBytes 8 x.start ++ leBytes 8 r.s.now ++ leBytes 4 (min x.gens (2 ^ 32 - 1)) ++ leBytes 4 (min bads (2 ^ 32 - 1)) ++
    leBytes 4 first ++ leBytes 4 last ++ leBytes 8 ((x.mems.map (·.dropped)).foldl (· + ·) 0) ++ leBytes 8 x.count ++
    ents ++ List.replicate (256 - ents.length) 0 ++ x.recordTail
  body ++ List.replicate (512 - body.length) 0

/-- The operation that holds a ticket entry of a tile, wherever it is. -/
def Tile.commOp (tl : Tile) (entry : Nat) : Option EngOp := (tl.memQ ++ tl.commRun).find? (fun o => o.entry == entry && o.cls == 5)

/-- R115, R202: the ranges that a launched operation accesses as the home tile's burin core would hold a hand-over of their plates
up until it completes. -/
def Run.usePlates (r : Run) (ranges : List (Nat × Nat)) : Run :=
  let ps := ranges.foldl (fun l a => (platesOf a.1 a.2).foldl (fun l q => addWord q l) l) []
  r.onState (fun s => s.updTile r.x.home (fun tl => { tl with
    commRun := tl.commRun.map (fun o => if o.entry == r.x.entry then { o with plates := ps.foldl (fun l q => addWord q l) o.plates } else o) }))

/-- A launched operation's ticket completes (R183, R233). -/
def State.endLaunch (s : State) (t entry status detail : Nat) : State :=
  match (s.tile t).commOp entry with
  | none => s
  | some op =>
    (s.tileStep t (fun tl => (tl.finish op ⟨status, detail, .none, [], [], [], none⟩).dropOp op.entry)).settlePlates

/-- R266, R269: what the end of a DISP or COMB does to answer areas. -/
def Comm.endAreas (c : Comm) (x : Coll) (status : Nat) : Comm :=
  match x.comb with
  | some b => { c with areas := c.areas.filter (fun a => a.seq != b.disp) }
  | none =>
    if x.disp.isNone then c
    else if status = 0 ∨ status = cDROPPED ∨ status = cTOKENERR then
      { c with areas := c.areas.map (fun a => if a.seq == x.seq then { a with ended := true, status := status } else a) }
    else { c with areas := c.areas.filter (fun a => a.seq != x.seq), failed := c.failed ++ [x.seq] }

/-- R540: operations that a pause may stop. -/
def pausable (op : Nat) : Bool := [0, 1, 2, 3, 4, 7].contains op

/-- R542: the numbers in a row that have completed here and that a pause would record as DONE, after one more. One that a pause
cannot record, or that did no work, ends the row. -/
def Comm.keepPast (c : Comm) (x : Coll) : List Coll :=
  if c.desc.express ∨ !pausable x.op ∨ x.fin.isSome then []
  else (c.past ++ [{ x with stage := 1, staged := [] }]).drop (c.past.length + 1 - 8)

/-- R233, R234, R264: the record of a collective is written, and the STATUS byte of a DISP's route header; its ticket completes,
and the next number is up; after the last PAUSED one, the lowest paused number is (R543). -/
def State.postRecord (s : State) (c : Comm) (x : Coll) : State × Comm :=
  let bytes := (Run.recordBytes ⟨s, c, x⟩)
  let s := if (x.disp.map (·.valid)).getD false then s.writeMem (x.dAt 0x20 8 + 0x1C) (leBytes 1 x.status) else s
  let s := s.writeMem (c.desc.record + x.seq % 8 * 512) bytes
  let s := s.endLaunch x.home x.entry x.status (x.seq % 8)
  let c := c.endAreas x x.status
  let ops := c.ops.filter (fun y => y.seq != x.seq)
  let c := { c with ops := ops, next := if x.seq = c.next then (x.seq + 1) % 2 ^ 32 else c.next }
  if x.status = cPAUSED then
    let barred := c.barred ++ [x.seq]
    (s, { c with barred := barred, next := if ops.any (fun y => y.fin == some cPAUSED) then c.next else nth 0 barred 0 })
  else (s, { c with past := c.keepPast x })

/-- R211, R231, R542: the collective whose turn it is to end: the next number's; in a FAULTED communicator, where a number that
was not launched never will be, and at the end of a pause, the earliest accepted one. -/
def Comm.nextUp (c : Comm) : Option Coll :=
  match c.coll c.next with
  | some x => some x
  | none =>
    if c.st = 3 ∨ c.ops.any (fun x => x.fin == some cPAUSED) then
      c.ops.foldl (fun (b : Option Coll) x =>
        match b with
        | none => some x
        | some y => if (x.seq + 2 ^ 32 - c.next) % 2 ^ 32 < (y.seq + 2 ^ 32 - c.next) % 2 ^ 32 then some x else some y) none
    else none

/-- R211, R233: the collectives of a communicator end in sequence order, `n` steps at most; `close` is what one
still writes when its work is done. -/
def State.finish (s : State) (c : Comm) (ready : Comm → Coll → Bool) (close : Run → Run) : Nat → State × Comm
  | 0 => (s, c)
  | n + 1 =>
    match c.nextUp with
    | none => (s, c)
    | some x =>
      if x.stage = 0 then
        if (x.fin.isSome || ready c x) && !c.paused then
          let r := (close ⟨s, c, x⟩).notices
          r.s.finish (r.c.setColl r.x) ready close n
        else (s, c)
      else if x.mems.all (fun a => a.notice == 2) then
        let r := s.postRecord c x
        r.1.finish r.2 ready close n
      else (s, c)

end Sys2Proof.Machine
end

