-- ==== Sys2Proof/Machine/Gate.lean ====
section
/-! DEFINITION. Gating matrices (R245 to R250, R281 to R285): the library, the slots and their commands; and the gate
values of R254 to R256. -/
namespace Sys2Proof.Machine

/-! ### Library entries (R245) -/

/-- A gate slot's working state. -/
def State.gate (s : State) (n : Nat) : GateSt := Tbl.look ⟨0, [], 0⟩ s.cs.gates n

/-- A gate slot's working state replaced. -/
def State.setGate (s : State) (n : Nat) (g : GateSt) : State := { s with cs := { s.cs with gates := Tbl.put n g s.cs.gates } }

/-- FMT, block size, E, K and plane sizes of a library entry's header. -/
def hdrFmt (h : List Byte) : Fmt := (Fmt.ofCode (leAt h 6 1)).getD .w32
/-- Block size along K. -/
def hdrBs (h : List Byte) : Nat := if leAt h 7 1 = 1 then 32 else 16
/-- Experts. -/
def hdrE (h : List Byte) : Nat := leAt h 0x10 2
/-- Token width. -/
def hdrK (h : List Byte) : Nat := leAt h 0x14 4
/-- ELEM_BYTES, SCALE_BYTES and BIAS_BYTES. -/
def hdrPlanes (h : List Byte) : Nat × Nat × Nat := (leAt h 0x18 4, leAt h 0x1C 4, leAt h 0x20 4)
/-- Bytes of the whole entry. -/
def hdrBytes (h : List Byte) : Nat := 0x40 + (hdrPlanes h).1 + (hdrPlanes h).2.1 + (hdrPlanes h).2.2

/-- R245: a header is well formed. -/
def hdrOk (h : List Byte) : Bool :=
  let code := leAt h 6 1
  let f := hdrFmt h
  let e := hdrE h
  let k := hdrK h
  leAt h 0 4 == 0x45544147 && leAt h 4 2 == 1 && decide (code ≤ 4) && decide (leAt h 7 1 ≤ 1) &&
  (code != 4 || leAt h 7 1 == 0) && decide (1 ≤ e) && decide (e ≤ 256) && zeroBytes h 0x12 2 &&
  (!f.isBlock || k % hdrBs h == 0) && decide (32 ≤ k) && decide (k ≤ 16384) &&
  (hdrPlanes h).1 == roundUp (e * k * f.bits / 8) 64 &&
  (hdrPlanes h).2.1 == (if f.isBlock then roundUp (e * k / hdrBs h) 64 else 0) &&
  ((hdrPlanes h).2.2 == 0 || (hdrPlanes h).2.2 == roundUp (e * 4) 64) && zeroBytes h 0x28 24

/-! ### Slots (R246 to R249) -/

/-- The address of a slot's copy in a plate (R284). -/
def State.slotAddr (s : State) (plate n : Nat) : Nat :=
  plateBase + (plate + 1) * plateSize - s.rd F.GLB_STAGE_POOL_PLATE_KIB [] * 1024 -
    (n + 1) * (s.rd F.GLB_GATE_POOL_SLOT_KIB [] * 1024)

/-- R283: a command of GLB_GATE_CMD ends. -/
def State.gateEnd (s : State) (result : Nat) : State :=
  (s.wr F.GLB_GATE_STATUS_LAST_RESULT [] result).wr F.GLB_GATE_STATUS_BUSY [] 0

/-- A slot becomes EMPTY. -/
def State.slotEmpty (s : State) (n : Nat) : State :=
  ((((s.wr F.GLB_GATE_SLOT_STATE [n] 0).wr F.GLB_GATE_SLOT_PIN [n] 0).wr F.GLB_GATE_SLOT_AUTO [n] 0).wr
    F.GLB_GATE_SLOT_USE [n] 0).wr F.GLB_GATE_ID_GATE_ID [n] 0

/-- R247, R283: what keeps an entry from being paged into a slot; the header as DDR5 holds it. For the page-in of a DISP a slot in
EVICTING does not hold its matrix (R249). -/
def State.entryVerdict (s : State) (addr : Nat) (byDisp : Bool) : Option Nat :=
  let h := s.mem.read addr 0x40
  if addr % 64 ≠ 0 then some 1
  else if s.rangeWin addr 0x40 ≠ some .ddr then some 5
  else if (wordsOf addr 0x40).any (fun w => s.memPoison.contains w) then some 5
  else if !hdrOk h then some 1
  else if s.rangeWin addr (hdrBytes h) ≠ some .ddr then some 5
  else if (List.range 16).any (fun n => s.rd F.GLB_GATE_SLOT_STATE [n] != 0 &&
      !(byDisp && s.rd F.GLB_GATE_SLOT_STATE [n] == 3) && s.rd F.GLB_GATE_ID_GATE_ID [n] == leAt h 8 8) then some 7
  else if s.rd F.GLB_GATE_POOL_SLOT_KIB [] * 1024 < hdrBytes h then some 3
  else none

/-- R248: a page-in into a slot begins. -/
def State.pageIn (s : State) (n addr : Nat) (auto_ : Bool) : State :=
  let h := s.mem.read addr 0x40
  let s := s.setGate n ⟨addr, h, 0⟩
  ((s.wr F.GLB_GATE_SLOT_STATE [n] 1).wr F.GLB_GATE_SLOT_AUTO [n] (b2n auto_)).wr F.GLB_GATE_ID_GATE_ID [n] (leAt h 8 8)

/-- R247: a slot in EVICTING that no DISP holds is EMPTY. -/
def State.evictDone (s : State) (n : Nat) : State :=
  if s.rd F.GLB_GATE_SLOT_STATE [n] = 3 ∧ s.rd F.GLB_GATE_SLOT_USE [n] = 0 then s.slotEmpty n else s

/-- R247, R281 to R283: GO of GLB_GATE_CMD. -/
def State.gateGo (s : State) : State :=
  let op := s.rd F.GLB_GATE_CMD_OP []
  let n := s.rd F.GLB_GATE_CMD_SLOT []
  let st := s.rd F.GLB_GATE_SLOT_STATE [n]
  if op = 0 then s
  else if 5 ≤ op then s.gateEnd 6
  else if s.rd F.GLB_GATE_POOL_SLOTS [] ≤ n then s.gateEnd 8
  else match op with
    | 1 =>
      if st ≠ 0 then s.gateEnd 4
      else
        let addr := s.rd F.GLB_GATE_SRC_ADDR []
        (match s.entryVerdict addr false with
         | some r => s.gateEnd r
         | none =>
           let s := s.pageIn n addr false
           ({ s with cs := { s.cs with loading := some n } }).wr F.GLB_GATE_STATUS_BUSY [] 1)
    | 2 => if st ≠ 2 then s.gateEnd 4 else ((s.wr F.GLB_GATE_SLOT_STATE [n] 3).evictDone n).gateEnd 0
    | 3 => if st ≠ 2 then s.gateEnd 4 else (s.wr F.GLB_GATE_SLOT_PIN [n] 1).gateEnd 0
    | _ => if st ≠ 2 then s.gateEnd 4 else (s.wr F.GLB_GATE_SLOT_PIN [n] 0).gateEnd 0

/-- R444, R453: the die whose datamover works for the machinery on a range of DDR5: that of its channel (log 67). -/
def machineDie (a : Nat) : Nat := (a - ddrBase) / ddrRange / 2 % 4

/-- R247, R248: a page-in ends with a result; with OK every plate holds the entry. -/
def State.pageInEnd (s : State) (n result : Nat) (entry : List Byte) : State :=
  let s :=
    if result ≠ 0 then s.slotEmpty n
    else ((List.range 64).foldl (fun (s : State) p => s.writeMem (s.slotAddr p n) entry) s).wr F.GLB_GATE_SLOT_STATE [n] 2
  let s := (s.cs.comms.map (·.1)).foldl (fun (s : State) id => s.owe (.advance id)) s
  if s.cs.loading = some n then ({ s with cs := { s.cs with loading := none } }).gateEnd result else s

/-- R247, R248: a page-in has read its entry, which is checked. A datamover that does not work reads none (R453). -/
def State.pageInDone (s : State) (n : Nat) (ecc : Ecc) : State :=
  if s.rd F.GLB_GATE_SLOT_STATE [n] ≠ 1 then s
  else if !s.machineUp (machineDie (s.gate n).src) then s.pageInEnd n 5 []
  else
    let g := s.gate n
    let len := hdrBytes g.hdr
    let r := s.readMem g.src len ecc
    let result := if !r.2.1.isEmpty then 5 else if !hdrOk r.1 ∨ r.1.take 0x40 ≠ g.hdr then 1
      else if crc32c (r.1.drop 0x40) ≠ leAt r.1 0x24 4 then 2 else 0
    r.2.2.pageInEnd n result r.1

/-- R249: the slot that holds or is paging a matrix. -/
def State.findGate (s : State) (id : Nat) : Option Nat :=
  (List.range 16).find? (fun n =>
    (s.rd F.GLB_GATE_SLOT_STATE [n] == 1 || s.rd F.GLB_GATE_SLOT_STATE [n] == 2) && s.rd F.GLB_GATE_ID_GATE_ID [n] == id)

/-- R249: the slot that an automatic page-in takes: the lowest EMPTY one, else the RESIDENT, unpinned and unheld one that
was released longest ago. -/
def State.autoSlot (s : State) : Option Nat :=
  let ns := List.range (min 16 (s.rd F.GLB_GATE_POOL_SLOTS []))
  match ns.find? (fun n => s.rd F.GLB_GATE_SLOT_STATE [n] == 0) with
  | some n => some n
  | none =>
    let free := ns.filter (fun n => s.rd F.GLB_GATE_SLOT_STATE [n] == 2 && s.rd F.GLB_GATE_SLOT_PIN [n] == 0 &&
      s.rd F.GLB_GATE_SLOT_USE [n] == 0)
    free.foldl (fun (b : Option Nat) n =>
      match b with | none => some n | some m => if (s.gate n).released < (s.gate m).released then some n else some m) none

/-- A DISP takes hold of a slot. -/
def State.holdGate (s : State) (n : Nat) : State := s.wr F.GLB_GATE_SLOT_USE [n] (s.rd F.GLB_GATE_SLOT_USE [n] + 1)

/-- R249: a DISP lets go of a slot. -/
def State.releaseGate (s : State) (n : Nat) : State :=
  let s := s.wr F.GLB_GATE_SLOT_USE [n] (s.rd F.GLB_GATE_SLOT_USE [n] - 1)
  (s.setGate n { s.gate n with released := s.now }).evictDone n

/-! ### Gate values (R254 to R256) -/

/-- LOG2E and LN2 as the W32 values that R256 gives, HALF, one. -/
def accLog2e : Acc := (decodeLane .w32 0x3FB8AA3B).1
/-- LN2. -/
def accLn2 : Acc := (decodeLane .w32 0x3F317218).1
/-- HALF. -/
def accHalf : Acc := Acc.exact false 1 (-1)
/-- One. -/
def accOne : Acc := Acc.exact false 1 0
/-- SIXTH: 1/6 to 34 significand bits by RNE: 2^36/6 = 11453246122.67, which lies between 2^33 and 2^34. -/
def accSixth : Acc := Acc.exact false 11453246123 (-36)

/-- The largest `r` with (2r - 1)^256 at most 2^(34 × 256 + i), from the high bit down. -/
def powSearch (i : Nat) : Nat → Nat → Nat
  | 0, r => r
  | k + 1, r =>
    let t := r + 2 ^ k
    powSearch i k (if (2 * t - 1) ^ 256 ≤ 2 ^ (34 * 256 + i) then t else r)

/-- POW2[i]: 2^(i/256) to 34 significand bits by RNE. -/
def accPow2 (i : Nat) : Acc := Acc.exact false (powSearch i 34 0) (-33)

/-- R256: gate_exp of a value that is not above zero. -/
def gateExp (d : Acc) : Acc × Flags :=
  if Acc.lt d (Acc.exact true 150 0) then (.zero false, .none)
  else match d with
    | .nan => (.nan, .none)
    | .inf _ => (.nan, .none)
    | _ =>
      let t := Acc.mul d accLog2e
      let nz : Int × Nat × Nat × Acc × Flags :=
        match t.1 with
        | .fin neg e s =>
          let sh := (33 - e).toNat
          let z : Int := if e > 33 then (s <<< (e - 33).toNat : Nat) else (s : Nat)
          let z := if neg then -z else z
          let den : Int := (2 ^ sh : Nat)
          let n := z / den
          let f := (z - n * den).toNat
          let i := f * 256 / 2 ^ sh
          let rem := f * 256 - i * 2 ^ sh
          let q := Acc.roundOdd false rem (-(sh : Int) - 8)
          (n, i, rem, if rem = 0 then .zero false else q.1, if rem = 0 then .none else q.2)
        | _ => (0, 0, 0, .zero false, .none)
      let r := Acc.mul nz.2.2.2.1 accLn2
      let rr := Acc.mul r.1 r.1
      let a := Acc.mul rr.1 accHalf
      let b := Acc.mul (Acc.mul rr.1 r.1).1 accSixth
      let p := Acc.add (Acc.add (Acc.add accOne r.1).1 a.1).1 b.1
      let v := Acc.mul (accPow2 nz.2.1) p.1
      (v.1.scale nz.1, (((t.2.join nz.2.2.2.2).join r.2).join p.2).join v.2)

/-- R256: the gate values of a token in accumulator form: logits by expert, selection in choice-rank order. -/
def gateValues (logits : List Acc) (sel : List Nat) (mode : Nat) : List Acc × Flags :=
  let lv (e : Nat) : Acc := nth .nan logits e
  if mode = 2 then (sel.map lv, .none)
  else
    let es := List.range logits.length
    let set := if mode = 0 then es.filter (fun e => sel.contains e) else es
    let m := match set with
      | [] => Acc.nan
      | e :: rest => rest.foldl (fun a x => Acc.max a (lv x)) (lv e)
    let w (e : Nat) : Acc × Flags := let d := Acc.sub (lv e) m; let g := gateExp d.1; (g.1, d.2.join g.2)
    let ws := set.map w
    let k := if mode = 0 then 3 else 8
    let sum := treeOf Acc.add k (if mode = 0 then ws.map (fun x => some x.1) ++ List.replicate (8 - ws.length) none
      else ws.map (fun x => some x.1) ++ List.replicate (256 - ws.length) none)
    let q := rcpAcc (sum.1.getD (.zero false))
    let gs := sel.map (fun e => Acc.mul (w e).1 q.1)
    (gs.map (·.1), gs.foldl (fun (fl : Flags) g => fl.join g.2)
      ((ws.foldl (fun (fl : Flags) x => fl.join x.2) sum.2).join q.2))

end Sys2Proof.Machine
end

