-- ==== Sys2Proof/Machine/Disp.lean ====
section
/-! DEFINITION. Routed dispatch and weighted combine (R240 to R279): launch checks, tokens, gating groups, placement,
copies, count words, the route region, answers and combined results. -/
namespace Sys2Proof.Machine

/-! ### The DISP descriptor (R242 to R266) -/

/-- Experts. -/
def Coll.dE (x : Coll) : Nat := x.dAt 0x10 2
/-- TOPK. -/
def Coll.dK (x : Coll) : Nat := x.dAt 0x12 1
/-- Format of answers. -/
def Coll.ansFmt (b : List Byte) : Fmt := (Fmt.ofCode (leAt b 0x15 1)).getD .w32
/-- Block size of answers. -/
def Coll.ansBs (b : List Byte) : Nat := if leAt b 0x16 1 = 1 then 32 else 16
/-- ANS_ELEMS. -/
def Coll.ansElems (b : List Byte) : Nat := leAt b 0x18 4

/-- Element and scale bytes of a row of elements. -/
def rowParts (f : Fmt) (bs n : Nat) : Nat × Nat := (ceilDiv (n * f.bits) 8, if f.isBlock then n / bs else 0)

/-- R244, R266, R273: a row's bytes with each plane rounded up to 64. -/
def rowRounded (f : Fmt) (bs n : Nat) : Nat := let p := rowParts f bs n; roundUp p.1 64 + roundUp p.2 64

/-- R266: ANS_BYTES. -/
def Coll.ansBytes (b : List Byte) : Nat := rowRounded (Coll.ansFmt b) (Coll.ansBs b) (Coll.ansElems b)

/-- An expert entry's fields. -/
def Coll.expAddr (x : Coll) (e : Nat) : Nat := x.dAt (0x40 + 32 * e) 2
/-- CAP. -/
def Coll.expCap (x : Coll) (e : Nat) : Nat := x.dAt (0x44 + 32 * e) 4

/-- SRC: the sources of a communicator (R243). -/
def Comm.sources (c : Comm) : Nat := c.desc.members.length

/-- R264: bytes of the route region. -/
def routeBytes (e tokens : Nat) : Nat := 0x40 + roundUp (4 * e) 64 + 32 * e + 64 * tokens

/-- R252: a DISP descriptor is valid. An empty drop list has its base in a window, too. -/
def State.dispOk (s : State) (c : Comm) (x : Coll) : Bool :=
  let e := x.dE
  let b := x.dbytes
  let n := c.sources * x.count
  decide (1 ≤ e) && decide (e ≤ 256) && decide (1 ≤ x.dK) && decide (x.dK ≤ 8) && decide (x.dK ≤ e) &&
  decide (x.dAt 0x13 1 ≤ 2) && decide (x.dAt 0x14 1 ≤ 1) &&
  (match Fmt.ofCode (x.dAt 0x15 1) with | some f => !f.isInt | none => false) && decide (x.dAt 0x16 1 ≤ 1) &&
  zeroBytes b 0x17 1 && decide (16 ≤ Coll.ansElems b) && decide (Coll.ansElems b ≤ 65536) &&
  (!(Coll.ansFmt b).isBlock || Coll.ansElems b % Coll.ansBs b == 0) && decide (x.dAt 0x1C 4 ≤ 2 ^ 24) &&
  x.dAt 0x20 8 % 64 == 0 && s.inDram (x.dAt 0x20 8) (routeBytes e n) &&
  x.dAt 0x28 8 % 64 == 0 && s.inDram (x.dAt 0x28 8) (8 * max 1 (x.dAt 0x1C 4)) && zeroBytes b 0x30 16 &&
  (List.range e).all (fun i => decide (x.expAddr i % 64 ≤ 15) && decide (x.expCap i ≤ 65536) && zeroBytes b (0x5C + 32 * i) 4)

/-- The DISP's working state. -/
def Coll.dispSt (x : Coll) : DispSt := x.disp.getD DispSt.fresh

/-- The DISP's working state changed. -/
def Run.onDisp (r : Run) (f : DispSt → DispSt) : Run := { r with x := { r.x with disp := some (f r.x.dispSt) } }

/-- The header of the matrix that a DISP uses. -/
def Run.hdr (r : Run) : List Byte := (r.s.gate (r.x.dispSt.slot.getD 0)).hdr

/-- Bytes of a communicator's quota that answer areas may take (R203, R266). -/
def Comm.areaRoom (c : Comm) : Nat :=
  c.desc.quota * 1024 - windowBytes c.desc - (c.areas.map (·.bytes)).foldl (· + ·) 0

/-- R249, R250, R241, R266: what a DISP does at launch once its descriptor is valid. While its slot is PAGING it waits, and holds
the slot only then. -/
def Run.dispBegin (r : Run) : Run :=
  let x := r.x
  let gid := x.dAt 0 8
  let lib := x.dAt 8 8
  let got : Option (Nat × Bool × Run) :=
    match r.s.findGate gid with
    | some n => some (n, false, r)
    | none =>
      if lib = 0 then none
      else match r.s.entryVerdict lib true, r.s.autoSlot with
        | none, some n =>
          if leAt (r.s.mem.read lib 0x40) 8 8 = gid then
            some (n, true, r.onState (fun s => (s.slotEmpty n).pageIn n lib true))
          else none
        | _, _ => none
  match got with
  | none => (r.onDisp (fun _ => { DispSt.fresh with valid := true })).fail 0x30
  | some (n, paged, r) =>
    let waits := r.s.rd F.GLB_GATE_SLOT_STATE [n] = 1
    let r := r.onDisp (fun _ => { DispSt.fresh with slot := some n, paged := paged, valid := true, waits := waits, holds := !waits })
    let r := if waits then r else r.onState (fun s => s.holdGate n)
    let h := r.hdr
    let f := hdrFmt h
    let free (r : Run) : Run :=
      (if waits then r else r.onState (fun s => s.releaseGate n)).onDisp (fun d => { d with waits := false, holds := false })
    let tok := rowParts x.fmt (hdrBs h) (hdrK h)
    if !pairOk x.fmt.code f.code ∨ hdrE h ≠ x.dE ∨ (x.dAt 0x14 1 = 1 ∧ (hdrPlanes h).2.2 = 0) then (free r).fail cBADDESC
    else if r.c.desc.chunk < tok.1 + tok.2 then (free r).fail cBADSHAPE
    else
      let bytes := ((List.range x.dE).map x.expCap).foldl (· + ·) 0 * Coll.ansBytes x.dbytes
      if r.c.areaRoom < bytes then (free r).fail 0x32
      else { r with c := { r.c with areas := r.c.areas ++ [⟨x.seq, bytes, x.dbytes, [], 0, false, [], 0⟩] } }

/-! ### Tokens (R242 to R244) -/

/-- The place of a member among the sources, and the member of a source. -/
def Comm.sourceOf (c : Comm) (m : Nat) : Nat := c.byRank.findIdx (fun i => i == m)

/-- R243: the member that a token index belongs to. -/
def Comm.tokenMem (c : Comm) (i : Nat) : Nat := nth 0 c.byRank (i % c.sources)

/-- R204: the plate part of the quota has room for one more message. -/
def Comm.plateRoom (c : Comm) : Bool :=
  let held (x : Coll) : Nat := (x.staged.filter (·.plate)).length + (x.dispSt.tokens.filter (fun (e : Nat × Tok) => e.2.plate)).length
  decide (((c.early.filter (·.plate)).length + (c.ops.map held).foldl (· + ·) 0 + 1) * footprint c.desc ≤ c.desc.plate * 1024)

/-- R242, R276: a source's token message is staged. One that is not at the source's next position, or beyond T, breaks the
obligation of R276: it is discarded with its credit returned, and counted. -/
def Run.tokenIn (r : Run) (st : Staged) : Run :=
  let x := r.x
  let i := st.chunk * r.c.sources + r.c.sourceOf st.who
  let h := r.hdr
  let want := rowParts x.fmt (hdrBs h) (hdrK h)
  if x.count ≤ st.chunk ∨ st.chunk ≠ Tbl.look 0 x.dispSt.arrived st.who then
    { r with c := { r.s.creditMember r.c x.home st.who true with uncredited := r.c.uncredited + 1 } }
  else
    let absent := st.data.isEmpty && !st.bad
    let bad := st.bad || (!absent && st.data.length != want.1 + want.2)
    let r := if absent then { r with c := r.s.creditMember r.c x.home st.who true } else r
    r.onDisp (fun d => { d with
      arrived := Tbl.put st.who (st.chunk + 1) d.arrived, tokens := Tbl.put i ⟨st.data, absent, bad, st.plate && !absent⟩ d.tokens })

/-- The tokens of a gating group (R253). -/
def Run.groupTokens (r : Run) (g : Nat) : List Nat :=
  ((List.range 16).map (· + 16 * g)).filter (fun i => decide (i < r.x.gens))

/-- R257: every selection of the previous DISP of the communicator is decided: every number below this one is launched, as it may
be a DISP's, and every DISP among them has decided. -/
def Run.previousDecided (r : Run) : Bool :=
  let before (seq : Nat) : Bool := decide ((seq + 2 ^ 32 - r.c.next) % 2 ^ 32 < (r.x.seq + 2 ^ 32 - r.c.next) % 2 ^ 32)
  (List.range ((r.x.seq + 2 ^ 32 - r.c.next) % 2 ^ 32)).all (fun i =>
    (r.c.coll ((r.c.next + i) % 2 ^ 32)).isSome || r.c.barred.contains ((r.c.next + i) % 2 ^ 32)) &&
  r.c.ops.all (fun y => y.op != 0x10 || !before y.seq || y.fin.isSome || y.dispSt.route.length == y.gens)

/-- R253, R257: a group's gating starts. -/
def Run.groupStart (r : Run) (g : Nat) : Run :=
  let x := r.x
  let d := x.dispSt
  let isl (i : Nat) : Bool := (r.c.mem (r.c.tokenMem i)).ep == 0xFF
  if x.live ∧ x.op = 0x10 ∧ 16 * g < x.gens ∧ d.holds ∧ r.s.unitFree (g % 64) ∧ !d.started.contains g ∧ r.previousDecided ∧
      (r.groupTokens g).all (fun i => isl i || (Tbl.find i d.tokens).isSome) then
    r.onDisp (fun d => { d with started := d.started ++ [g] })
  else r

/-- R242, R244: the token of an index: as it arrived, or the local member's row in memory. -/
def Run.tokenAt (r : Run) (i : Nat) (ecc : Ecc) : Tok × Run :=
  let x := r.x
  if (r.c.mem (r.c.tokenMem i)).ep = 0xFF then
    let h := r.hdr
    let parts := rowParts x.fmt (hdrBs h) (hdrK h)
    let row := rowRounded x.fmt (hdrBs h) (hdrK h)
    let q := r.s.readMem (x.sb + i / r.c.sources * row) row ecc
    (⟨q.1.take parts.1 ++ (q.1.drop (roundUp parts.1 64)).take parts.2,
      q.1.take 8 == List.replicate 8 0xFF, !q.2.1.isEmpty, false⟩, { r with s := q.2.2 })
  else (Tbl.look ⟨[], true, false, false⟩ x.dispSt.tokens i, r)

/-! ### Gating (R253 to R256) -/

/-- R254 to R256: the choices of a token, none when one of its logits is NaN, with the flags of the crosshatch unit, which
computes the logits, and of the hatch engine, which selects and forms the gate values (R280); `mat` is the slot's copy. -/
def Coll.gateToken (c : Comm) (x : Coll) (h mat : List Byte) (i : Nat) (tok : List Byte) :
    Option (List Choice) × Flags × Flags :=
  let f := hdrFmt h
  let bs := hdrBs h
  let k := hdrK h
  let pl := hdrPlanes h
  let row := msgLanes x.fmt bs tok
  let ls := (List.range x.dE).map (fun e =>
    let el := (List.range k).map (fun t => planeElem (mat.drop 0x40) f.bits (e * k + t))
    let sc := (List.range (k / bs)).map (fun t => (nth 0 mat (0x40 + pl.1 + e * (k / bs) + t)).toNat)
    let sum := sumInto (.zero false) (if f.isBlock then dotBlocks x.fmt f bs row el sc else dotW16 row el)
    let st := storeElem sum.1 .w32 Rnd.near
    ((decodeLane .w32 st.1).1, sum.2.join st.2))
  let fl := ls.foldl (fun (a : Flags) l => a.join l.2) Flags.none
  let logits := ls.map (·.1)
  if logits.any (fun l => l == .nan) then (none, fl.join Flags.INV, Flags.INV)
  else
    let vs := ((List.range x.dE).zip logits).map (fun p =>
      if x.dAt 0x14 1 = 1 then
        let b := decodeLane .w32 (leAt mat (0x40 + pl.1 + pl.2.1 + 4 * p.1) 4)
        let t := storeElem (Acc.add p.2 b.1).1 .w32 Rnd.near
        (p.1, Val.acc (decodeLane .w32 t.1).1, b.2.join ((Acc.add p.2 b.1).2.join t.2))
      else (p.1, Val.acc p.2, Flags.none))
    let sel := (topK x.dK (vs.map (fun v => (v.1, v.2.1)))).map (·.1)
    let gv := gateValues logits sel (x.dAt 0x13 1)
    let stored := ((List.range sel.length).zip gv.1).map (fun p =>
      storeElem p.2 .w32 ⟨(Mode.ofCode x.rm).getD .rne, 2, ⟨c.desc.seed, c.desc.id, i, p.1⟩⟩)
    let hf := stored.foldl (fun (a : Flags) v => a.join v.2) ((vs.foldl (fun (a : Flags) v => a.join v.2.2) Flags.none).join gv.2)
    (some ((sel.zip stored).map (fun p => ⟨p.1, 0, 0, p.2.1⟩)), fl, hf)

/-! ### Placement, copies and count words (R257 to R263) -/

/-- The choices of a token with no selection: ABSENT is 3, ERROR 4 (R264). -/
def noChoice (state : Nat) : List Choice := [⟨0, state, 0, 0⟩]

/-- A token's staging is freed: its credit goes back to its source (R262). -/
def Run.freeToken (r : Run) (i : Nat) : Run :=
  let r := { r with c := r.s.creditMember r.c r.x.home (r.c.tokenMem i) true }
  r.onDisp (fun d => { d with tokens := Tbl.del i d.tokens })

/-- R267, R278: a token is an error token of its source. -/
def Run.tokenError (r : Run) (i : Nat) : Run :=
  r.onMem (r.c.tokenMem i) (fun a => { a with
    bad := satAdd 32 a.bad 1, first := min a.first (i / r.c.sources),
    last := if a.last = 0xFFFFFFFF then i / r.c.sources else max a.last (i / r.c.sources) })

/-- R258 to R260: one choice counted against its expert's capacity. -/
def placeChoice (x : Coll) (i : Nat) (acc : DispSt × List Choice) (j : Nat) (ch : Choice) : DispSt × List Choice :=
  let d := acc.1
  let n := Tbl.look 0 d.placed ch.expert
  let d := { d with selected := Tbl.upd 0 ch.expert (· + 1) d.selected }
  if n < x.expCap ch.expert then
    ({ d with placed := Tbl.put ch.expert (n + 1) d.placed },
     acc.2 ++ [{ ch with state := 1, slot := n }])
  else ({ d with drops := d.drops ++ [(i, ch.expert, j)] }, acc.2 ++ [{ ch with state := 2 }])

/-- R260 to R262, R266: a gated token is decided: its choices are placed or dropped, and its copies leave. -/
def Run.decideToken (r : Run) (i : Nat) (chs : List Choice) : Run :=
  let x := r.x
  let st := (nth ⟨0, 0, 0, 0⟩ chs 0).state
  let gone (r : Run) : Run := r.onDisp (fun d => { d with gated := Tbl.del i d.gated, route := Tbl.put i chs d.route })
  if st = 3 then
    (gone r).onMem (r.c.tokenMem i) (fun a => { a with padded := satAdd 32 a.padded 1 })
  else if st = 4 then ((gone r).tokenError i).freeToken i
  else
    let o := ((List.range chs.length).zip chs).foldl (fun a p => placeChoice x i a p.1 p.2) (x.dispSt, [])
    let drops := (o.2.filter (fun ch => ch.state == 2)).length
    let tok := Tbl.look ⟨[], true, false, false⟩ x.dispSt.tokens i
    let n := (cutMessage tok.data).length
    let owed := ((List.range o.2.length).zip o.2).foldl (fun (t : Tbl Nat) p =>
      if p.2.state = 1 then Tbl.put (8 * i + p.1) n t else t) o.1.owed
    let r := r.onDisp (fun _ => { o.1 with gated := Tbl.del i o.1.gated, route := Tbl.put i o.2 o.1.route, owed := owed })
    let r := { r with x := { r.x with good := true } }
    let r := r.onMem (r.c.tokenMem i) (fun a => { a with dropped := satAdd 32 a.dropped drops })
    let c := ((List.range o.2.length).zip o.2).foldl (fun (c : Comm) p =>
      if p.2.state = 1 then
        let k := r.s.toAddr c kTOKEN 4 x.home (x.expAddr p.2.expert) i x.seq (p.2.slot + p.2.expert * 2 ^ 16 + p.1 * 2 ^ 24)
        c.post ⟨0, 0, 0, k, tok.data, ⟨4, c.desc.id, x.seq, 8 * i + p.1⟩⟩
      else c) r.c
    let c := { c with areas := c.areas.map (fun a => if a.seq == x.seq then { a with placed := o.1.placed } else a) }
    let r := { r with c := c }
    if o.2.any (fun ch => ch.state == 1) then r else r.freeToken i

/-- R258, R259: gated tokens are decided: in ascending token index when deterministic, else as they come; `n` at most. -/
def Run.decide_ (r : Run) : Nat → Run
  | 0 => r
  | n + 1 =>
    let d := r.x.dispSt
    let next := if r.c.determ then (Tbl.find d.route.length d.gated).map (fun ch => (d.route.length, ch)) else d.gated.head?
    match next with
    | none => r
    | some p => (r.decideToken p.1 p.2).decide_ n

/-- R263: count words of experts whose selections are decided and whose copies are acknowledged. -/
def Run.countWords (r : Run) : Run :=
  let x := r.x
  let d := x.dispSt
  if d.route.length ≠ x.gens ∨ d.slot.isNone ∨ d.waits ∨ !x.live then r
  else
    let busy := d.owed.map (fun (k : Nat × Nat) => (nth ⟨0, 0, 0, 0⟩ (Tbl.look [] d.route (k.1 / 8)) (k.1 % 8)).expert)
    ((List.range x.dE).filter (fun e => !d.words.contains e && !busy.contains e)).foldl (fun (r : Run) e =>
      let w := Tbl.look 0 d.placed e + (if d.drops.any (fun y => y.2.1 == e) then 2 ^ 31 else 0)
      let k := r.s.toAddr r.c kCOUNT 4 x.home (x.expAddr e) 0 x.seq (e * 2 ^ 16)
      let r := { r with c := r.c.post ⟨0, 0, 0, k, leBytes 4 w, ⟨5, r.c.desc.id, x.seq, e⟩⟩ }
      r.onDisp (fun d => { d with words := d.words ++ [e], wordsOut := d.wordsOut ++ [e] })) r

/-- R249: a DISP lets its slot go when its gating is done. -/
def Run.gateDone (r : Run) : Run :=
  let d := r.x.dispSt
  if d.holds && (r.x.fin.isSome || d.route.length + d.gated.length == r.x.gens) then
    (r.onState (fun s => s.releaseGate (d.slot.getD 0))).onDisp (fun d => { d with holds := false })
  else r

/-- R253, R278: the tokens of a group with the slot's copy, as the group's gating reads them. -/
def Run.groupReads (r : Run) (g : Nat) (ecc : Ecc) : (List Byte × Bool) × List (Nat × Tok) × Run :=
  let q := r.s.readMem (r.s.slotAddr (g % 64) (r.x.dispSt.slot.getD 0)) (hdrBytes r.hdr) ecc
  let ts := (r.groupTokens g).foldl (fun (a : List (Nat × Tok) × Run) i =>
    let p := a.2.tokenAt i ecc
    (a.1 ++ [(i, p.1)], p.2)) ([], { r with s := q.2.2 })
  ((q.1, !q.2.1.isEmpty), ts)

/-- R76, R280: whether the gating of a DISP makes additions on the hatch engine: of a bias, or for gate values of a softmax. -/
def Coll.gateAdds (x : Coll) : Bool := x.dAt 0x14 1 == 1 || x.dAt 0x13 1 != 2

/-- R253 to R261, R278: a group's logits are computed, its experts selected, its capacity decided. What the engines' checks find
stands before what the memories' do, as R502 orders them; the hatch engine's part of a group is one check (log 69). A group that
has started goes on while a self-test waits (R519). -/
def Run.groupDone (r : Run) (g : Nat) (ecc : Ecc) (residue : GateFound) : Run :=
  let t := g % 64
  if !r.x.live ∨ !r.x.dispSt.started.contains g ∨ !r.s.unitUp t ∨ !r.s.hatchUp t ∨ (r.groupTokens g).any (fun i =>
      (Tbl.find i r.x.dispSt.gated).isSome || (Tbl.find i r.x.dispSt.route).isSome) then r
  else
    let h := r.hdr
    let seen := (r.groupReads g ecc).2.1
    let work := (seen.filter (fun p => !p.2.absent && !p.2.bad)).length
    let n := work * hdrE h * (if (hdrFmt h).isBlock then hdrK h / hdrBs h else 1)
    let a := r.checked t false (if r.x.gateAdds && work != 0 then 1 else 0) residue.hatch
    let b := a.2.checked t true n residue.unit
    let q := b.2.groupReads g ecc
    let r := q.2.1.foldl (fun (r : Run) p =>
      if p.2.absent then r.onDisp (fun d => { d with gated := Tbl.put p.1 (noChoice 3) d.gated })
      else
        let r := r.onDisp (fun d => { d with tokens := Tbl.put p.1 p.2 d.tokens })
        if p.2.bad ∨ a.1 ∨ b.1 ∨ q.1.2 then
          { r with x := { r.x with poisonIn := r.x.poisonIn || p.2.bad || q.1.2 } }.onDisp
            (fun d => { d with gated := Tbl.put p.1 (noChoice 4) d.gated })
        else
          let v := r.x.gateToken r.c h q.1.1 p.1 p.2.data
          ((r.raiseAt t true v.2.1).raiseAt t false v.2.2).onDisp
            (fun d => { d with gated := Tbl.put p.1 (v.1.getD (noChoice 4)) d.gated })) q.2.2
    ((r.decide_ r.x.gens).countWords).gateDone

/-- R262, R263, R278: a packet of a copy or a count word of a DISP has been acknowledged, or cannot be delivered. A count word
that cannot be delivered stays unacknowledged. -/
def Run.dispReleased (r : Run) (o : Own) (status : Nat) : Run :=
  if o.kind = 5 then
    if status = 0 then r.onDisp (fun d => { d with wordsOut := d.wordsOut.filter (fun e => e != o.c) }) else r
  else match Tbl.find o.c r.x.dispSt.owed with
    | none => r
    | some left =>
      let i := o.c / 8
      let r := if status = 0 ∨ r.x.dispSt.lost.contains i then r
        else (r.tokenError i).onDisp (fun d => { d with lost := d.lost ++ [i] })
      if status = 0 ∧ 2 ≤ left then r.onDisp (fun d => { d with owed := Tbl.put o.c (left - 1) d.owed })
      else
        let r := r.onDisp (fun d => { d with owed := Tbl.del o.c d.owed })
        let r := if r.x.dispSt.owed.any (fun (k : Nat × Nat) => k.1 / 8 == i) then r else r.freeToken i
        r.countWords

/-! ### The route region (R264, R265, R267) -/

/-- R264: a token entry. -/
def routeEntry (chs : List Choice) : List Byte :=
  let bs := (chs.map (fun ch => leBytes 1 ch.expert ++ leBytes 1 ch.state ++ leBytes 2 ch.slot ++ leBytes 4 ch.gate)).flatten
  bs ++ List.replicate (64 - bs.length) 0

/-- R265: a drop list entry. -/
def dropEntry (d : Nat × Nat × Nat) : List Byte := leBytes 8 (d.1 + d.2.1 * 2 ^ 32 + d.2.2 * 2 ^ 40)

/-- R264, R265, R267: the route region and the drop list of a DISP that ends, as far as its tokens are decided; its STATUS is
written again with the record, as notices may still change it. -/
def Run.writeRoute (r : Run) : Run :=
  match r.x.disp with
  | none => r
  | some d =>
    if !d.valid then r
    else
      let x := r.x
      let e := x.dE
      let head := leBytes 4 x.seq ++ leBytes 4 x.gens ++ leBytes 4 x.count ++ leBytes 2 e ++ leBytes 1 x.dK ++
        leBytes 1 r.c.sources ++ leBytes 8 (x.dAt 0 8) ++ leBytes 4 (Coll.ansBytes x.dbytes) ++ leBytes 1 x.status
      let head := head ++ List.replicate (64 - head.length) 0
      let counts := ((List.range e).map (fun i => leBytes 4 (Tbl.look 0 d.selected i))).flatten
      let counts := counts ++ List.replicate (roundUp (4 * e) 64 - counts.length) 0
      let table := (x.dbytes.drop 0x40).take (32 * e)
      let ents := ((List.range x.gens).map (fun i => routeEntry (Tbl.look [] d.route i))).flatten
      let drops := ((d.drops.take (x.dAt 0x1C 4)).map dropEntry).flatten
      let r := r.onState (fun s => s.writeMem (x.dAt 0x20 8) (head ++ counts ++ table ++ ents))
      if drops.isEmpty then r else r.onState (fun s => s.writeMem (x.dAt 0x28 8) drops)

/-- R267: a DISP's work is done. -/
def Coll.dispWorked (_ : Comm) (x : Coll) : Bool :=
  let d := x.dispSt
  d.route.length == x.gens && d.words.length == x.dE && d.wordsOut.isEmpty && d.owed.isEmpty

/-! ### COMB (R268 to R275) -/

/-- The COMB's working state changed. -/
def Run.onComb (r : Run) (f : CombSt → CombSt) : Run := { r with x := { r.x with comb := r.x.comb.map f } }

/-- The answer area of a DISP. -/
def Comm.area (c : Comm) (seq : Nat) : Option Area := c.areas.find? (fun a => a.seq == seq)

/-- An answer area changed. -/
def Comm.onArea (c : Comm) (seq : Nat) (f : Area → Area) : Comm :=
  { c with areas := c.areas.map (fun a => if a.seq == seq then f a else a) }

/-- R264: the choices of a token entry's bytes. -/
def parseRoute (bs : List Byte) : List Choice :=
  ((List.range 8).map (fun j => ⟨leAt bs (8 * j) 1, leAt bs (8 * j + 1) 1, leAt bs (8 * j + 2) 2, leAt bs (8 * j + 4) 4⟩))

/-- R271: the combined result of a token's arrived answers: its row on the wire, with flags. -/
def Run.combineToken (r : Run) (a : Area) (i : Nat) (chs : List Choice) : List Byte × Flags :=
  let x := r.x
  let f := Coll.ansFmt a.desc
  let bs := Coll.ansBs a.desc
  let n := Coll.ansElems a.desc
  let cols := (List.range 8).map (fun j =>
    let ch := nth ⟨0, 0, 0, 0⟩ chs j
    if ch.state = 1 then
      some ((decodeLane .w32 ch.gate).1, msgLanes f bs (Tbl.look ([], true) a.got (ch.expert * 2 ^ 16 + ch.slot)).1)
    else none)
  let sums := (List.range n).map (fun t =>
    let terms := cols.map (fun col => col.map (fun p =>
      let d := decodeLane f (nth 0 p.2 t)
      let m := Acc.mul p.1 d.1
      (m.1, d.2.join m.2)))
    let fl := terms.foldl (fun (fl : Flags) y => match y with | some z => fl.join z.2 | none => fl) Flags.none
    let s := treeOf Acc.add 3 (terms.map (fun y => y.map (·.1)))
    (Val.acc (s.1.getD (.zero false)), fl.join s.2))
  let d := r.c.desc
  let out := storeChunk x.fmt x.bs ((Mode.ofCode x.rm).getD .rne) d.level d.seed d.id i (sums.map (·.1))
  (lanesMsg x.fmt x.bs out.1, sums.foldl (fun (fl : Flags) y => fl.join y.2) out.2)

/-- The tile whose hatch engine combines a token (log 63). -/
def combTile (i : Nat) : Nat := i % 64

/-- R271, R274, R278: tokens whose answers have all come are combined, each on a hatch engine that is free; one with a bad
answer is an error token, and so is one whose additions fail their checks; `residue` counts such mismatches in the first
token combined. -/
def Run.combTokens (r : Run) (residue : Nat) : Run :=
  match r.x.comb with
  | none => r
  | some b =>
    match r.c.area b.disp with
    | none => r
    | some a =>
      if !b.began then r
      else (b.route.foldl (fun (a' : Run × Nat) (e : Nat × List Choice) =>
        let r := a'.1
        if ((r.x.comb.map (fun b => (Tbl.find e.1 b.ready).isSome)).getD true) then a'
        else
          let st := (nth ⟨0, 0, 0, 0⟩ e.2 0).state
          let placed := e.2.filter (fun ch => ch.state == 1)
          let got := placed.map (fun ch => Tbl.find (ch.expert * 2 ^ 16 + ch.slot) a.got)
          let err (r : Run) : Run := (r.tokenError e.1).onComb (fun b => { b with ready := Tbl.put e.1 none b.ready })
          if st = 4 then (err r, a'.2)
          else if got.any (fun g => match g with | some y => y.2 | none => false) then
            (err { r with x := { r.x with poisonIn := true } }, a'.2)
          else if got.all (fun g => g.isSome) && r.s.hatchFree (combTile e.1) then
            let v := r.combineToken a e.1 e.2
            let k := (r.raiseAt (combTile e.1) false v.2).checked (combTile e.1) false (if placed.isEmpty then 0 else 1) a'.2
            if k.1 then (err k.2, 0)
            else ({ k.2 with x := { k.2.x with good := true } }.onComb (fun b => { b with ready := Tbl.put e.1 (some v.1) b.ready }),
              a'.2)
          else a') (r, residue)).1

/-- R273, R453: one source's results that are ready leave in ascending position, `n` at most. A row of the local source whose write
fails is an error token. -/
def Run.combSource (r : Run) (src : Nat) : Nat → Run
  | 0 => r
  | n + 1 =>
    match r.x.comb with
    | none => r
    | some b =>
      let p := Tbl.look 0 b.nextPos src
      if r.x.count ≤ p then r
      else match Tbl.find (p * r.c.sources + src) b.ready with
        | none => r
        | some res =>
          let x := r.x
          let m := nth 0 r.c.byRank src
          let r := r.onComb (fun b => { b with nextPos := Tbl.put src (p + 1) b.nextPos })
          let r := match res with
            | none => r
            | some data =>
              if (r.c.mem m).ep = 0xFF ∧ !r.localUp then r.tokenError (p * r.c.sources + src)
              else if (r.c.mem m).ep = 0xFF then
                let parts := rowParts x.fmt x.bs (msgElems x.fmt x.bs data.length)
                let base := x.sc + p * rowRounded x.fmt x.bs (msgElems x.fmt x.bs data.length)
                r.onState (fun s => (s.writeMem base (data.take parts.1)).writeMem (base + roundUp parts.1 64) (data.drop parts.1))
              else
                let k := r.s.toAddr r.c kCOMBINED 5 x.home (r.s.memAddr r.c m) p x.seq 0
                let r := { r with c := r.c.post ⟨0, 0, 0, k, data, ⟨6, r.c.desc.id, x.seq, 2 ^ 17 * src + p⟩⟩ }
                r.onComb (fun b => { b with owed := Tbl.put (2 ^ 17 * src + p) (cutMessage data).length b.owed })
          r.combSource src n

/-- R271 to R273: a COMB goes on as far as its answers let it. -/
def Run.combGo (r : Run) (residue : Nat) : Run :=
  let r := r.combTokens residue
  (List.range r.c.sources).foldl (fun (r : Run) src => r.combSource src r.x.count) r

/-- R273: the rows of a COMB's local source. -/
def Run.combRows (r : Run) (a : Area) : List (Nat × Nat) :=
  if r.c.localMem.isNone then [] else [(r.x.sc, rowRounded r.x.fmt r.x.bs (Coll.ansElems a.desc) * r.x.count)]

/-- R202: the end that accesses to ranges as the home tile's burin core would make them meet first: window, owner and closed
regions. -/
def Run.rangesVerdict (r : Run) (ranges : List (Nat × Nat)) : Option Nat :=
  ranges.findSome? (fun a => if a.2 = 0 then none else (r.s.rangeVerdict (.burin r.x.home) a.1 a.2).map (·.1))

/-- R269: a COMB whose DISP has completed starts work, or ends. It waits while that DISP's number has not completed. -/
def Run.combBegin (r : Run) : Run :=
  match r.x.comb with
  | none => r
  | some b =>
    if b.began ∨ !r.x.live ∨ (b.disp ≠ r.x.seq ∧ (b.disp + 2 ^ 32 - r.c.next) % 2 ^ 32 < 8) then r
    else if r.c.failed.contains b.disp then r.fail 0x01
    else
      let base := r.x.dAt 0 8
      match r.c.area b.disp with
      | none => r.fail 0x33
      | some a =>
        let q := r.s.readMem base 64 ⟨[], []⟩
        let r := { r with s := q.2.2 }
        let e := leAt q.1 0xC 2
        let n := r.c.sources * r.x.count
        let body := r.s.readMem (base + 0x40 + roundUp (4 * e) 64 + 32 * e) (64 * n) ⟨[], []⟩
        let r := { r with s := body.2.2 }
        if leAt q.1 0 4 ≠ b.disp ∨ leAt q.1 8 4 ≠ r.x.count ∨ !a.ended ∨
            (r.x.fmt.isBlock ∧ Coll.ansElems a.desc % r.x.bs ≠ 0) then r.fail 0x33
        else if !q.2.1.isEmpty ∨ !body.2.1.isEmpty then r.fail 0x03
        else match r.rangesVerdict (r.combRows a) with
          | some v => r.fail v
          | none =>
            let route := (List.range n).map (fun i => (i, parseRoute ((body.1.drop (64 * i)).take 64)))
            let r := route.foldl (fun (r : Run) (t : Nat × List Choice) =>
              r.onMem (r.c.tokenMem t.1) (fun m => { m with
                padded := satAdd 32 m.padded (if (nth ⟨0, 0, 0, 0⟩ t.2 0).state = 3 then 1 else 0),
                dropped := satAdd 32 m.dropped (t.2.filter (fun ch => ch.state == 2)).length })) r
            let r := r.onComb (fun b => { b with began := true, route := route, stray := a.stray, answers := a.got.length })
            (r.usePlates (r.combRows a)).combGo 0

/-- R270: an expert's answer is kept in its area, or discarded as STRAY or LATE. -/
def State.answerIn (s : State) (c : Comm) (st : Staged) (slot expert : Nat) : State :=
  let seq := st.seq
  let key := expert * 2 ^ 16 + slot
  let comb := c.ops.find? (fun y => match y.comb with | some b => b.disp == seq && b.began | none => false)
  match c.area seq with
  | none => s.setComm { c with uncredited := c.uncredited + 1 }
  | some a =>
    let want := let p := rowParts (Coll.ansFmt a.desc) (Coll.ansBs a.desc) (Coll.ansElems a.desc); p.1 + p.2
    let stray := decide (Tbl.look 0 a.placed expert ≤ slot) || (Tbl.find key a.got).isSome
    let late := match comb.bind (·.comb) with
      | some b => b.route.any (fun (e : Nat × List Choice) => Tbl.find e.1 b.ready == some none &&
          e.2.any (fun ch => ch.state == 1 && ch.expert == expert && ch.slot == slot))
      | none => false
    let count (f : CombSt → CombSt) (c : Comm) : Comm :=
      match comb with | some y => c.setColl { y with comb := y.comb.map f } | none => c
    if stray then
      s.setComm (count (fun b => { b with stray := satAdd 32 b.stray 1 }) (c.onArea seq (fun a => { a with stray := satAdd 32 a.stray 1 })))
    else if late then s.setComm (count (fun b => { b with late := satAdd 32 b.late 1 }) c)
    else
      let bad := st.bad || st.data.length != want
      let c := c.onArea seq (fun a => { a with got := Tbl.put key (st.data, bad) a.got })
      s.setComm (count (fun b => { b with answers := satAdd 32 b.answers 1 }) c)

/-- R275: a COMB's work is done. -/
def Coll.combWorked (c : Comm) (x : Coll) : Bool :=
  match x.comb with
  | none => false
  | some b => b.began && b.owed.isEmpty && (List.range c.sources).all (fun s => Tbl.look 0 b.nextPos s == x.count)

/-- R229, R274: answers that have not come when a COMB makes no progress: their tokens are error tokens; one whose tokens are all
decided ends with TIMEOUT. -/
def Run.combTimeout (r : Run) : Run :=
  match r.x.comb with
  | none => r
  | some b =>
    if !b.began ∨ b.route.all (fun (e : Nat × List Choice) => (Tbl.find e.1 b.ready).isSome) then r.fail 0x05
    else
      let r := b.route.foldl (fun (r : Run) (e : Nat × List Choice) =>
        if ((r.x.comb.map (fun b => (Tbl.find e.1 b.ready).isSome)).getD true) then r
        else (r.tokenError e.1).onComb (fun b => { b with ready := Tbl.put e.1 none b.ready })) r
      r.combGo 0

/-- R273, R275: a packet of a combined result has been acknowledged, or cannot be delivered. -/
def Run.combReleased (r : Run) (o : Own) (status : Nat) : Run :=
  match (r.x.comb.map (fun b => Tbl.find o.c b.owed)).getD none with
  | none => r
  | some left =>
    if status = 0 ∧ 2 ≤ left then r.onComb (fun b => { b with owed := Tbl.put o.c (left - 1) b.owed })
    else
      let r := if status = 0 then r else r.tokenError (o.c % 2 ^ 17 * r.c.sources + o.c / 2 ^ 17)
      r.onComb (fun b => { b with owed := Tbl.del o.c b.owed })

end Sys2Proof.Machine
end

