-- ==== Sys2Proof/Machine/Issue.lean ====
section
/-! DEFINITION. Issue of an instruction by a burin core (R84 to R94, R130 to R141, R608): fetch, the checks in their order,
and what scalar, branch, synchronise and ticketed instructions do when they issue. -/
namespace Sys2Proof.Machine

/-- The whole 128-bit word of an instruction (R130, R131). -/
def fullWord (cls opc : Nat) (w : BitVec 119) : BitVec 128 :=
  BitVec.ofNat 128 (w.toNat + (opc % 64) * 2 ^ 119 + (cls % 8) * 2 ^ 125)

/-- R134, R188: an illegal instruction: its thread faults, and the first one is recorded. -/
def State.illegal (s : State) (t n : Nat) (reason : Nat) : State :=
  let th := (s.tile t).thread n
  let s := s.tileStep t (fun tl => tl.setThread n (th.fault cILLEGAL))
  if s.on F.TILE_ILLEGAL_INFO_VALID [t] then s.wr F.TILE_ILLEGAL_INFO_OVERRUN [t] 1
  else
    let old := s.rawReg .tileIllegalInfo [t]
    let v := setFieldOf (setFieldOf (setFieldOf (setFieldOf old 0 8 reason) 16 7 n) 24 14 th.pc) 38 2 th.slot
    s.setRaw .tileIllegalInfo [t] (setFieldOf v 40 1 1)

/-- A thread faults with a cause other than ILLEGAL. -/
def State.threadFault (s : State) (t n cause : Nat) : State :=
  s.tileStep t (fun tl => tl.setThread n ((tl.thread n).fault cause))

/-- R89: every register named lies within the image's grant. -/
def grantOk (sl : ImageSlot) (cls opc : Nat) (w : BitVec 119) : Bool :=
  (opNames cls opc w).all (fun r => match r with
    | .v n => bitOf sl.vGrant n | .m n => bitOf sl.mGrant n | .t n => bitOf sl.tGrant n | .s _ => true)

/-- R93: the registers whose poison keeps an instruction from issuing. -/
def poisonStops (cls opc : Nat) (w : BitVec 119) : List Nat :=
  match cls with
  | 0 => if opc = 0x15 ∨ (0x20 ≤ opc ∧ opc ≠ 0x27) then scalarReads cls opc w else []
  | 6 => scalarReads cls opc w
  | _ => addrRegs cls opc w

/-- Whether a class's instructions return a ticket (R95). -/
def ticketed (cls : Nat) : Bool := decide (1 ≤ cls) && decide (cls ≤ 5)

/-- The second operand of the scalar form (R137). -/
def op2 (th : Thread) (w : BitVec 119) : Nat := if wI w then wImm64 w else th.sReg (wB w)

/-- The target of a branch that is taken (R139). -/
def branchTarget (opc : Nat) (w : BitVec 119) (th : Thread) : Option Nat :=
  let a := th.sReg (wA w)
  let b := th.sReg (wB w)
  let goes (c : Bool) : Option Nat := if c then some (wField w 0 14) else none
  match opc with
  | 0x20 => goes true
  | 0x21 => goes (a == b)
  | 0x22 => goes (a != b)
  | 0x23 => goes (decide (sextOf a 64 < sextOf b 64))
  | 0x24 => goes (decide (a < b))
  | 0x25 => goes (decide (sextOf b 64 ≤ sextOf a 64))
  | 0x26 => goes (decide (b ≤ a))
  | 0x27 => goes true
  | 0x28 => some a
  | _ => none

/-- R608: what the checks at issue decide. -/
inductive Check where
  | go
  | none
  | pcRange
  | wait (w : Waiting)
  | illegal (reason : Nat)
  | fault (cause : Nat)
  deriving DecidableEq, Repr

/-- R608, steps 2 to 7, for a word that is defined; `local_` when S[SB] of a collective or a DISP is read. -/
def checkWord (tl : Tile) (th : Thread) (n cls opc : Nat) (w : BitVec 119) (determ local_ : Bool) : Check :=
  let sl := tl.slot th.slot
  let pend := (scalarTouched cls opc w ++ (if local_ then memberReg cls opc w else [])).filter th.pending
  if !pend.isEmpty then .wait (.pend pend)
  else if ticketed cls && tl.queueFull (queueOf cls) then .wait (.queue (queueOf cls))
  else match wordReason cls opc sl.level determ w with
    | some r => .illegal r
    | none =>
      if !grantOk sl cls opc w then .fault cREGGRANT
      else if (poisonStops cls opc w).any th.poisoned then .fault cPOISONUSE
      else match valueReason cls opc w th.sReg with
        | some r => .illegal r
        | none =>
          if (match (if cls = 0 then branchTarget opc w th else none) with
              | some dest => decide (sl.codeSize ≤ dest) | none => false) then .fault cPCRANGE
          else if ticketed cls && (tl.freeEntry n).isNone then .fault cTICKETLIMIT
          else .go

/-- R202: a communicator has a local member on this switch. -/
def State.hasLocal (s : State) (id : Nat) : Bool :=
  match Tbl.find id s.cs.comms with
  | some c => c.desc.members.any (fun m => m.ep == 0xFF)
  | none => false

/-- R87, R139, R608: the thread's next word is fetched and checked against the instruction that is said to issue. -/
def State.issueCheck (s : State) (t n cls opc : Nat) (w : BitVec 119) : Check :=
  let tl := s.tile t
  let th := tl.thread n
  let sl := tl.slot th.slot
  if th.st ≠ .ready ∨ s.inReset 0 t then .none
  else if sl.codeSize ≤ th.pc then .pcRange
  else
    let word := Tbl.look (0 : BitVec 128) tl.istore (sl.base + th.pc)
    let fcls := fieldOf word.toNat 125 3
    let fopc := fieldOf word.toNat 119 6
    if fcls = 7 then .illegal 1
    else if !opDefined fcls fopc then .illegal 2
    else if word ≠ fullWord cls opc w then .none
    else checkWord tl th n cls opc w (s.on F.GLB_MODE_DETERM []) (s.hasLocal (fieldOf (th.sReg (wA w)) 0 20))

/-- R134, R608: an instruction issues, or what keeps it from issuing takes effect. -/
def State.issue (s : State) (t n cls opc : Nat) (w : BitVec 119) (go : State → State) : State :=
  match s.issueCheck t n cls opc w with
  | .none => s
  | .pcRange => s.threadFault t n cPCRANGE
  | .wait x => s.tileStep t (fun tl => tl.setThread n { tl.thread n with st := .blocked, waiting := x })
  | .illegal r => s.illegal t n r
  | .fault c => s.threadFault t n c
  | .go => go s

/-- The thread that issues changed, its program counter moved on (R130). -/
def State.stepThread (s : State) (t n : Nat) (f : Thread → Thread) : State :=
  s.tileStep t (fun tl => tl.setThread n (f { tl.thread n with pc := (tl.thread n).pc + 1 }))

/-- R93: a scalar result written; poison of a source register passes to the destination. -/
def Thread.writeFrom (th : Thread) (d v : Nat) (srcs : List Nat) : Thread :=
  let p := srcs.any th.poisoned
  let th := th.setS d v
  if p then th.poisonS d else th

/-- R138: a scalar operation that writes D from S[A] and op2. -/
def State.issueAlu (s : State) (t n opc : Nat) (w : BitVec 119) (f : Nat → Nat → Nat) : State :=
  s.issue t n 0 opc w (fun s =>
    s.stepThread t n (fun th => th.writeFrom (wD w) (f (th.sReg (wA w)) (op2 th w)) (scalarReads 0 opc w)))

/-- R138: a scalar operation that writes D from the tile or the device. -/
def State.issueRead (s : State) (t n opc : Nat) (w : BitVec 119) (v : State → Nat) : State :=
  s.issue t n 0 opc w (fun s => s.stepThread t n (fun th => th.setS (wD w) (v s)))

/-- R138, R139: a branch; BRL writes the address of the next instruction first. -/
def State.issueBranch (s : State) (t n opc : Nat) (w : BitVec 119) : State :=
  s.issue t n 0 opc w (fun s =>
    s.stepThread t n (fun th =>
      let here := th.pc - 1
      let th' := if opc = 0x27 then th.setS (wD w) (here + 1) else th
      match branchTarget opc w th with
      | some dest => { th' with pc := dest }
      | none => th'))

/-- R98 to R103, R112: a synchronise instruction: it completes at once or blocks its thread. -/
def State.issueSync (s : State) (t n opc : Nat) (w : BitVec 119) (f : Tile → Thread → Tile) : State :=
  s.issue t n 6 opc w (fun s =>
    s.tileStep t (fun tl => f tl { tl.thread n with pc := (tl.thread n).pc + 1 }))

/-- The values of the scalar operands of a ticketed instruction (R92). -/
def scalars (th : Thread) (cls opc : Nat) (w : BitVec 119) : Scal :=
  let bad := (dataRegs cls opc w).any th.poisoned
  match cls with
  | 3 => ⟨0, th.sReg (wSK w), 0, th.sReg (wXSB w), th.sReg (wXSC w), 0, 0, 0, [], bad, false⟩
  | 4 => ⟨if opc = 2 ∨ opc = 3 ∨ opc = 6 ∨ opc = 7 then th.sReg (wE w) else 0, 0, th.sReg (wB w), 0, th.sReg (wC w), 0, 0,
      th.sReg (wA w), [], bad, false⟩
  | 5 => ⟨0, 0, th.sReg (wA w), th.sReg (wB w), th.sReg (wC w), th.sReg (wE w), th.sReg (wF w), 0, [], bad,
      (memberReg cls opc w).any th.poisoned⟩
  | _ => ⟨th.sReg (wSS w), th.sReg (wSK w), 0, 0, 0, 0, 0, 0,
      if cls = 2 then (List.range 8).map (fun k => th.sReg ((wE w + k) % 32)) else [], bad, false⟩

/-- R80, R92, R94, R95, R132: a ticketed instruction issues: its operands are read, its ticket allocated and written to
D, its scalar result marked pending, and it joins its queue. `after` is what issue itself sets going. -/
def State.issueTicketed (s : State) (t n cls opc : Nat) (w : BitVec 119) (after : State → EngOp → State) : State :=
  s.issue t n cls opc w (fun s =>
    let tl := s.tile t
    let th := tl.thread n
    match tl.freeEntry n with
    | none => s
    | some e =>
      let op : EngOp := ⟨e, n, tl.nextOrd, cls, opc, w, scalars th cls opc w, s.rd F.TILE_SR_SEED_SEED [t],
        (tl.slot th.slot).level, s.on F.GLB_MODE_DETERM [], [], none⟩
      let tl := { tl.allocTicket e n cls with nextOrd := tl.nextOrd + 1 }
      let th := { th with pc := th.pc + 1 }.setS (wD w) (ticketValue e n (tl.ticket e).gen)
      let th := match opScalarDest cls opc w with | some r => th.setPend r true | none => th
      let s := s.updTile t (fun _ => (tl.setThread n th).enqueue op)
      (after s op).tileStep t id)

/-- R98: WAIT. -/
def syncWait (n : Nat) (w : BitVec 119) (tl : Tile) (th : Thread) : Tile :=
  match tl.namedTicket n (th.sReg (wA w)) with
  | none => tl.setThread n (th.setS (wD w) badTicket)
  | some e => tl.setThread n { th with st := .blocked, waiting := .wait (wD w) e }

/-- R99, R101: WAITANY. -/
def syncWaitAny (n : Nat) (w : BitVec 119) (tl : Tile) (th : Thread) : Tile :=
  if (tl.heldBy n).isEmpty then tl.setThread n (th.setS (wD w) badTicket)
  else tl.setThread n { th with st := .blocked, waiting := .waitAny (wD w) }

/-- R100: TEST. -/
def syncTest (n : Nat) (w : BitVec 119) (tl : Tile) (th : Thread) : Tile :=
  match tl.namedTicket n (th.sReg (wA w)) with
  | none => tl.setThread n (th.setS (wD w) badTicket)
  | some e => tl.setThread n (th.setS (wD w) (tl.waitWord e))

/-- R103: FENCE. -/
def syncFence (n : Nat) (tl : Tile) (th : Thread) : Tile :=
  tl.setThread n { th with st := .blocked, waiting := .fence (tl.heldBy n) }

/-- R121: HALT. -/
def syncHalt (n : Nat) (tl : Tile) (th : Thread) : Tile := tl.setThread n th.stop

/-- R113: the release count with UNSYNC and LATE. -/
def State.releaseWord (s : State) (late : Bool) : Nat :=
  s.now % 2 ^ 62 + b2n (!s.on F.GC_STATUS_SYNCED []) * 2 ^ 62 + b2n late * 2 ^ 63

/-- R112: LAUNCHAT. -/
def State.syncLaunch (s : State) (n : Nat) (w : BitVec 119) (tl : Tile) (th : Thread) : Tile :=
  let target := th.sReg (wA w)
  if target ≤ s.now then tl.setThread n (th.setS (wD w) (s.releaseWord true))
  else tl.setThread n { th with st := .blocked, waiting := .launch (wD w) target }

/-- R112, R113: a thread whose target the count has reached is released. -/
def State.launchRelease (s : State) (t n : Nat) : State :=
  let th := (s.tile t).thread n
  match th.st, th.waiting with
  | .blocked, .launch d target =>
    if target ≤ s.now then
      s.tileStep t (fun tl => tl.setThread n ({ th with st := .ready, waiting := .nothing }.setS d (s.releaseWord false)))
    else s
  | _, _ => s

/-- R90: the operation that an engine starts next: the head of the hatch or crosshatch queue if nothing holds it, the
oldest memory or communicate operation that nothing holds. `shut` tells what a low state keeps from starting. -/
def Tile.nextOp (tl : Tile) (engine : Nat) (shut : EngOp → Bool) : Option EngOp :=
  let free (op : EngOp) : Bool := !tl.holds op && !shut op
  match engine with
  | 0 => (match tl.hatchQ with | op :: _ => if free op then some op else none | [] => none)
  | 1 => (match tl.xhQ with | op :: _ => if free op then some op else none | [] => none)
  | _ => tl.memQ.find? free

end Sys2Proof.Machine
end

