-- ==== Sys2Proof/Machine/CollOps.lean ====
section
/-! DEFINITION. Launch and matching (R207 to R211), messages of communicators as they arrive, what goes on after each of
them, and the ends that timeouts and lost members bring (R229, R516). -/
namespace Sys2Proof.Machine

/-! ### What goes on -/

/-- R249: a DISP that waits for a page-in holds its slot once it is RESIDENT, and ends when the page-in has failed. -/
def Run.gateHold (r : Run) : Run :=
  let d := r.x.dispSt
  if r.x.op ≠ 0x10 ∨ !d.waits then r
  else if !r.x.live then r.onDisp (fun d => { d with waits := false })
  else
    let n := d.slot.getD 0
    match r.s.rd F.GLB_GATE_SLOT_STATE [n] with
    | 0 => (r.onDisp (fun d => { d with waits := false })).fail 0x30
    | 2 => (r.onState (fun s => s.holdGate n)).onDisp (fun d => { d with waits := false, holds := true })
    | _ => r

/-- R206, R249, R263, R269: a collective, DISP or COMB is given what it may do now; `residue` as in `Run.combTokens`. -/
def Run.goOn (r : Run) (residue : Nat) : Run :=
  let r := r.gateHold
  if r.x.op = 0x10 then r.countWords.gateDone else if r.x.op = 0x11 then r.combBegin.combGo residue else r

/-- R233, R267, R275: an operation's work is done. -/
def opWorked (c : Comm) (x : Coll) : Bool :=
  if x.op = 0x10 then x.dispWorked c else if x.op = 0x11 then x.combWorked c else x.worked c

/-- R556: a command of GLB_PAUSE_CMD ends; OPS and BYTES show what it saved or loaded. -/
def State.pauseEnd (s : State) (result ops bytes : Nat) : State :=
  let s := { s with cs := { s.cs with pausing := none } }
  (((s.wr F.GLB_PAUSE_STATUS_LAST_RESULT [] result).wr F.GLB_PAUSE_STATUS_BUSY [] 0).wr F.GLB_PAUSE_STATUS_OPS [] ops).wr
    F.GLB_PAUSE_STATUS_BYTES [] (bytes / 64)

/-- R542, R545: an area is left without a valid CRC: where a record of an earlier save would stand, its CRC is made wrong. -/
def State.spoilRecord (s : State) (a : Nat) : State :=
  let n := leAt (s.mem.read (a + 0x20) 8) 0 8
  if a % 64 ≠ 0 ∨ n < 0x2C ∨ s.rangeWin a n ≠ some .ddr then s
  else
    let b := s.mem.read a n
    s.writeMem (a + 0x28) (leBytes 4 (2 ^ 32 - 1 - crc32c (b.take 0x28 ++ leBytes 4 0 ++ b.drop 0x2C)))

/-- R542: a communicator-level status ends a pause that has not saved. -/
def State.pauseFails (s : State) (c : Comm) : State × Comm :=
  match c.pause with
  | some p => if c.st = 3 then ((s.spoilRecord p.area).pauseEnd 8 0 0, { c with pause := none }) else (s, c)
  | none => (s, c)

/-- What may go on in a communicator after an event: its operations, its waiting messages, its completions. -/
def State.advanceWith (s : State) (id : Nat) (residue : Nat) : State :=
  s.onComm id (fun s c =>
    let p := s.pauseFails c
    let p := (p.2.ops.map (·.seq)).foldl (fun (a : State × Comm) seq =>
      match a.2.coll seq with
      | none => a
      | some x => let r := Run.goOn ⟨a.1, a.2, x⟩ residue; (r.s, r.c.setColl r.x)) p
    let p := p.1.flush p.2
    let n := p.2.ops.length
    let p := p.1.finish p.2 opWorked Run.writeRoute (2 * n + 2)
    let p := p.1.flush p.2
    let s := p.1.setComm p.2
    if p.2.ops.length < n then s.owe (.advance id) else s)

/-- As above, where the event brings no mismatch of a residue check. -/
def State.advanceComm (s : State) (id : Nat) : State := s.advanceWith id 0

/-- An event of one collective, and what goes on after it. -/
def State.collStep (s : State) (id seq : Nat) (f : Run → Run) : State := (s.withColl id seq f).advanceComm id

/-! ### Launch (R207 to R209, R240 to R252, R268) -/

/-- Bytes of an operation's descriptor, E first for a DISP. -/
def descSize (op e : Nat) : Nat :=
  if op = 6 then 288 else if op = 7 then 80 else if op = 0x10 then 0x40 + 32 * e else if op = 0x11 then 64 else 0

/-- An operation's descriptor read at launch; poisoned words end it with DATA_POISONED. A COMB names its DISP once the word that
holds DISP_SEQ could be read. -/
def Run.readDesc (r : Run) : Run :=
  let x := r.x
  let op := x.op
  if descSize op 1 = 0 then r
  else if x.sf % 64 ≠ 0 ∨ (r.s.rangeWin x.sf 64).isNone then r.fail cBADDESC
  else
    let n := descSize op (leAt (r.s.mem.read (x.sf + 0x10) 2) 0 2)
    if (r.s.rangeWin x.sf n).isNone then r.fail cBADDESC
    else
      let q := r.s.readMem x.sf n ⟨[], []⟩
      let named := decide (op = 0x11) && !q.2.1.contains ((x.sf + 8) / 8)
      let r := { r with s := q.2.2, x := { x with
        dbytes := q.1, comb := if named then some (CombSt.fresh (leAt q.1 8 4)) else none } }
      if q.2.1.isEmpty then r else r.fail 0x03

/-- R202: what the local member's addresses name: what is read at S[SB], what is written at S[SC], at S[SF] for the
count array of A2AV (R222), and behind GATHER_OFS for the gathered tensor of AGMM (R224). A COMB's rows are known when it
starts work (`Run.combRows`). -/
def Run.localRanges (r : Run) : List (Nat × Nat) :=
  let x := r.x
  let n := r.c.desc.nranks
  let tensor (k : Nat) : Nat := tensorBytes x.fmt x.bs k
  match r.c.localMem with
  | none => []
  | some m =>
    let root := decide ((r.c.mem m).rank = x.root)
    match x.op with
    | 3 => if root then [(x.sb, tensor x.count), (x.sc, tensor x.count)] else [(x.sc, tensor x.count)]
    | 4 => (x.sb, tensor x.count) :: (if root then [(x.sc, tensor x.count)] else [])
    | 5 => [(x.sb, tensor (n * x.count)), (x.sc, tensor (n * x.count)), (x.sf, 4 * n)]
    | 6 => [(x.sb, tensor x.count), (x.sc, tensorBytes x.outFmt x.bs (x.rows * x.nCols))] ++
        (if bitOf (x.dAt 3 1) 0 then [(x.localBase, tensor (x.resultElems r.c))] else [])
    | 0x10 => [(x.sb, rowRounded x.fmt (hdrBs r.hdr) (hdrK r.hdr) * x.count)]
    | 0x11 => []
    | _ => [(x.sb, tensor x.count), (x.sc, tensor (x.resultElems r.c))]

/-- R207, R212, R215, R220, R223, R240 to R242: shapes that end an operation with BAD_SHAPE. -/
def Run.shapeBad (r : Run) (code : Nat) : Bool :=
  let x := r.x
  let c := r.c
  let n := c.desc.nranks
  let blk := x.fmt.isBlock
  (c.desc.express && !([0, 2, 3, 4, 7].contains x.op)) || levelLacks c.desc.level code ||
  (decide (0x10 ≤ x.op) && (c.desc.level == 1 || x.count == 0 || decide (65536 < x.count))) ||
  (decide (x.op < 0x10) && x.count == 0) || (decide (x.op < 0x10) && blk && x.count % x.bs != 0) ||
  (x.op == 1 && (x.count % n != 0 || (blk && x.count / n % 32 != 0))) ||
  ((x.op == 2 || x.op == 5) && decide (c.desc.slot < x.count)) ||
  ((x.op == 3 || x.op == 4) && decide (n ≤ x.root)) ||
  (decide (x.op < 0x10) && decide (2 ^ 32 < x.per c))

/-- A collective as it is launched. -/
def Comm.newColl (c : Comm) (t : Nat) (op : EngOp) (now seq : Nat) : Coll :=
  let f := (Fmt.ofCode (wFA op.w)).getD .w32
  let cnt := op.sc.se
  { seq := seq, op := op.opc, fmt := f, red := wRED op.w, rm := wRM op.w, count := cnt,
    root := if op.opc = 3 ∨ op.opc = 4 then op.sc.sf else 0, home := t, entry := op.entry,
    sb := op.sc.sb, sc := op.sc.sc, sf := op.sc.sf, start := now,
    gens := if 0x10 ≤ op.opc then c.sources * cnt else c.gensOf op.opc f cnt, dbytes := [], fin := none,
    poisonIn := false, good := false, stage := 0, staged := [], ended := [], held := [], blocks := [], parts := [], upDone := [], seen := [],
    badGens := [], flight := [], acked := [], spoiled := [], mems := List.replicate c.desc.members.length MemSt.fresh, flags := 0,
    land := [], used := [], y := [], disp := if op.opc = 0x10 then some DispSt.fresh else none, comb := none,
    resumed := false, wasDone := false }

/-- R207, R210, R215 to R228, R240 to R252, R268: the checks of an operation that has taken its place. Its descriptor is read
first, so that its end knows what it names (R266, R279); of the statuses that R230 ranks alike, BAD_SHAPE comes before
BAD_DESCRIPTOR (DESIGN CHOICE, log 69). -/
def Run.launchChecks (r : Run) (code : Nat) : Run :=
  let r := r.readDesc
  if r.x.fin = some 0x03 then r
  else if r.shapeBad code then ({ r with x := { r.x with fin := none } }).fail cBADSHAPE
  else if r.x.fin.isSome then r
  else
    let r := match r.x.op with
      | 6 => if !r.x.agmmOk r.c then r.fail cBADDESC
        else if r.x.count ≠ r.x.rows * r.x.kPiece ∨ (r.x.fmt.isBlock ∧ r.x.count % r.x.bs ≠ 0) then r.fail cBADSHAPE else r
      | 7 => if !r.s.arapOk r.c r.x then r.fail cBADDESC
        else if r.x.opFmt.isBlock ∧ r.x.count % 32 ≠ 0 then r.fail cBADSHAPE else r
      | 0x10 => if r.s.dispOk r.c r.x then r.dispBegin else r.fail cBADDESC
      | 0x11 => if zeroBytes r.x.dbytes 0xC 52 then r else r.fail cBADDESC
      | _ => r
    if r.x.fin.isSome then r
    else match r.rangesVerdict r.localRanges with
      | some v => r.fail v
      | none => r.usePlates r.localRanges

/-- A staged message reaches its collective (R209); one that has ended discards it and returns its credit. What a member sends for
an operation of the other kind is discarded and counted (R276); another switch that sends for one has launched another OP (R210). -/
def Run.take (r : Run) (st : Staged) : Run :=
  let back : Run := { r with c := r.s.creditBack r.c r.x.home st }
  let wide := decide (0x10 ≤ r.x.op)
  if !r.x.live then back
  else if st.kind = kCONTRIB then
    (if wide then { back with c := { back.c with uncredited := back.c.uncredited + 1 } } else r.contrib st)
  else if st.kind = kTOKEN then
    (if r.x.op = 0x10 then r.tokenIn st else { back with c := { back.c with uncredited := back.c.uncredited + 1 } })
  else if wide then back.fail cMISMATCH
  else if st.kind = kPARTIAL then r.partialIn st
  else r.resultIn st

/-- R547: the saved state of a paused number taken up by its second launch; a difference ends it with MISMATCH. -/
def Run.resume (r : Run) (old : Coll) (outs : List Outgo) : Run :=
  let x := r.x
  if old.op ≠ x.op ∨ old.fmt ≠ x.fmt ∨ old.red ≠ x.red ∨ old.rm ≠ x.rm ∨ old.count ≠ x.count then r.fail cMISMATCH
  else
    let home (o : Outgo) : Outgo :=
      let dst := if o.level = 0 then r.s.memAddr r.c (o.own.c % 32)
        else ringAddr (nth 0 (r.c.lv o.level).ids o.base.dst) x.home
      { o with base := { o.base with
        dst := dst, src := r.s.ownAddr (tileDie x.home) 1, comm := r.c.desc.id, tile := if o.level = 0 then 0 else x.home % 16 } }
    let outs := outs.map home
    let out2 := outs.filter (fun o => o.level == 0)
    { r with
      c := { r.c with outs := r.c.outs ++ outs },
      x := { old with
        home := x.home, entry := x.entry, sb := x.sb, sc := x.sc, sf := x.sf, start := x.start, dbytes := x.dbytes,
        fin := none, stage := 0, resumed := true,
        flight := out2.map (fun o => (o.own.c % 32, o.own.c / 32, (cutMessage o.data).length)) } }

/-- R207 to R209, R508: a launch: its place in the sequence, its checks, and the messages that came before it. While the
communicate path of its tile's die is in reset it ends with ISOLATED and takes no place (log 64). -/
def State.launch (s : State) (t : Nat) (op : EngOp) : State :=
  let id := fieldOf op.sc.sa 0 20
  let seq := fieldOf op.sc.sa 20 32
  let ends (status : Nat) : State := s.endLaunch t op.entry status (if status = 0x01 then 0 else seq % 8)
  if s.inReset 5 (tileDie t) then ends 0x04
  else if op.sc.bad || (op.sc.sbBad && s.hasLocal id) then ends 0x01
  else match s.comm id with
    | none => ends 0x20
    | some c =>
      if c.st = 3 then ends 0x29
      else if c.st ≠ 2 then ends 0x20
      else if 8 ≤ (seq + 2 ^ 32 - c.next) % 2 ^ 32 ∨ (c.coll seq).isSome ∨ c.barred.contains seq then ends 0x21
      else
        let x := c.newColl t op s.now seq
        let early := c.early.filter (fun st => st.seq == seq)
        let old := c.saved.find? (fun p => p.1.seq == seq)
        let c := { c with
          ops := c.ops ++ [x], early := c.early.filter (fun st => st.seq != seq),
          saved := c.saved.filter (fun p => p.1.seq != seq) }
        let r := Run.launchChecks ⟨s, c, x⟩ (wFA op.w)
        let r := match old with | some p => if r.x.fin.isSome then r else r.resume p.1 p.2 | none => r
        let r := early.foldl (fun (r : Run) st => r.take st) r
        (r.s.setComm (r.c.setColl r.x)).owe (.advance id)

/-! ### Messages in (R199 to R213, R242, R270, R305) -/

/-- Who sent a packet of a communicator: a member entry, or a position in a level's group. -/
def State.senderOf (s : State) (c : Comm) (p : Pkt) : Option Nat :=
  if p.kind = kCONTRIB ∨ p.kind = kTOKEN then
    if p.src / 64 = s.switchId then (c.members.find? (fun m => m.2.ep == p.src % 64)).map (·.1) else none
  else
    let ids := (c.lv (p.arg % 4)).ids
    if p.arg % 4 = 0 then none else (List.range ids.length).find? (fun q => nth 1024 ids q == p.src / 64)

/-- A whole message as staging takes it. -/
def stagedOf (p : Pkt) (who : Nat) (agree : Bool) : Staged :=
  let ring := p.kind == kPARTIAL || p.kind == kRESULT
  ⟨p.opseq, p.chunk, p.kind, if ring then p.arg % 4 else 0, if ring then p.arg / 4 % 2 else 0, who, p.src, p.payload, p.poison,
    agree, p.aflags, false⟩

/-- R105, R291: a packet joins its message; the message once it is whole. -/
def Comm.assemble (c : Comm) (p : Pkt) (who : Nat) (agree : Bool) : Comm × Option Staged :=
  let old := c.asm.find? (fun e => e.1 == p.key)
  let st := match old with
    | some e => if p.pktIdx = 0 then stagedOf p who agree
        else { e.2 with data := e.2.data ++ p.payload, bad := e.2.bad || p.poison, agree := e.2.agree && agree }
    | none => stagedOf p who agree
  let rest := c.asm.filter (fun e => !(e.1 == p.key))
  if p.pktIdx = p.msgLast then ({ c with asm := rest }, some st) else ({ c with asm := (p.key, st) :: rest }, none)

/-- R200, R201, R204, R209, R542: a whole message is staged against its credit, in the plate part of the quota while that has
room, held for its launch, or discarded. -/
def State.stageIn (s : State) (c : Comm) (st : Staged) : State :=
  let member := st.kind == kCONTRIB || st.kind == kTOKEN
  let n := Tbl.look 0 c.memCred st.who
  let saving := match c.pause with | some p => p.savedAt.isSome | none => false
  if saving && member then s.setComm c
  else if member && n == 0 then s.setComm { c with uncredited := c.uncredited + 1 }
  else
    let c := if member then { c with memCred := Tbl.put st.who (n - 1) c.memCred } else c
    let st := { st with plate := c.plateRoom }
    match c.coll st.seq with
    | some x =>
      let r := Run.take ⟨s, c, x⟩ st
      (r.s.setComm (r.c.setColl r.x)).advanceComm c.desc.id
    | none =>
      if (st.seq + 2 ^ 32 - c.next) % 2 ^ 32 < 8 then s.setComm { c with early := c.early ++ [st] }
      else
        (s.setComm (s.creditBack c 16 st)).advanceComm c.desc.id

/-- A packet of a communicator at an internal endpoint; `agree` tells whether the sender's launch has the same parameters as this
switch's, of which the header shows EXPRESS alone (R210, R289; log 33); `residue` counts the mismatches that the combining
of what an answer completes meets by itself (R76). -/
def State.collIn (s : State) (t : Nat) (p : Pkt) (agree : Bool) (residue : Nat) : State :=
  let s := s.performed t p
  s.onComm p.comm (fun s c =>
    if c.st ≠ 2 ∧ c.st ≠ 3 then s
    else if p.kind = kANSWER then
      let a := c.assemble p 16 true
      (match a.2 with
       | none => s.setComm a.1
       | some st => (s.answerIn a.1 st (p.arg % 2 ^ 16) (p.arg / 2 ^ 16 % 256)).advanceWith p.comm residue)
    else match s.senderOf c p with
      | none => if p.kind = kCONTRIB ∨ p.kind = kTOKEN then s.setComm { c with uncredited := c.uncredited + 1 } else s
      | some who =>
        let ring := p.kind == kPARTIAL || p.kind == kRESULT
        let a := c.assemble p who (agree && (!ring || bitOf p.arg 3 == c.desc.express))
        match a.2 with
        | none => s.setComm a.1
        | some st => s.stageIn a.1 st)

/-! ### What the fabric gives back (R233, R262, R273) -/

/-- R232, R302: a RESULT copy for another switch cannot be delivered: the generation is an error for the members behind it, and
that switch hears so by a poisoned copy, once. -/
def Run.copyLost (r : Run) (o : Own) : Run :=
  let g := o.c / 32
  let tag := o.c % 32
  let l := (tag - 16) / 4
  let k := tag % 4
  if r.x.spoiled.contains o.c then r
  else
    let v := r.c.lv l
    let q := if r.c.desc.express then nth 0 (treeKids v.size v.pos) k else ringNext v.size (k % 2) v.pos
    let c := r.resultCopy r.c g [] true 0 l (if r.c.desc.express then 0 else k % 2) q k
    { r with c := c, x := { r.x with spoiled := r.x.spoiled ++ [o.c] } }

/-- R232, R302: a PARTIAL cannot be delivered: its generation has no value, which a poisoned partial in its place tells the
switches above, once. -/
def Run.partialLost (r : Run) (o : Own) : Run :=
  let key := o.c * 32 + 31
  if r.x.spoiled.contains key then r
  else
    let l := o.c / 32 % 4
    let dir := o.c / 16 % 2
    let k := r.s.toSwitch r.c kPARTIAL 2 r.x.home (nth 0 (r.c.lv l).ids (o.c % 16)) (o.c / 128) r.x.seq
      (l + 4 * dir + 8 * b2n r.c.desc.express)
    { r with
      c := r.c.post ⟨l, dir, 0, { k with flags := k.flags + 8 }, [], ⟨7, o.a, o.b, o.c⟩⟩,
      x := { r.x with spoiled := r.x.spoiled ++ [key] } }

/-- A result copy's retention has ended (R232, R233). -/
def Run.copyReleased (r : Run) (o : Own) (status : Nat) : Run :=
  let i := o.c % 32
  let g := o.c / 32
  if 16 ≤ i then (if status = 0 then r else r.copyLost o)
  else
    let mine (f : Nat × Nat × Nat) : Bool := f.1 == i && f.2.1 == g
    match r.x.flight.find? mine with
    | none => r
    | some f =>
      let rest := r.x.flight.filter (fun f => !mine f)
      if status ≠ 0 then ({ r with x := { r.x with flight := rest } }).badFor i g
      else if f.2.2 ≤ 1 then { r with x := { r.x with flight := rest, acked := r.x.acked ++ [16 * g + i] } }
      else { r with x := { r.x with flight := (i, g, f.2.2 - 1) :: rest } }

/-- The retention of a packet of a communicator has ended, with status 0 when it was acknowledged. -/
def State.collReleased (s : State) (o : Own) (status : Nat) : State :=
  s.collStep o.a o.b (fun r =>
    match o.kind with
    | 2 => r.copyReleased o status
    | 3 => if status = 0 then r.onMem o.c (fun m => { m with notice := 2 }) else r
    | 4 => r.dispReleased o status
    | 5 => r.dispReleased o status
    | 6 => r.combReleased o status
    | 7 => if status = 0 then r else r.partialLost o
    | _ => r)

/-! ### Staging found corrupt (R498, R518) -/

/-- R518: the copies of a generation that still wait to be sent to members cannot be sent intact: the generation ends at those
members, who receive nothing further of it. -/
def Run.spoilCopies (r : Run) (g : Nat) : Run :=
  let mine (o : Outgo) : Bool := o.own.kind == 2 && o.own.b == r.x.seq && o.own.c / 32 == g && decide (o.own.c % 32 < 16)
  let ms := (r.c.outs.filter mine).map (fun o => o.own.c % 32)
  let r : Run := { r with
    c := { r.c with outs := r.c.outs.filter (fun o => !mine o) },
    x := { r.x with flight := r.x.flight.filter (fun f => !(f.2.1 == g && ms.contains f.1)) } }
  ms.foldl (fun r m => r.badFor m g) r

/-- R305, R518: the data of a message that waits to leave is found poisoned: a member's result copy is not sent, any other
message carries POISON; what stood for a value of a step is empty then. -/
def State.spoilOut (s : State) (c : Comm) (i : Nat) : Comm :=
  match c.outs[i]? with
  | none => c
  | some o =>
    let marked : Outgo := { o with
      base := { o.base with flags := o.base.flags ||| 8 }, data := if o.own.kind = 2 ∨ o.own.kind = 7 then [] else o.data }
    match o.own.kind, c.coll o.own.b with
    | 2, some x =>
      if o.own.c % 32 < 16 then let r := Run.spoilCopies ⟨s, c, x⟩ (o.own.c / 32); r.c.setColl r.x
      else { c with outs := modNth c.outs i (fun _ => marked) }
    | _, _ => { c with outs := modNth c.outs i (fun _ => marked) }

/-- The messages that a communicator has in staging on this switch, each with what becomes of it when its data is found
poisoned. -/
def State.spoils (s : State) (c : Comm) : List (Comm → Comm) :=
  let hurt (st : Staged) : Staged := { st with bad := true }
  (List.range c.early.length).map (fun i (c : Comm) => { c with early := modNth c.early i hurt }) ++
  (List.range c.asm.length).map (fun i (c : Comm) => { c with asm := modNth c.asm i (fun e => (e.1, hurt e.2)) }) ++
  (c.ops.map (fun x =>
    (List.range x.staged.length).map (fun i (c : Comm) => c.setColl { x with staged := modNth x.staged i hurt }) ++
    x.dispSt.tokens.map (fun (e : Nat × Tok) (c : Comm) =>
      c.setColl { x with disp := x.disp.map (fun d => { d with tokens := Tbl.put e.1 { e.2 with bad := true } d.tokens }) }))).flatten ++
  ((List.range c.outs.length).filter (fun i => match c.outs[i]? with | some o => !o.data.isEmpty | none => false)).map
    (fun i (c : Comm) => s.spoilOut c i)

/-- R498, checker 0x10: a word of a communicator's staging is uncorrectable; which of its messages it belongs to is a free value
(log 64). -/
def State.stagingBad (s : State) (id : Nat) : State :=
  s.onComm id (fun s c =>
    let d := s.draw
    let fs := s.spoils c
    if fs.isEmpty then s
    else (d.2.setComm (nth (fun c => c) fs (d.1.toNat % fs.length) c)).advanceComm id)

/-! ### Timeouts and lost members (R229, R516) -/

/-- R229, R233: notices that are never acknowledged are given up; the operation ends with TIMEOUT unless a
communicator-level status stands already, or it was cancelled (log 34). -/
def Run.giveUpNotices (r : Run) : Run :=
  let give (m : MemSt) : MemSt := { m with notice := 2 }
  let r := { r with x := { r.x with mems := r.x.mems.map give } }
  if (match r.x.fin with | some v => commLevel v || v == 0x01 | none => false) then r
  else
    let r := ({ r with x := { r.x with fin := none, stage := 0 } }).fail 0x05
    { r with x := { r.x with stage := 1 } }

/-- R229, R239, R274: an operation makes no progress for LIMIT. One that has its status and waits for its turn keeps it (R231). -/
def State.collTimeout (s : State) (id seq : Nat) : State :=
  if s.rd F.GLB_COMM_TIMEOUT_LIMIT [] = 0 then s
  else s.collStep id seq (fun r =>
    if r.x.stage = 1 then r.giveUpNotices else if r.x.fin.isSome then r else if r.x.op = 0x11 then r.combTimeout else r.fail 0x05)

/-- R516: one operation of a communicator ends with MEMBER_LOST. -/
def State.memberLost (s : State) (id seq : Nat) : State :=
  s.collStep id seq (fun r => if r.x.live then r.fail cMEMBERLOST else r)

/-- R516: the earliest operation of a communicator that satisfies a test ends with MEMBER_LOST. -/
def State.loseFirst (s : State) (c : Comm) (p : Coll → Bool) : State :=
  match c.ops.find? (fun x => x.live && p x) with
  | none => s
  | some x => s.memberLost c.desc.id x.seq

/-- R516: a DISP or COMB has an expert on an accelerator port of this switch. -/
def State.expertOn (s : State) (c : Comm) (x : Coll) (port : Nat) : Bool :=
  let hit (b : List Byte) : Bool := (List.range (leAt b 0x10 2)).any (fun e => leAt b (0x40 + 32 * e) 2 == s.switchId * 64 + port)
  if x.op = 0x10 then hit x.dbytes
  else match x.comb.bind (fun b => c.area b.disp) with
    | some a => hit a.desc
    | none => false

/-- R516: an accelerator port has gone down: operations with a member or an expert there end. -/
def State.accPortLost (s : State) (port : Nat) : State :=
  (s.cs.comms.map (·.1)).foldl (fun (s : State) id =>
    match s.comm id with
    | none => s
    | some c =>
      let isMember := c.members.any (fun m => m.2.ep == port)
      s.loseFirst c (fun x => isMember || s.expertOn c x port)) s

/-- R515, R516: switches of the rack absent in this switch's Z ring view: operations of communicators whose level groups name one
end. -/
def State.ringViewLost (s : State) : State :=
  let absent (id : Nat) : Bool := id / 16 == s.switchId / 16 && !s.zSees (id % 16)
  (s.cs.comms.map (·.1)).foldl (fun (s : State) id =>
    match s.comm id with
    | none => s
    | some c => s.loseFirst c (fun _ => c.peers.any (fun p => absent p.2))) s

/-- R231, R504, R509: outstanding operations that satisfy a test end with ISOLATED, those that wait for their notices with the rest;
their communicators are FAULTED, and the later operations that were accepted are cancelled. -/
def State.isolateColls (s : State) (p : Coll → Bool) : State :=
  (s.cs.comms.map (·.1)).foldl (fun (s : State) id =>
    match s.comm id with
    | none => s
    | some c =>
      match c.ops.filter p with
      | [] => s
      | y :: ys =>
        let dist (x : Coll) : Nat := (x.seq + 2 ^ 32 - c.next) % 2 ^ 32
        let first := ys.foldl (fun n x => min n (dist x)) (dist y)
        let end_ (x : Coll) : Coll :=
          if p x then { x with fin := some 0x04, mems := x.mems.map (fun m => { m with notice := 2 }) }
          else if first < dist x ∧ x.stage = 0 then { x with fin := some 0x01 } else x
        (s.setComm { c with st := 3, ops := c.ops.map end_ }).advanceComm id) s

/-! ### Work of the device's machinery on a tile (R552) -/

/-- R552: work of a collective, DISP or COMB that waits for or runs on the hatch engine of a tile. -/
def Coll.onHatch (c : Comm) (x : Coll) (t : Nat) : Bool :=
  x.live &&
  ((redOpc x.op && ((x.parts.map (·.gen) ++ (x.staged.map (·.chunk))).any (fun g =>
      chunkTile g == t || (List.range 4).any (fun d => dieTile d g == t)))) ||
   (x.op == 0x10 && x.dispSt.started.any (fun g => g % 64 == t && ((List.range 16).any (fun k =>
      decide (16 * g + k < x.gens) && (Tbl.find (16 * g + k) x.dispSt.route).isNone)))) ||
   (match x.comb with
    | some b => decide (c.sources * x.count ≠ b.ready.length) &&
        b.route.any (fun (e : Nat × List Choice) => combTile e.1 == t && (Tbl.find e.1 b.ready).isNone)
    | none => false))

/-- R253: the gating of a group of a DISP runs on a tile. -/
def Coll.gating (x : Coll) (t : Nat) : Bool :=
  x.live && x.op == 0x10 && x.dispSt.started.any (fun g => g % 64 == t && ((List.range 16).any (fun k =>
    decide (16 * g + k < x.gens) && (Tbl.find (16 * g + k) x.dispSt.gated).isNone && (Tbl.find (16 * g + k) x.dispSt.route).isNone)))

/-- R519: machinery work runs on a tile: the gating of a group that has started. -/
def State.gatingOn (s : State) (t : Nat) : Bool := s.cs.comms.any (fun (e : Nat × Comm) => e.2.ops.any (fun x => x.gating t))

/-- R552: gating or AGMM work that waits for or runs on the crosshatch unit of a tile. -/
def Coll.onUnit (c : Comm) (x : Coll) (t : Nat) : Bool :=
  x.live &&
  (x.gating t ||
   (x.op == 6 && (List.range c.desc.members.length).any (fun i =>
      x.matTile i == t && decide ((x.usedBy i).length < c.desc.nranks))))

/-- R552: machinery work is assigned to the hatch engine, or to the crosshatch unit, of a tile. -/
def State.assigned (s : State) (unit : Bool) (t : Nat) : Bool :=
  s.cs.comms.any (fun (e : Nat × Comm) => e.2.ops.any (fun x => if unit then x.onUnit e.2 t else x.onHatch e.2 t))

end Sys2Proof.Machine
end

