-- ==== Sys2Proof/Machine/Eth.lean ====
section
/-! DEFINITION. Uplinks in Ethernet mode (R404 to R410, R416 to R418). -/
namespace Sys2Proof.Machine

/-- Ethernet port states (R417). -/
def eOFF : Nat := 0
/-- R417. -/
def eAN : Nat := 1
/-- R417. -/
def eTRAINING : Nat := 2
/-- R417. -/
def eALIGN : Nat := 3
/-- R417. -/
def eUP : Nat := 4
/-- R417. -/
def eFAULT : Nat := 5

/-- An Ethernet port's state. -/
def State.ethState (s : State) (e : Nat) : Nat := s.rd F.LINK_ETH_STATUS_STATE [e]

/-- The uplink of an Ethernet port (R404). -/
def ethUplink (e : Nat) : Nat := 24 + e / 2

/-- An Ethernet port's priorities. -/
def State.ethPort (s : State) (e : Nat) : EthPort := Tbl.look ⟨0, 0⟩ s.fab.eth e

/-- An Ethernet port's priorities changed. -/
def State.updEth (s : State) (e : Nat) (f : EthPort → EthPort) : State :=
  { s with fab := { s.fab with eth := Tbl.upd ⟨0, 0⟩ e f s.fab.eth } }

/-- R417: RT_PORT of an uplink in Ethernet mode follows its two Ethernet ports. -/
def State.uplinkFollow (s : State) (p : Nat) : State :=
  if s.fabricPort p then s
  else
    let a := s.ethState (2 * (p - 24))
    let b := s.ethState (2 * (p - 24) + 1)
    s.setPort p (if a = eUP ∨ b = eUP then pUP else if a = eOFF ∧ b = eOFF then pOFF else pTRAINING) 0

/-- The lanes of an Ethernet port (R404). -/
def ethLanes (e : Nat) : List Nat := (List.range 8).map (· + 8 * ethTile e)

/-- R417: an Ethernet port's state changes; an event follows; its lanes and its uplink follow it. PCS_LOCK and FEC_ALIGN both
hold in UP and neither in OFF and AN; in between each is what the line gives, which a read draws (log 10). -/
def State.setEth (s : State) (e st : Nat) : State :=
  if s.ethState e = st then s
  else
    let s := (s.wr F.LINK_ETH_STATUS_STATE [e] st).stickEv F.LINK_ETH_STATUS_CHANGED [e]
    let up := b2n (decide (st = eUP))
    let s := (s.wr F.LINK_ETH_STATUS_PCS_LOCK [e] up).wr F.LINK_ETH_STATUS_FEC_ALIGN [e] up
    let s := (ethLanes e).foldl (fun s l =>
      s.setLane l (if st = eOFF ∨ !s.on F.LANE_CTRL_EN [l] then 0 else if st = eUP then 2 else 1)) s
    let s := if st = eUP then s else s.updEth e (fun _ => ⟨0, 0⟩)
    s.uplinkFollow (ethUplink e)

/-- Whether an Ethernet port may run: enabled, its uplink in Ethernet mode, its switch's ports in service. -/
def State.ethMayRun (s : State) (e : Nat) : Bool :=
  s.on F.LINK_ETH_CFG_EN [e] && !s.fabricPort (ethUplink e) && !s.roleIdles (ethUplink e)

/-- R417: the port waits for PCS lock and FEC alignment. -/
def State.ethAlign (s : State) (e : Nat) : State := s.setEth e eALIGN

/-- R417: link training when LT_EN is 1. -/
def State.ethTrain (s : State) (e : Nat) : State :=
  if s.on F.LINK_ETH_CFG_LT_EN [e] then s.setEth e eTRAINING else s.ethAlign e

/-- R417: a port starts from auto-negotiation, when AN_EN is 1, or is OFF. -/
def State.ethStart (s : State) (e : Nat) : State :=
  if !s.ethMayRun e then s.setEth e eOFF
  else if s.on F.LINK_ETH_CFG_AN_EN [e] then s.setEth e eAN
  else s.ethTrain e

/-- R417: auto-negotiation ends. -/
def State.ethAnDone (s : State) (e : Nat) (common : Bool) : State :=
  if s.ethState e ≠ eAN then s
  else if common then ((s.wr F.LINK_ETH_STATUS_AN_DONE [e] 1).wr F.LINK_ETH_STATUS_AN_FAIL [e] 0).ethTrain e
  else (s.wr F.LINK_ETH_STATUS_AN_DONE [e] 0).wr F.LINK_ETH_STATUS_AN_FAIL [e] 1

/-- R417: after AN_FAIL negotiation starts again, in state AN. AN_FAIL and AN_DONE tell of the last negotiation that has
ended, and stand until the next one ends. -/
def State.ethAnRetry (s : State) (e : Nat) : State :=
  if s.ethState e = eAN ∧ s.on F.LINK_ETH_STATUS_AN_FAIL [e] then s.setEth e eAN else s

/-- R417: link training ends. -/
def State.ethLtDone (s : State) (e : Nat) : State := if s.ethState e = eTRAINING then s.ethAlign e else s

/-- R417: lock and alignment hold; what waited for the port is offered. -/
def State.ethLock (s : State) (e : Nat) : State :=
  if s.ethState e = eALIGN then (s.setEth e eUP).owe .retryAll else s

/-- R417: an UP port has lost lock or alignment for 10 µs. -/
def State.ethLoss (s : State) (e : Nat) : State :=
  if s.ethState e = eUP then
    let n := s.rd F.LINK_ETH_STATUS_DOWN_COUNT [e]
    (s.wr F.LINK_ETH_STATUS_DOWN_COUNT [e] (satAdd 16 n 1)).setEth e eFAULT
  else s

/-- R417: a port in FAULT starts again. -/
def State.ethRestart (s : State) (e : Nat) : State := if s.ethState e = eFAULT then s.ethStart e else s

/-- R416: a write of LINK_ETH_CFG: EN at once, the rest only while the port is OFF. -/
def State.ethCfgWrite (s : State) (e v : Nat) : State :=
  let was := s.on F.LINK_ETH_CFG_EN [e]
  let s := if s.ethState e = eOFF then s.swWrite .linkEthCfg [e] v else s.wr F.LINK_ETH_CFG_EN [e] (fieldOf v 50 1)
  let now := s.on F.LINK_ETH_CFG_EN [e]
  if now = was then s else if now then (if s.ethState e = eOFF then s.ethStart e else s) else s.setEth e eOFF

/-- R416: a write of another Ethernet register takes effect only while the port is OFF. -/
def State.ethRegWrite (s : State) (r : RegName) (e v : Nat) : State :=
  if s.ethState e = eOFF then s.swWrite r [e] v else s

/-- R414: a write of LINK_PORT_CFG: MODE of an uplink while the port is OFF; RETRAIN retrains. -/
def State.portCfgWrite (s : State) (p v : Nat) : State :=
  let mode := s.rd F.LINK_PORT_CFG_MODE [p]
  let s := s.swWrite .linkPortCfg [p] v
  let s := if p < 24 then s.wr F.LINK_PORT_CFG_MODE [p] 0
    else if s.portState p = pOFF ∧ fieldOf v 6 1 ≠ mode then
      (let s := s.wr F.LINK_PORT_CFG_MODE [p] (fieldOf v 6 1)
       if fieldOf v 6 1 = 1 then (s.ethStart (2 * (p - 24))).ethStart (2 * (p - 24) + 1)
       else if s.sys.fwRuns then s.startTraining p else s)
    else s.wr F.LINK_PORT_CFG_MODE [p] mode
  if bitOf v 7 then (if s.fabricPort p then s.retrain p else s) else s

/-! ### Frames received (R405, R406, R408, R409) -/

/-- The ones'-complement sum of 16-bit big-endian words (R408: the UDP checksum). -/
def onesSum : List Byte → Nat
  | [] => 0
  | [a] => 256 * a.toNat
  | a :: b :: t => 256 * a.toNat + b.toNat + onesSum t

/-- A sum folded to 16 bits. -/
def fold16 (n : Nat) : Nat :=
  let a := n % 65536 + n / 65536
  let b := a % 65536 + a / 65536
  b % 65536 + b / 65536

/-- R408: the UDP checksum of an IPv6 datagram is non-zero and correct. -/
def udpOk (d : List Byte) : Bool :=
  let udp := d.drop 40
  let pseudo := (d.drop 8).take 32 ++ beBytes 4 udp.length ++ beBytes 4 17
  beAt udp 6 2 != 0 && fold16 (onesSum pseudo + onesSum udp) == 0xFFFF

/-- R409: the serving header of a request is valid; `len` is the UDP length. -/
def serveOk (h : List Byte) (len : Nat) : Bool :=
  decide (32 ≤ h.length) && beAt h 0 2 == 0x5356 && leAt h 2 1 == 1 && fieldOf (leAt h 3 1) 2 6 == 0 && !bitOf (leAt h 3 1) 0 &&
  leAt h 6 1 / 16 == 0 && leAt h 7 1 == 0 && beAt h 0x14 4 + 40 == len

/-- R406: a PFC frame: the priorities that it names, with their quanta. -/
def State.pfc (s : State) (e : Nat) (b : List Byte) : State :=
  let s := s.ethCount e 9 1
  let en := beAt b 2 2 % 256 &&& s.rd F.LINK_ETH_CFG_PFC_RX_EN [e]
  s.updEth e (fun x => { x with paused := (List.range 8).foldl (fun m p =>
    if bitOf en p then (if beAt b (4 + 2 * p) 2 = 0 then maskMinus m (2 ^ p) else m ||| 2 ^ p) else m) x.paused })

/-- R406: the quanta of a priority end. -/
def State.pfcExpire (s : State) (e p : Nat) : State := s.updEth e (fun x => { x with paused := maskMinus x.paused (2 ^ p) })

/-- The parts of a frame: VLAN tag, EtherType, data. -/
def ethParts (b : List Byte) : Option Nat × Nat × List Byte :=
  if beAt b 12 2 = 0x8100 then (some (beAt b 14 2), beAt b 16 2, b.drop 18) else (none, beAt b 12 2, b.drop 14)

/-- R408: the serving datagram of a frame whose FCS is good, or the counter of the check that it fails. -/
def State.serving (s : State) (e : Nat) (b : List Byte) : List Byte ⊕ Nat :=
  let q := ethParts b
  let d := q.2.2.take (beAt q.2.2 4 2 + 40)
  let udp := d.drop 40
  let tagOk := match q.1 with
    | some t => t % 4096 == s.rd F.LINK_ETH_CFG_VID [e]
    | none => !s.on F.LINK_ETH_CFG_TAGGED [e]
  let ip := beBytes 8 (s.rawReg .linkEthIp6Hi [e]) ++ beBytes 8 (s.rawReg .linkEthIp6Lo [e])
  if beAt b 0 6 ≠ s.rd F.LINK_ETH_MAC_MAC [e] ∨ !tagOk then .inr 6
  else if q.2.1 ≠ 0x86DD ∨ q.2.2.length < 40 ∨ leAt d 0 1 / 16 ≠ 6 ∨ leAt d 6 1 ≠ 17 ∨ (d.drop 24).take 16 ≠ ip ∨
      d.length ≠ beAt d 4 2 + 40 ∨ 60 < b.length ∧ q.2.2.length ≠ d.length then .inr 6
  else if s.rd F.LINK_ETH_CFG_SERVE_PORT [e] = 0 ∨ beAt udp 2 2 ≠ s.rd F.LINK_ETH_CFG_SERVE_PORT [e] ∨ udp.length < 8 ∨ !udpOk d then
    .inr 7
  else if beAt udp 4 2 ≠ udp.length ∨ !serveOk (udp.drop 8) (beAt udp 4 2) then .inr 8
  else if 8192 < d.length then .inr 5
  else .inl d

/-- R406: cells of a priority that wait in an Ethernet port's receive buffer. -/
def State.ethCells (s : State) (e prio : Nat) : Nat :=
  (((s.waiting (ethUplink e)).filter (fun w => w.how.eth == some (e, prio))).map (fun w => w.pkt.cells)).foldl (· + ·) 0

/-- R406: a PFC frame of one priority. -/
def State.pfcFrame (s : State) (e prio quanta : Nat) : List Byte :=
  ethFrame 0x0180C2000001 (s.rd F.LINK_ETH_MAC_MAC [e]) none 0x8808
    (beBytes 2 0x0101 ++ beBytes 2 (2 ^ prio) ++ ((List.range 8).map (fun p => beBytes 2 (if p = prio then quanta else 0))).flatten)

/-- R406, R418: a PFC frame leaves; it is a frame sent, too. -/
def State.pfcOut (s : State) (e prio quanta : Nat) : State :=
  let f := s.pfcFrame e prio quanta
  ((((s.emit (.eth e f)).ethCount e 2 1).ethCount e 3 f.length).ethCount e 10 1)

/-- R406: XOFF and XON of a priority follow the cells that wait. -/
def State.pfcSend (s : State) (e prio : Nat) : State :=
  let cells := s.ethCells e prio
  let x := bitOf (s.ethPort e).xoff prio
  if !bitOf (s.rd F.LINK_ETH_CFG_PFC_TX_EN [e]) prio ∨ s.ethState e ≠ eUP then s
  else if !x ∧ 3072 ≤ cells then
    (s.pfcOut e prio 0xFFFF).updEth e (fun y => { y with xoff := y.xoff ||| 2 ^ prio })
  else if x ∧ cells < 2048 then
    (s.pfcOut e prio 0).updEth e (fun y => { y with xoff := maskMinus y.xoff (2 ^ prio) })
  else s

/-- R406: every priority of every Ethernet port. -/
def State.pfcAll (s : State) : State :=
  (List.range 4).foldl (fun s e => (List.range 8).foldl (fun s p => s.pfcSend e p) s) s

/-- R347: a packet that waits in a receive buffer or at an internal source is offered again; when it came in a frame, the buffer of
its priority may have room again (R406). -/
def State.admitRetry (s : State) (i k : Nat) : State :=
  let frame := (s.waiting i)[k]?.bind (fun w => w.how.eth)
  let s := s.retryWait i k
  match frame with
  | some (e, prio) => s.pfcSend e prio
  | none => s

/-- R406: the priority of a received frame: the PCP of its tag, DEF_PRIO without one. -/
def State.framePrio (s : State) (e : Nat) (b : List Byte) : Nat :=
  match (ethParts b).1 with
  | some t => t / 2 ^ 13
  | none => s.rd F.LINK_ETH_CFG_DEF_PRIO [e]

/-- R405, R406, R408: a frame arrives on an Ethernet port. One below 64 bytes with a good FCS is discarded, and no counter of R418
has a name for it (log 69). -/
def State.ethFrameIn (s : State) (e : Nat) (frame : List Byte) : State :=
  if s.ethState e ≠ eUP then s
  else
    let b := frame.take (frame.length - 4)
    if fcs b ≠ leAt frame (frame.length - 4) 4 then s.ethCount e 4 1
    else if frame.length < 64 then s
    else
      let s := (s.ethCount e 0 1).ethCount e 1 frame.length
      if 9216 < frame.length then s.ethCount e 5 1
      else
        let q := ethParts b
        if q.2.1 = 0x8808 ∧ beAt q.2.2 0 2 = 0x0001 then s.ethCount e 11 1
        else if q.2.1 = 0x8808 ∧ beAt q.2.2 0 2 = 0x0101 then s.pfc e q.2.2
        else match s.serving e b with
          | .inr n => s.ethCount e n 1
          | .inl d =>
            let h := d.drop 48
            let p := { Pkt.make kSERVE 7 (beAt h 4 2) (s.switchId * 64 + 16 + leAt h 6 1 % 16) with payload := d, flags := 1 }
            (s.enterPort (ethUplink e) p.seal (some (e, s.framePrio e b))).pfcSend e (s.framePrio e b)

/-! ### Role (R34, R35) -/

/-- R35: the output queues of the data ports have drained. -/
def State.outDrained (s : State) : Bool := s.fab.tm.all (fun (e : Nat × TmTile) => e.2.queues.isEmpty && e.2.filling.isEmpty)

/-- R33, R35: every data port idles, uplinks in Ethernet mode too. -/
def State.idleAll (s : State) : State :=
  let s := (List.range 26).foldl (fun s p => if s.fabricPort p && s.portState p != pOFF then s.portOff p 0 else s) s
  (List.range 4).foldl (fun s e => s.setEth e eOFF) s

/-- R35: the data ports of an OUT switch idle once its output queues have drained. -/
def State.drainOut (s : State) : State :=
  if 2 ≤ s.rd F.GLB_COORD_ROLE [] ∧ s.outDrained then s.idleAll else s

/-- R35, R403: ports that a role allows start; accelerator ports that it does not go to electrical idle. -/
def State.roleStart (s : State) : State :=
  let s := (List.range 26).foldl (fun s p =>
    if !s.fabricPort p then s
    else if s.roleIdles p then (if s.portState p = pOFF then s.startTraining p else s.portOff p (if p < 16 then 4 else 0))
    else if s.portState p = pOFF ∧ s.sys.fwRuns then s.startTraining p else s) s
  (List.range 4).foldl (fun s e => if s.ethState e = eOFF then s.ethStart e else s) s

/-- R34, R35: the new value of GLB_COORD with its consequences: XY fields only while every torus port is down. A write that
changes ROLE and leaves X, Y and XY_VALID as they are is a write of ROLE and is not refused; ROLE of a refused write takes
effect, since R34 keeps back three fields only (DESIGN CHOICE, log 59). -/
def State.coordWrite (s : State) (v : Nat) : State :=
  let old := s.rawReg .glbCoord []
  let xyNew := fieldOf v 4 7
  let role := fieldOf v 12 2
  let live := torusPorts.any s.portUp
  let s := if live ∧ (xyNew ≠ fieldOf old 4 7 ∨ role = fieldOf old 12 2) then s.refuse (regAddr .glbCoord [])
    else if xyNew ≠ fieldOf old 4 7 then (s.setRaw .glbCoord [] (setFieldOf old 4 7 xyNew)).ringsEval true
    else s
  if role = fieldOf old 12 2 then s
  else
    let s := s.wr F.GLB_COORD_ROLE [] role
    (if 2 ≤ role then s.drainOut else s.roleStart).ringsEval true

end Sys2Proof.Machine
end

