-- ==== Sys2Proof/Machine/Bp.lean ====
section
/-! DEFINITION. The buffer pool manager (R439 to R443, R459, R460). -/
namespace Sys2Proof.Machine

/-- R439: the buffer size of a pool. -/
def bpSize (k : Nat) : Nat := nth 0x20000 [0x100, 0x800, 0x4000] k

/-- A pool's working state. -/
def State.pool (s : State) (k : Nat) : BpPool := Tbl.look BpPool.fresh s.bp.pools k

/-- A pool's working state replaced; BP_POOL_STATUS follows it (R459). -/
def State.setPool (s : State) (k : Nat) (p : BpPool) : State :=
  (({ s with bp := { s.bp with pools := Tbl.put k p s.bp.pools } }).wr F.BP_POOL_STATUS_FREE [k]
    (p.cache.length + p.ringCount)).wr F.BP_POOL_STATUS_CACHED [k] p.cache.length

/-- COUNT of a pool (R459). -/
def State.bpCount (s : State) (k : Nat) : Nat := s.rd F.BP_POOL_CFG_COUNT [k]

/-- The first address of a pool's range and its length (R439). -/
def State.bpRange (s : State) (k : Nat) : Nat × Nat := (s.rd F.BP_POOL_BASE_ADDR [k], s.bpCount k * bpSize k)

/-- Free buffers of a pool. -/
def BpPool.free (p : BpPool) : Nat := p.cache.length + p.ringCount

/-- The address of an entry of a pool's free ring (R441). -/
def State.bpSlot (s : State) (k i : Nat) : Nat := s.rd F.BP_POOL_RING_ADDR [k] + 8 * (i % max 1 (s.bpCount k))

/-- R441: a refill starts when the cache is below 128 entries and the ring holds some. -/
def State.bpWant (s : State) (k : Nat) : State :=
  let p := s.pool k
  if p.cache.length < 128 ∧ 0 < p.ringCount then s.setPool k { p with refill := true } else s

/-- R440: the pool that serves a request: the lowest enabled one from `k` with a free buffer. -/
def State.bpChoose (s : State) (k : Nat) : Option Nat :=
  ([0, 1, 2, 3].filter (fun j => decide (k ≤ j))).find?
    (fun j => s.on F.BP_POOL_CFG_EN [j] && decide (0 < (s.pool j).free))

/-- A pointer leaves the cache, any one of it (log 36); each is checked by checker 0x14 and a bad one discarded
(R498). `none` when the cache ran out. -/
def State.bpTake (s : State) (k : Nat) : Nat → Option Nat × State
  | 0 => (none, s)
  | fuel + 1 =>
    let p := s.pool k
    if p.cache.isEmpty then (none, s)
    else
      let d := s.draw
      let i := d.1.toNat % p.cache.length
      let j := (d.2.setPool k { p with cache := p.cache.eraseIdx i }).injected 0x14 0 0 k 1
      let rep (cls : Nat) : State := j.2.2.2.report ⟨0, cls, 0x14, 0, k, k, true, j.2.2.1, false⟩
      if j.1 = 0 then (some (nth 0 p.cache i), j.2.2.2)
      else if j.2.1 = 0 then (some (nth 0 p.cache i), rep 1)
      else (rep 2).bpTake k fuel

/-- R440: requests are answered in order of arrival; one that must wait for a refill keeps its place. -/
def State.bpServe (s : State) : Nat → State
  | 0 => s
  | fuel + 1 =>
    match s.bp.waits with
    | [] => s
    | (who, k) :: rest =>
      let answer (s : State) (word : Nat) : State :=
        ({ s with bp := { s.bp with waits := rest } }).owe (.bpReply who word)
      match s.bpChoose k with
      | none => (answer s 0).bpServe fuel
      | some j =>
        match s.bpTake j ((s.pool j).cache.length + 1) with
        | (some ptr, s') => ((answer s' (1 + 2 * j + (if j = k then 0 else 8) + ptr)).bpWant j).bpServe fuel
        | (none, s') => if (s'.pool j).ringCount = 0 then s'.bpServe fuel else s'.bpWant j

/-- Every request that can be answered now is. -/
def State.bpRun (s : State) : State := s.bpServe (5 * (s.bp.waits.length + 1))

/-- R440, R509: a request for pool `k` arrives; a manager in reset answers EMPTY. -/
def State.bpRequest (s : State) (who : BpAsker) (k : Nat) : State :=
  if s.inReset 7 0 then s.owe (.bpReply who 0) else
  ({ s with bp := { s.bp with waits := s.bp.waits ++ [(who, k)] } }).bpRun

/-- Pointers written to the tail of a pool's free ring (R441). -/
def State.bpPush (s : State) (k : Nat) (ptrs : List Nat) : State :=
  ptrs.foldl (fun (s : State) ptr =>
    let p := s.pool k
    (s.writeMem (s.bpSlot k (p.ringHead + p.ringCount)) (leBytes 8 ptr)).setPool k { p with ringCount := p.ringCount + 1 }) s

/-- R441: a cache above 448 entries spills to the ring; how many pointers go and which is free (log 36). -/
def State.bpSpill (s : State) (k : Nat) : State :=
  let n := (s.pool k).cache.length
  if n ≤ 448 then s
  else
    let d := s.draw
    let e := d.2.draw
    let m := n - 448 + d.1.toNat % 321
    let c := (s.pool k).cache.rotateLeft (e.1.toNat % n)
    (e.2.setPool k { s.pool k with cache := c.drop m }).bpPush k (c.take m)

/-- R442: the enabled pool whose range holds a pointer at a multiple of its buffer size. -/
def State.bpHome (s : State) (ptr : Nat) : Option Nat :=
  [0, 1, 2, 3].find? (fun k => s.on F.BP_POOL_CFG_EN [k] && decide ((s.bpRange k).1 ≤ ptr) &&
    decide (ptr < (s.bpRange k).1 + (s.bpRange k).2) && decide ((ptr - (s.bpRange k).1) % bpSize k = 0))

/-- R442: a refused pointer. -/
def State.bpRefuse (s : State) (ptr : Nat) : State :=
  (((s.wr F.BP_ERR_LAST_BAD [] (ptr / 256)).stick F.BP_ERR_BAD_FREE []).bump F.BP_BAD_CNT_COUNT [] 1).1.event .bpErr []

/-- R442: a buffer is returned. -/
def State.bpFree (s : State) (ptr : Nat) : State :=
  match s.bpHome ptr with
  | none => s.bpRefuse ptr
  | some k =>
    let p := s.pool k
    if p.free = s.bpCount k then s.bpRefuse ptr
    else ((s.setPool k { p with cache := p.cache ++ [ptr] }).bpSpill k).bpRun

/-- R443: INIT starts filling a pool's free ring. -/
def State.bpInit (s : State) (k : Nat) : State :=
  (s.setPool k { BpPool.fresh with filling := true }).wr F.BP_POOL_STATUS_READY [k] 0

/-- R443: INIT has written every pointer into the ring in ascending order and filled the cache. It does not finish
while the ring does not lie in populated HBM (log 36). -/
def State.bpInitDone (s : State) (k : Nat) : State :=
  let p := s.pool k
  let n := s.bpCount k
  let ring := s.rd F.BP_POOL_RING_ADDR [k]
  if p.filling ∧ (n = 0 ∨ s.rangeWin ring (8 * n) = some .hbm) then
    let ptrs := (List.range n).map (fun i => (s.bpRange k).1 + i * bpSize k)
    let s := s.writeMem ring (ptrs.map (leBytes 8)).flatten
    ((s.setPool k ⟨ptrs.take 512, min n 512, n - 512, false, false⟩).wr F.BP_POOL_STATUS_READY [k] 1).bpRun
  else s

/-- R441: a refill brings pointers from the ring, at least one and no more than the cache holds; one that cannot be
read is lost. -/
def State.bpRefillDone (s : State) (k n : Nat) (ecc : Ecc) : State :=
  let p := s.pool k
  if !p.refill then s
  else
    let m := min (max 1 n) (min (512 - p.cache.length) p.ringCount)
    let r := (List.range m).foldl (fun (acc : List Nat × State) i =>
      let e := acc.2.readMem (acc.2.bpSlot k (p.ringHead + i)) 8 ecc
      (if e.2.1.isEmpty then acc.1 ++ [leNat e.1] else acc.1, e.2.2)) ([], s)
    let head := (p.ringHead + m) % max 1 (s.bpCount k)
    let q : BpPool := ⟨p.cache ++ r.1, head, p.ringCount - m, false, p.filling⟩
    ((r.2.setPool k q).bpWant k).bpRun

/-- R439: a pool may be enabled with a base and a count. -/
def State.bpMayEnable (s : State) (k count : Nat) : Bool :=
  let base := s.rd F.BP_POOL_BASE_ADDR [k]
  let len := count * bpSize k
  decide (base % bpSize k = 0) &&
  ((decide (hbmBase ≤ base) && decide (base + len ≤ hbmBase + 384 * 2 ^ 30)) ||
    (decide (ddrBase ≤ base) && decide (base + len ≤ ddrBase + 8 * ddrRange))) &&
  [0, 1, 2, 3].all (fun j => j == k || !(s.on F.BP_POOL_CFG_EN [j]) || !(meets base len (s.bpRange j).1 (s.bpRange j).2))

/-- R439, R443, R459: a write of BP_POOL_CFG. -/
def State.bpCfgWrite (s : State) (k v : Nat) : State :=
  let addr := regAddr .bpPoolCfg [k]
  let en := bitOf v 24
  if en && !(s.bpMayEnable k (v % 2 ^ 24)) then s.refuse addr
  else
    let s := s.swWrite .bpPoolCfg [k] v
    let s := if bitOf v 25 then (if en then s.refuse addr else s.bpInit k) else s
    s.bpRun

/-- R459: a write of BP_POOL_BASE or BP_POOL_RING. -/
def State.bpAddrWrite (s : State) (r : RegName) (k v : Nat) : State :=
  if s.on F.BP_POOL_CFG_EN [k] ∨ (r = .bpPoolRing ∧ (v % 4096 ≠ 0 ∨ v < hbmBase ∨ hbmBase + 384 * 2 ^ 30 ≤ v)) then
    s.refuse (regAddr r [k])
  else s.swWrite r [k] v

/-- R509, domain 7: requests in progress are answered EMPTY and cached pointers are written back. -/
def State.bpReset (s : State) : State :=
  let s := [0, 1, 2, 3].foldl (fun (s : State) k =>
    let c := (s.pool k).cache
    ((s.setPool k { s.pool k with cache := [], refill := false }).bpPush k c)) s
  s.bp.waits.foldl (fun (s : State) w => s.owe (.bpReply w.1 0)) { s with bp := { s.bp with waits := [] } }

end Sys2Proof.Machine
end

