-- ==== Sys2Proof/Machine/Dm.lean ====
section
/-! DEFINITION. The datamovers' software channels (R444 to R454, R461, R462). -/
namespace Sys2Proof.Machine

/-- A channel's working state. -/
def State.chan (s : State) (d c : Nat) : DmChan := Tbl.look DmChan.fresh s.dm (64 * d + c)

/-- A channel's working state replaced. -/
def State.setChan (s : State) (d c : Nat) (x : DmChan) : State := { s with dm := Tbl.put (64 * d + c) x s.dm }

/-- STATE of a channel: 0 IDLE, 1 RUNNING, 2 ABORTING, 3 STOPPED (R462). -/
def State.dmState (s : State) (d c : Nat) : Nat := s.rd F.DM_CH_STATUS_STATE [d, c]

/-- R449: the write-back fields. The destination used is a free value when there was none (log 37). -/
def State.dmWriteBack (s : State) (a status residue : Nat) (used : Option Nat) : State :=
  let d := s.draw
  let dst := used.getD d.1.toNat
  (if used.isSome then s else d.2).writeMem (a + 0x30)
    (leBytes 1 status ++ leBytes 3 0 ++ leBytes 4 residue ++ leBytes 8 dst)

/-- R451: a record is posted, held while its ring is full, or lost while the ring is not enabled. -/
def State.dmRecord (s : State) (d c w0 w1 : Nat) : State :=
  match s.postCq (s.rd F.DM_CH_CTRL_RING [d, c]) w0 w1 none with
  | (s', .posted) => s'.setChan d c { s'.chan d c with heldRec := none }
  | (s', .full) => s'.setChan d c { s'.chan d c with heldRec := some (w0, w1) }
  | (s', .off) => (s'.setChan d c { s'.chan d c with heldRec := none }).stylusCount 0 2

/-- R451: a held record is offered to its ring again. -/
def State.dmRings (s : State) : State :=
  s.dm.foldl (fun (s : State) (e : Nat × DmChan) => match e.2.heldRec with
    | none => s
    | some (w0, w1) => s.dmRecord (e.1 / 64) (e.1 % 64) w0 w1) s

/-- R450, R451: what a completed descriptor leaves in the channel's registers, and its record. -/
def State.dmNote (s : State) (d c status residue tag : Nat) (notify : Bool) : State :=
  let s := (s.wr F.DM_CH_STATUS_LAST_STATUS [d, c] status).wr F.DM_CH_STATUS_RESIDUE [d, c] residue
  let s := s.tick F.DM_CH_STATUS_DONE [d, c]
  if s.on F.DM_CH_CTRL_RING_EN [d, c] ∧ (status ≠ 0 ∨ notify) then
    s.dmRecord d c tag (status + c <<< 8 + d <<< 14 + residue <<< 16)
  else s

/-- R451: the chain goes on after OK and DATA_POISONED and stops after every other status. -/
def State.dmAdvance (s : State) (d c status : Nat) (next : Option Nat) : State :=
  let x := { DmChan.fresh with heldRec := (s.chan d c).heldRec, lastIssue := (s.chan d c).lastIssue }
  if status = 0 ∨ status = 3 then
    (s.setChan d c { x with nextFetch := next }).wr F.DM_CH_STATUS_STATE [d, c] (if next.isSome then 1 else 0)
  else ((s.setChan d c x).wr F.DM_CH_STATUS_STATE [d, c] 3).wr F.DM_CH_NEXT_ADDR [d, c] (next.getD 0)

/-- R449 to R451: the descriptor in progress completes; `lost` tells that its write-back failed (R453). -/
def State.dmEnd (s : State) (d c status residue : Nat) (lost : Bool) : State :=
  let x := s.chan d c
  match x.desc with
  | none => s
  | some dd =>
    let s := if lost then (s.bump F.DM_STATUS_WB_LOST [d] 1).1 else s.dmWriteBack dd.addr status residue x.used
    let s := s.dmNote d c status residue dd.tag (bitOf dd.flags 1)
    (s.dmAdvance d c status (if bitOf dd.flags 0 then some dd.next else none)).settlePlates

/-- A burst's data written to its destination, with its poison (R434). -/
def State.dmStore (s : State) (dst : Nat) (b : Burst) : State :=
  b.bad.foldl (fun (s : State) w => s.writePoison (8 * w) 8) (s.writeMem (dst + b.off) b.data)

/-- Burst slots held by a datamover (R461). -/
def State.dmSlots (s : State) (d : Nat) : Nat :=
  (s.dm.filter (fun (e : Nat × DmChan) => e.1 / 64 == d)).foldl (fun n (e : Nat × DmChan) => n + e.2.inFlight.length) 0

/-- R110: the naturally aligned 64-byte pieces of a range: offset in the range and bytes. -/
def alignedPieces (a n : Nat) : List (Nat × Nat) :=
  (List.range (ceilDiv (a % 64 + n) 64)).map (fun i =>
    let lo := 64 * i - a % 64
    (lo, min n (64 * (i + 1) - a % 64) - lo))

/-- R110, R453: of an abandoned burst any naturally aligned 64-byte pieces may have been written. -/
def State.dmTorn (s : State) (dst : Nat) (b : Burst) : State :=
  let f := s.draw
  let ps := alignedPieces (dst + b.off) b.data.length
  ((List.range ps.length).zip ps).foldl (fun (s : State) p =>
    if bitOf f.1.toNat (p.1 % 64) then
      let part := (b.data.drop p.2.1).take p.2.2
      let a := dst + b.off + p.2.1
      s.dmStore dst ⟨b.off + p.2.1, part, b.bad.filter (fun w => (wordsOf a part.length).contains w)⟩
    else s) f.2

/-- R447, R453: the bytes of the bursts of a descriptor that are confirmed written, of which the last may be any (log 37). -/
def confirmedBytes (dst written draw : Nat) : Nat :=
  let b := draw % (written + 1)
  if b = written then written else (dst + b) / 4096 * 4096 - dst

/-- R453 steps 2 to 4: every channel stops; `lost` has the bit of each channel whose write-back fails. One that is STOPPED already
keeps its registers. -/
def State.dmHalt (s : State) (d lost : Nat) : State :=
  let s := (List.range 56).foldl (fun (s : State) c =>
    let x := s.chan d c
    match x.desc with
    | some dd =>
      let s := x.inFlight.foldl (fun (s : State) b => s.dmTorn dd.dst b) s
      let f := s.draw
      f.2.dmEnd d c 0x41 (dd.len - confirmedBytes dd.dst x.written f.1.toNat) (bitOf lost c)
    | none => if s.dmState d c = 3 then s else s.dmAdvance d c 0x41 x.nextFetch) s
  (s.wr F.DM_STATUS_HALTED [d] 1).wr F.DM_STATUS_BUF_USED [d] (s.dmSlots d)

/-- R453: a bus error stops every channel of the datamover. -/
def State.dmBusError (s : State) (d addr kind lost : Nat) : State :=
  if s.on F.DM_STATUS_HALTED [d] then s
  else
    let s := (s.wr F.DM_ERR_ADDR_ADDR [d] addr).wr F.DM_STATUS_ERR_KIND [d] kind
    (s.stickEv F.DM_STATUS_BUS_ERR [d]).dmHalt d lost

/-- A descriptor that cannot be read ends the chain; its tag is a free value (log 37). -/
def State.dmNoDesc (s : State) (d c status : Nat) : State :=
  let f := s.draw
  (f.2.dmNote d c status 0 f.1.toNat false).dmAdvance d c status none

/-- R446 checks 3 and 4; a descriptor that passes them begins. -/
def State.dmCheck (s : State) (d c : Nat) (dd : DmDesc) : State :=
  let s := s.setChan d c { s.chan d c with desc := some dd, asking := false, used := some dd.dst, issued := 0, written := 0 }
  if s.rangeWin dd.src dd.len = none ∨ s.rangeWin dd.dst dd.len = none then s.dmEnd d c 0x07 dd.len false
  else if !(s.admits dd.src dd.len (.dm d) && s.admits dd.dst dd.len (.dm d)) then s.dmEnd d c 0x06 dd.len false
  else s

/-- The fields of a descriptor (R445). -/
def DmDesc.ofBytes (a : Nat) (b : List Byte) : DmDesc :=
  ⟨a, leAt b 0 8, leAt b 8 8, leAt b 0x10 4, leAt b 0x14 2, leAt b 0x18 8, leAt b 0x20 8⟩

/-- R445, R446, R453: a fetched descriptor is checked whole before any byte moves. A fetch that is answered with an error is a bus
error; a misaligned one ends with ADDRESS_ERROR, one that cannot be read with BAD_DESCRIPTOR (DEDUCED, log 67). -/
def State.dmFetch (s : State) (d c : Nat) (ecc : Ecc) : State :=
  let x := s.chan d c
  match x.nextFetch with
  | none => s
  | some a =>
    if s.dmState d c ≠ 1 ∨ x.desc.isSome ∨ x.heldRec.isSome ∨ !s.machineUp d ∨ 55 < c ∨ s.lowStack a 64 then s
    else if a % 64 ≠ 0 then s.dmNoDesc d c 0x07
    else if (s.rangeWin a 64 ≠ some .hbm ∧ s.rangeWin a 64 ≠ some .ddr) ∨ s.closed a 64 then s.dmBusError d a 0 0
    else
      let r := s.readMem a 64 ecc
      let s := r.2.2
      if !r.2.1.isEmpty then s.dmNoDesc d c 0x42
      else
        let dd := DmDesc.ofBytes a r.1
        let pooled := bitOf dd.flags 2
        let s := s.setChan d c { x with desc := some dd, nextFetch := none, used := if pooled then none else some dd.dst }
        if leAt r.1 0x16 2 ≠ 0 ∨ leAt r.1 0x28 8 ≠ 0 ∨ dd.len = 0 ∨ 32 ≤ dd.flags then s.dmEnd d c 0x42 dd.len false
        else if pooled then (s.setChan d c { s.chan d c with asking := true }).bpRequest (.dm d c) (fieldOf dd.flags 3 2)
        else s.dmCheck d c dd

/-- R446 check 2: the buffer pool manager's reply. A buffer that nothing waits for any more is returned. -/
def State.dmPool (s : State) (d c word : Nat) : State :=
  let x := s.chan d c
  let ptr := word / 256 * 256
  match x.desc with
  | some dd =>
    if !x.asking then (if bitOf word 0 then s.bpFree ptr else s)
    else if !bitOf word 0 then s.dmEnd d c 0x43 dd.len false
    else if bpSize (fieldOf word 1 2) < dd.len then (s.bpFree ptr).dmEnd d c 0x42 dd.len false
    else s.dmCheck d c { dd with dst := ptr }
  | none => if bitOf word 0 then s.bpFree ptr else s

/-- R447: a burst ends at a 4 KiB boundary of the destination address. -/
def burstLen (dst issued len : Nat) : Nat := min (4096 - (dst + issued) % 4096) (len - issued)

/-- R447, R448: a channel may issue its next burst read. -/
def State.dmMayIssue (s : State) (d c : Nat) : Bool :=
  let x := s.chan d c
  let rate := s.rd F.DM_CH_CTRL_RATE [d, c]
  s.dmState d c == 1 && s.machineUp d && !x.asking &&
  decide (x.inFlight.length < 16) && decide (s.dmSlots d < 256) &&
  (match x.desc with
   | some dd => decide (x.issued < dd.len) && !s.lowStack (dd.src + x.issued) (burstLen dd.dst x.issued dd.len)
   | none => false) &&
  (match x.lastIssue with | some t => decide (rate = 0 ∨ 4096 ≤ (s.now - t) * rate) | none => true)

/-- R434, R447: the next burst is read into a buffer slot; bytes of unreadable words make the words of the destination that
they fall into poison. -/
def State.dmIssue (s : State) (d c : Nat) (ecc : Ecc) : State :=
  let x := s.chan d c
  match x.desc with
  | none => s
  | some dd =>
    if !(s.dmMayIssue d c) then s
    else
      let n := burstLen dd.dst x.issued dd.len
      let a := dd.src + x.issued
      let r := s.readMem a n ecc
      let bad := ((List.range n).filter (fun i => r.2.1.contains ((a + i) / 8))).foldl
        (fun ws i => addWord ((dd.dst + x.issued + i) / 8) ws) []
      let s := r.2.2.setChan d c { x with
        inFlight := x.inFlight ++ [⟨x.issued, r.1, bad⟩], issued := x.issued + n, lastIssue := some s.now,
        poisoned := x.poisoned || !bad.isEmpty }
      s.wr F.DM_STATUS_BUF_USED [d] (s.dmSlots d)

/-- R498: the words of a burst are checked as they leave the buffer; an uncorrectable one resets the datamover. -/
def State.dmBufCheck (s : State) (d n : Nat) : Bool × State :=
  let j := s.injected 0x13 d 0 0 n
  if j.1 = 0 then (true, j.2.2.2)
  else
    let f := j.2.2.2.draw
    let cls := if j.2.1 = 0 then 1 else 3
    (cls == 1, f.2.report ⟨d, cls, 0x13, 0, f.1.toNat % 256, d, true, j.2.2.1, false⟩)

/-- R447: the lowest burst in flight has been written. -/
def State.dmWritten (s : State) (d c : Nat) : State :=
  let x := s.chan d c
  match x.desc, x.inFlight with
  | some dd, b :: rest =>
    if s.lowStack (dd.dst + b.off) b.data.length then s
    else
    let k := s.dmBufCheck d (ceilDiv b.data.length 8)
    if !k.1 then k.2
    else
      let s := (k.2.dmStore dd.dst b).setChan d c { x with inFlight := rest, written := x.written + b.data.length }
      s.wr F.DM_STATUS_BUF_USED [d] (s.dmSlots d)
  | _, _ => s

/-- R449: the targets of an address: a plate, a stack or a channel. -/
def State.targetOf (s : State) (a : Nat) : Nat :=
  if a < hbmBase then plateOf a else if a < ddrBase then 64 + s.stackOf (a - hbmBase) else 72 + (a - ddrBase) / ddrRange

/-- The ends of the parts of a range that may be a target's last part: for each plate, DDR5 range and 96 GiB of HBM the end,
and the 4 KiB pages of HBM before it. -/
def partEnds (a n : Nat) : List Nat :=
  let e := a + n
  let unit := if a < hbmBase then plateSize else if a < ddrBase then 96 * 2 ^ 30 else ddrRange
  let off := if a < hbmBase then plateBase else if a < ddrBase then hbmBase else ddrBase
  let ends := e :: ((List.range ((e - 1 - off) / unit - (a - off) / unit)).map (fun i => off + unit * ((e - 1 - off) / unit - i)))
  if a < hbmBase ∨ ddrBase ≤ a then ends
  else (ends.map (fun x => x :: ((List.range 8).map (fun i => ((x - 1) / 4096 - i) * 4096)))).flatten.filter (fun x => decide (a < x))

/-- R449: the 64-byte pieces read back: the last one written to each target. -/
def State.readBacks (s : State) (a n : Nat) : List Nat :=
  if n = 0 then []
  else ((partEnds a n).foldl (fun (acc : List Nat × List Nat) e =>
    let t := s.targetOf (e - 1)
    if acc.1.contains t then acc else (t :: acc.1, acc.2 ++ [max a ((e - 1) / 64 * 64)])) ([], [])).2

/-- R449, R452: the read-backs have returned, so the descriptor completes. -/
def State.dmReadback (s : State) (d c : Nat) (ecc : Ecc) : State :=
  let x := s.chan d c
  match x.desc with
  | none => s
  | some dd =>
    if x.asking || !x.inFlight.isEmpty || !s.machineUp d || s.lowStack dd.addr 64 ||
        (s.readBacks dd.dst x.issued).any (fun a => s.lowStack a 1) || (decide (x.issued < dd.len) && x.stop.isNone) then s
    else
      let s := (s.readBacks dd.dst x.issued).foldl (fun (s : State) a => (s.checkWords (wordsOf a (64 - a % 64)) ecc).2) s
      s.dmEnd d c (x.stop.getD (if x.poisoned then 3 else 0)) (dd.len - x.issued) false

/-- R452: ABORT. Between two descriptors the chain stops before the next one is fetched (log 37). -/
def State.dmAbort (s : State) (d c : Nat) : State :=
  let x := s.chan d c
  if s.dmState d c ≠ 1 ∨ 55 < c then s
  else match x.desc with
    | none => s.dmAdvance d c 0x40 x.nextFetch
    | some dd =>
      if x.issued < dd.len then (s.setChan d c { x with stop := some 0x40 }).wr F.DM_CH_STATUS_STATE [d, c] 2 else s

/-- R462: GO. -/
def State.dmGo (s : State) (d c : Nat) : State :=
  if 55 < c then s
  else if s.dmState d c = 1 ∨ s.dmState d c = 2 then s
  else (s.setChan d c { s.chan d c with nextFetch := some (s.rd F.DM_CH_DESC_ADDR [d, c]) }).wr F.DM_CH_STATUS_STATE [d, c] 1

/-- R454, R462: a write of DM_CH_CTRL; what GO and ABORT do depends on the channel's state before the write. -/
def State.dmCtrlWrite (s : State) (d c v : Nat) : State :=
  if 55 < c then s
  else
    let st := s.dmState d c
    if bitOf v 0 && s.on F.DM_STATUS_HALTED [d] then s.refuse (regAddr .dmChCtrl [d, c])
    else
      let s := s.swWrite .dmChCtrl [d, c] v
      let s := if bitOf v 0 && (st == 0 || st == 3) then s.dmGo d c else s
      if bitOf v 1 && st == 1 then s.dmAbort d c else s

/-- R462: a write of DM_CH_DESC, which must be a multiple of 64. -/
def State.dmDescWrite (s : State) (d c v : Nat) : State :=
  if 55 < c then s else if v % 64 = 0 then s.swWrite .dmChDesc [d, c] v else s.refuse (regAddr .dmChDesc [d, c])

/-- R454: RESUME. -/
def State.dmResume (s : State) (d : Nat) : State := s.wr F.DM_STATUS_HALTED [d] 0

end Sys2Proof.Machine
end

