-- ==== Sys2Proof/Machine/MemCtl.lean ====
section
/-! DEFINITION. Plate scrub and hand-over (R115, R425, R455, R456), HBM4 and DDR5 initialisation and patrol scrub (R432 to
R438, R457, R458). -/
namespace Sys2Proof.Machine

/-- R424, R425: the scrub reads and checks the next line of a plate. -/
def State.plateScrub (s : State) (p : Nat) (ecc : Ecc) : State :=
  if s.rd F.PLATE_SCRUB_PERIOD [p] = 0 then s
  else
    let l := (s.tile p).scrubLine
    let s := (s.checkWords (wordsOf (plateBase + p * plateSize + 64 * l) 64) ecc).2
    let s := s.updTile p (fun t => { t with scrubLine := (l + 1) % 131072 })
    if l + 1 = 131072 then s.tick F.PLATE_SCRUB_PASSES [p] else s

/-- R115, R427: a write of PLATE_OWNER starts a hand-over, pending until accesses already admitted have completed. -/
def State.ownerWrite (s : State) (p v : Nat) : State :=
  if s.on F.PLATE_OWNER_PENDING [p] then s.refuse (regAddr .plateOwner [p])
  else ((s.updTile p (fun t => { t with handOver := some v })).wr F.PLATE_OWNER_PENDING [p] 1).settlePlates

/-- R432: stack and place within it of a window offset under a mapping; within a stack, offsets keep their order
(log 41). -/
def stackPlace (map off : Nat) : Nat × Nat :=
  if map = 0 then (off / 4096 % 8, off / 32768 * 4096 + off % 4096)
  else
    let r := off % (96 * 2 ^ 30)
    (2 * (off / (96 * 2 ^ 30)) + r / 4096 % 2, r / 8192 * 4096 + r % 4096)

/-- The window offset of a place under a mapping. -/
def placeOffset (map : Nat) (p : Nat × Nat) : Nat :=
  if map = 0 then p.2 / 4096 * 32768 + p.1 * 4096 + p.2 % 4096
  else p.1 / 2 * (96 * 2 ^ 30) + p.2 / 4096 * 8192 + p.1 % 2 * 4096 + p.2 % 4096

/-- R432: HBM contents kept across a change of mapping appear at other addresses. -/
def State.remapHbm (s : State) (old new : Nat) : State :=
  let move (a : Nat) : Nat :=
    if hbmBase ≤ a ∧ a < hbmBase + 384 * 2 ^ 30 then hbmBase + placeOffset new (stackPlace old (a - hbmBase)) else a
  if old = new then s
  else { s with
    mem := s.mem.foldl (fun m c => Memory.writeByte (move c.1) c.2 m) [],
    memPoison := s.memPoison.foldl (fun p w => addWord (move (8 * w) / 8) p) [] }

/-- R432, R457: a write of HBM_CTRL; INIT is written once, and later writes of it are ignored. -/
def State.hbmCtrlWrite (s : State) (v : Nat) : State :=
  let s := s.swWrite .hbmCtrl [] v
  if bitOf v 1 && !s.memc.hbmWritten then
    let s := s.remapHbm s.memc.lastMap (v % 2)
    ({ s with memc := { s.memc with hbmWritten := true, hbmBusy := true, lastMap := v % 2 } }).wr
      F.HBM_STATUS_MAP_ACTIVE [] (v % 2)
  else s

/-- R435: HBM initialisation ends; `ok` has the bit of each stack that is initialised. -/
def State.hbmInitDone (s : State) (ok : Nat) : State :=
  if !s.memc.hbmBusy then s
  else
    let s := { s with memc := { s.memc with hbmBusy := false } }
    let s := (s.wr F.HBM_STATUS_STACK_OK [] ok).wr F.HBM_STATUS_STACK_FAIL [] (255 - ok % 256)
    if ok % 256 = 255 then s.wr F.HBM_STATUS_READY [] 1
    else
      (((List.range 8).filter (fun i => !bitOf ok i)).map (fun i => (⟨i / 2, 4, 0x11, 0, 0, i, false, false, false⟩ : Report))).foldl
        State.report s

/-- R434: the patrol scrub reads 64 bytes of HBM. -/
def State.hbmPatrol (s : State) (line : Nat) (ecc : Ecc) : State :=
  if s.on F.HBM_STATUS_READY [] ∧ 64 * line + 64 ≤ 384 * 2 ^ 30 then (s.checkWords (wordsOf (hbmBase + 64 * line) 64) ecc).2 else s

/-- R438, R458: a write of DDR_CTRL. -/
def State.ddrCtrlWrite (s : State) (v : Nat) : State :=
  let s := s.swWrite .ddrCtrl [] v
  if bitOf v 0 then { s with memc := { s.memc with ddrBusy := true } } else s

/-- R436, R458: what SPD and training tell of a channel. -/
def State.ddrFound (s : State) (c : Nat) (m : DdrModule) : State :=
  let cap := max 1 (s.rd F.DDR_CTRL_MAX_SPEED [])
  let s := (s.wr F.DDR_CH_STATUS_PRESENT [c] (b2n m.present)).wr F.DDR_CH_STATUS_TRAINED [c] (b2n (m.present && m.trains))
  let s := (s.wr F.DDR_CH_STATUS_FAILED [c] (b2n (m.present && !m.trains))).wr F.DDR_CH_STATUS_SIZE_GIB [c]
    (if m.present then min m.sizeGib 128 else 0)
  (s.wr F.DDR_CH_STATUS_SPEED [c] (if m.present && m.trains then min cap (max 1 m.rating.toNat) else 0)).wr F.DDR_CH_STATUS_RANKS [c]
    (if m.present then min m.ranks 2 else 0)

/-- R438: DDR5 training ends; the list tells of the channels in order, and a channel it does not reach is empty. -/
def State.ddrInitDone (s : State) (ms : List DdrModule) : State :=
  if !s.memc.ddrBusy then s
  else (List.range 8).foldl (fun (s : State) c => s.ddrFound c (nth ⟨false, false, 0, 0, 0⟩ ms c))
    { s with memc := { s.memc with ddrBusy := false } }

/-- R438: the patrol scrub reads 64 bytes of a DDR5 channel. -/
def State.ddrPatrol (s : State) (c line : Nat) (ecc : Ecc) : State :=
  if 64 * line + 64 ≤ s.ddrSize c then (s.checkWords (wordsOf (ddrBase + c * ddrRange + 64 * line) 64) ecc).2 else s

end Sys2Proof.Machine
end

