-- ==== Sys2Proof/Machine/Image.lean ====
section
/-! DEFINITION. Program images: signing keys (R118, R574), LOAD, START, STOP and UNLOAD (R117 to R121, R124 to R127), and the
core events of R122 and R123. -/
namespace Sys2Proof.Machine

/-! ### Hashes and keys -/

/-- R574: the SIGNER_ID of a key: the first 16 bytes of its hash. -/
def signerId (key : List Byte) : List Byte := (beBytes 48 (hashNat key)).take 16

/-- The program-signing keys of a stored key list (R574). -/
def listKeys (kl : List Byte) : List (List Byte) :=
  (List.range (min 8 (leAt kl 6 1))).map (fun i => (kl.drop (0x70 + 96 * i)).take 96)

/-- R574, R577: the keys against which a program image may verify in the present life-cycle state. -/
def State.programKeys (s : State) : List (List Byte) :=
  match s.rd F.SEC_LC_STATE [] with
  | 2 => if s.sec.keysOk then (match s.sec.flash.keyList with | some kl => listKeys kl | none => []) else []
  | 3 => s.sec.flash.rmaKeys.filter (fun k => s.sec.fuses.keys.any (fun f => f.rma && !f.revoked && f.hash == hashNat k))
  | _ => []

/-! ### Image commands -/

/-- R126: the slot states shown in TILE_IMG_STATUS. -/
def Tile.slotCodes (tl : Tile) : Nat :=
  [0, 1, 2, 3].foldl (fun n k => n + (tl.slot k).st.code * 2 ^ (3 * k)) 0

/-- R126: an image command ends. -/
def State.imgEnd (s : State) (t k result : Nat) : State :=
  ((s.wr F.TILE_IMG_STATUS_LAST_RESULT [t] result).wr F.TILE_IMG_STATUS_LAST_SLOT [t] k).wr F.TILE_IMG_STATUS_BUSY [t] 0

/-- R119: LOAD; it ends at once when the slot is in use or the address misaligned, else it reads the image. -/
def State.imgLoad (s : State) (t k : Nat) : State :=
  let tl := s.tile t
  let src := s.rd F.TILE_IMG_SRC_ADDR [t]
  if (tl.slot k).st ≠ .empty then s.imgEnd t k 0xA
  else if src % 64 ≠ 0 then s.imgEnd t k 0x1
  else (s.updTile t (fun tl => { tl.setSlot k { ImageSlot.fresh with st := .loading } with imgCmd := some (k, src, 0) })).wr
    F.TILE_IMG_STATUS_BUSY [t] 1

/-- R119: the fields of a header that must be as R117 states. -/
def headerOk (h : List Byte) : Bool :=
  leAt h 0 4 == 0x4D494246 && leAt h 4 2 == 1 && decide (1 ≤ leAt h 8 4 ∧ leAt h 8 4 ≤ 16384) &&
  leAt h 0xC 4 % 64 == 0 && leAt h 0x10 4 % 64 == 0 && decide (leAt h 0xC 4 + leAt h 0x10 4 ≤ plateSize) &&
  decide (1 ≤ leAt h 0x14 2 ∧ leAt h 0x14 2 ≤ 128) && decide (1 ≤ leAt h 0x16 2 ∧ leAt h 0x16 2 ≤ 512) &&
  decide (leAt h 0x1E 2 < 4) && leAt h 0x24 4 == 0 && (List.range 64).all (fun i => leAt h (0x40 + i) 1 == 0)

/-- Whether the sizes of a header let the rest of its image be found. -/
def sizesOk (h : List Byte) : Bool := decide (leAt h 8 4 ≤ 16384) && decide (leAt h 0xC 4 ≤ plateSize)

/-- Slots of a tile that hold an image. -/
def Tile.loaded (tl : Tile) : List ImageSlot := ([0, 1, 2, 3].map tl.slot).filter (fun x => x.st ≠ .empty ∧ x.st ≠ .loading)

/-- The lowest place of `n` contiguous free units below `total` beside the used spans (log 7). -/
def firstGap (spans : List (Nat × Nat)) (n total : Nat) : Option Nat :=
  ((0 :: spans.map (fun x => x.1 + x.2)).filter (fun a =>
    decide (a + n ≤ total) && spans.all (fun x => !(meets a n x.1 x.2)))).foldl
    (fun m a => match m with | none => some a | some b => some (min a b)) none

/-- R94: the lowest places of a number of separate contiguous ranges (log 7). -/
def firstRanges (size total : Nat) : Nat → List (Nat × Nat) → Option (List Nat)
  | 0, _ => some []
  | n + 1, spans =>
    match firstGap spans size total with
    | none => none
    | some a => (firstRanges size total n ((a, size) :: spans)).map (a :: ·)

/-- Ticket ranges of a slot as spans. -/
def ImageSlot.spans (x : ImageSlot) : List (Nat × Nat) := x.ranges.map (fun r => (r, x.perThread))

/-- R119: the slot that a LOAD of a checked image fills, or the result that refuses it. -/
def State.imgPlace (s : State) (t : Nat) (img : List Byte) : Nat ⊕ ImageSlot :=
  let tl := s.tile t
  let body := img.length - 96
  let sid := (img.drop 0x30).take 16
  let have_ := tl.loaded
  let code := leAt img 8 4
  let threads := leAt img 0x14 2
  let per := leAt img 0x16 2
  let off := leAt img 0x10 4
  let size := leAt img 0xC 4
  let v := leAt img 0x18 4
  let m := leAt img 0x1C 1
  let tg := leAt img 0x1D 1
  if !(s.programKeys.any (fun k => signerId k == sid && sigOk k (img.take body) (img.drop body))) then .inl 0x2
  else if !bitOf (s.rd F.GLB_NUMLEVEL_SUPPORTED []) (leAt img 6 1) then .inl 0x3
  else if s.rd F.RT_FABLEVEL_LOCAL [] < leAt img 7 1 then .inl 0x4
  else match firstGap (have_.map (fun x => (x.base, x.codeSize))) code 16384 with
  | none => .inl 0x5
  | some base =>
    if have_.any (fun x => x.vGrant &&& v != 0 || x.mGrant &&& m != 0 || x.tGrant &&& tg != 0) then .inl 0x6
    else match firstRanges per 512 threads (have_.map ImageSlot.spans).flatten with
    | none => .inl 0x7
    | some ranges =>
      if 128 < threads + (have_.map (fun x => x.threads)).foldl (· + ·) 0 then .inl 0x8
      else if !(s.plateAdmits t (.burin t)) || (decide (0 < size) && s.closed (plateBase + t * plateSize + off) size) then .inl 0x9
      else .inr ⟨.loaded, base, code, threads, per, ranges, leAt img 6 1, leAt img 0x1E 2, leAt img 0x20 4, v, m, tg, off, size,
        leAt img 0x28 8⟩

/-- R119, R576: an image that passes every check is loaded and logged. -/
def State.imgFill (s : State) (t k : Nat) (img : List Byte) (sl : ImageSlot) : State :=
  let word (i : Nat) : BitVec 128 := BitVec.ofNat 128 (leAt img (0x80 + 16 * i) 16)
  let s := s.updTile t (fun tl =>
    let tl := (tl.setSlot k sl).zeroGrant sl.vGrant sl.mGrant sl.tGrant
    { tl with istore := (List.range sl.codeSize).foldl (fun m i => Tbl.put (sl.base + i) (word i) m) tl.istore })
  let s := s.writeMem (plateBase + t * plateSize + sl.dataOff) ((img.drop (0x80 + 16 * sl.codeSize)).take sl.dataSize)
  let msg := beBytes 48 s.sec.imageLog ++ beBytes 48 (hashNat (img.take (img.length - 96))) ++ leBytes 1 t ++ leBytes 1 k
  let s := { s with sec := { s.sec with imageLog := hashNat msg, imageLoads := s.sec.imageLoads + 1 } }
  s.imgEnd t k 0

/-- R119: a LOAD that fails changes nothing. -/
def State.imgFail (s : State) (t k result : Nat) : State :=
  (s.updTile t (fun tl => tl.setSlot k ImageSlot.fresh)).imgEnd t k result

/-- A range of an image as LOAD reads it: HBM and DDR5 only (R125). -/
def State.imgRead (s : State) (a n : Nat) (ecc : Ecc) : Option (List Byte) × State :=
  if s.rangeWin a n == some .hbm || s.rangeWin a n == some .ddr then
    let r := s.readMem a n ecc
    (if r.2.1.isEmpty then some r.1 else none, r.2.2)
  else (none, s)

/-- R117 to R119: the image of a LOAD in progress has been read. -/
def State.imgLoadDone (s : State) (t : Nat) (ecc : Ecc) : State :=
  match (s.tile t).imgCmd with
  | none => s
  | some (k, src, _) =>
    let s := s.updTile t (fun tl => { tl with imgCmd := none })
    let h := s.imgRead src 128 ecc
    match h.1 with
    | none => h.2.imgFail t k 0xB
    | some hb =>
      if !sizesOk hb then h.2.imgFail t k 0x1
      else
        let r := h.2.imgRead src (128 + 16 * leAt hb 8 4 + leAt hb 0xC 4 + 96) ecc
        match r.1 with
        | none => r.2.imgFail t k 0xB
        | some img =>
          if !headerOk hb then r.2.imgFail t k 0x1
          else match r.2.imgPlace t img with
            | .inl e => r.2.imgFail t k e
            | .inr sl => r.2.imgFill t k img sl

/-- R120: the image's threads start on the lowest FREE hardware threads. -/
def Tile.startThreads (tl : Tile) (t k arg : Nat) : Tile :=
  let sl := tl.slot k
  let free := (List.range 128).filter (fun n => (tl.thread n).st = .free)
  ((free.take sl.threads).zip (List.range sl.threads)).foldl (fun (tl : Tile) p =>
    let base := nth 0 sl.ranges p.2
    let th := { Thread.fresh with
      st := .ready, slot := k, idx := p.2, pc := sl.entry, tkBase := base, tkCount := sl.perThread }
    tl.setThread p.1 (((th.setS 0 p.2).setS 1 t).setS 2 arg)) (tl.setSlot k { sl with st := .running })

/-- R119, R120: START. -/
def State.imgStart (s : State) (t k : Nat) : State :=
  let sl := (s.tile t).slot k
  if sl.st ≠ .loaded then s.imgEnd t k 0xA
  else if bitOf sl.flags 0 && !(s.on F.GLB_MODE_DETERM []) then s.imgEnd t k 0xC
  else (s.tileStep t (fun tl => tl.startThreads t k (s.rd F.TILE_START_ARG_ARG [t]))).imgEnd t k 0

/-- R121: STOP tells the slot's threads to end. -/
def State.imgStop (s : State) (t k : Nat) : State :=
  if ((s.tile t).slot k).st ≠ .running then s.imgEnd t k 0xA
  else (s.tileStep t (fun tl => tl.stopSlot k)).imgEnd t k 0

/-- R121: UNLOAD releases the slot and zeroes its registers. -/
def State.imgUnload (s : State) (t k : Nat) : State :=
  let sl := (s.tile t).slot k
  if sl.st ≠ .loaded then s.imgEnd t k 0xA
  else (s.updTile t (fun tl => (tl.zeroGrant sl.vGrant sl.mGrant sl.tGrant).setSlot k ImageSlot.fresh)).imgEnd t k 0

/-- R119, R124, R607: GO of TILE_IMG_CMD. -/
def State.imgGo (s : State) (t : Nat) : State :=
  let k := s.rd F.TILE_IMG_CMD_SLOT [t]
  match s.rd F.TILE_IMG_CMD_OP [t] with
  | 0 => s
  | 1 => s.imgLoad t k
  | 2 => s.imgStart t k
  | 3 => s.imgStop t k
  | 4 => s.imgUnload t k
  | _ => s.imgEnd t k 0xD

/-- R124: a write of TILE_IMG_CMD; GO while BUSY is ignored with the whole write. -/
def State.imgCmdWrite (s : State) (t v : Nat) : State :=
  if bitOf v 8 && s.on F.TILE_IMG_STATUS_BUSY [t] then s.wr F.TILE_IMG_STATUS_CMD_LOST [t] 1
  else
    let s := s.swWrite .tileImgCmd [t] v
    if bitOf v 8 then s.imgGo t else s

/-! ### The watchdog (R123) -/

/-- R123: the watchdog fires: a thread is READY and the watchdog runs. -/
def State.tileWatchdog (s : State) (t : Nat) : State :=
  if s.rd F.TILE_WDOG_PERIOD [t] ≠ 0 ∧ !(s.inReset 0 t) ∧ (s.tile t).threads.any (fun e => e.2.st = .ready) then
    (s.stick F.TILE_CORE_STATUS_WDOG_FIRED [t]).report ⟨tileDie t, 3, 0x16, t, t, 0, false, false, false⟩
  else s

end Sys2Proof.Machine
end

