-- ==== Sys2Proof/Machine/Pause.lean ====
section
/-! DEFINITION. Pause, save and resume of a communicator (R540 to R548, R556). The body of a save record is the model's own
layout (log 35): the state of each collective as a row of 64-bit words. -/
namespace Sys2Proof.Machine

/-! ### The body of a record: words -/

/-- A list behind its length. -/
def encList {α : Type} (f : α → List Nat) (l : List α) : List Nat := l.length :: (l.map f).flatten

/-- Bytes behind their count, eight to a word. -/
def encBytes (bs : List Byte) : List Nat := bs.length :: (List.range (ceilDiv bs.length 8)).map (fun i => leAt bs (8 * i) 8)

/-- A value in one word: its kind, sign, exponent and significand. -/
def encVal (v : Val) : Nat :=
  match v with
  | .int z => 1 + 8 * wrapInt z 33
  | .acc (.zero n) => 2 + 8 * b2n n
  | .acc (.inf n) => 3 + 8 * b2n n
  | .acc .nan => 4
  | .acc (.fin n e s) => 5 + 8 * b2n n + 16 * (e + 1024).toNat + s * 2 ^ 20

/-- The runs of consecutive numbers that make up a set. -/
def runsOf (l : List Nat) : List (Nat × Nat) :=
  (l.foldl (fun t n => Tbl.put n () t) ([] : Tbl Unit)).foldr (fun (e : Nat × Unit) rs =>
    match rs with
    | (a, n) :: more => if e.1 + 1 = a then (e.1, n + 1) :: more else (e.1, 1) :: rs
    | [] => [(e.1, 1)]) []

/-- A set of numbers by its runs. -/
def encSet (l : List Nat) : List Nat := encList (fun r => [r.1, r.2]) (runsOf l)

/-- A set of numbers 16 × chunk + member, by the runs of each member's chunks. -/
def encSet16 (l : List Nat) : List Nat := encSet (l.map (fun n => n % 16 * 2 ^ 48 + n / 16))

/-- A staged message. -/
def encStaged (st : Staged) : List Nat :=
  [st.seq, st.chunk, st.kind, st.level, st.dir, st.who, b2n st.bad, b2n st.agree, st.flags] ++ encBytes st.data

/-- A part of a generation. -/
def encPart (p : Part) : List Nat :=
  [p.gen, p.level, b2n p.bad, p.flags] ++ encList (fun v => [encVal v]) p.vals ++ encBytes p.data

/-- A message that is still to leave: for a ring its destination is a position, as the record may move to another switch. -/
def encOutgo (c : Comm) (o : Outgo) : List Nat :=
  let ids := (c.lv o.level).ids
  let pos := if o.level = 0 then 0 else ((List.range ids.length).find? (fun q => nth 1024 ids q == o.base.dst / 64)).getD 0
  [o.level, o.dir, o.path, o.base.kind, o.base.cls, o.base.chunk, o.base.opseq, o.base.arg, o.base.flags, pos, o.own.kind,
    o.own.c] ++ encBytes o.data

/-- A member's account. -/
def encMem (m : MemSt) : List Nat := [m.bad, m.first, m.last, m.dropped, m.padded]

/-- A collective with its messages that are still to leave. -/
def encColl (c : Comm) (x : Coll) : List Nat :=
  let outs := c.outs.filter (fun o => o.own.b == x.seq && (o.own.kind == 2 || o.own.kind == 7))
  [x.seq, x.op, x.fmt.code, x.red, x.rm, x.count, x.root, x.gens, x.flags, b2n x.poisonIn + 2 * b2n x.good, b2n (x.stage == 1)] ++
  encList encStaged x.staged ++ encList (fun e => [e.1, e.2.1, e.2.2]) x.ended ++ encSet16 x.held ++
  encList (fun e => [e.1, e.2]) x.blocks ++ encList encPart x.parts ++ encSet x.upDone ++
  encSet x.seen ++ encSet x.badGens ++ encSet16 x.acked ++
  encList (fun n => [n]) x.spoiled ++ encList encMem x.mems ++ encList (encOutgo c) outs

/-- The next word of a record; 0 beyond its end. -/
def decN (w : List Nat) : Nat × List Nat := (w.head?.getD 0, w.tail)

/-- `n` things in a row. -/
def decMany {α : Type} (f : List Nat → α × List Nat) : Nat → List Nat → List α × List Nat
  | 0, w => ([], w)
  | n + 1, w =>
    let a := f w
    let r := decMany f n a.2
    (a.1 :: r.1, r.2)

/-- A list behind its length. -/
def decList {α : Type} (f : List Nat → α × List Nat) (w : List Nat) : List α × List Nat :=
  decMany f (min (decN w).1 w.length) (decN w).2

/-- Bytes behind their count. -/
def decBytes (w : List Nat) : List Byte × List Nat :=
  let n := min (decN w).1 (8 * w.length)
  let r := decMany decN (ceilDiv n 8) (decN w).2
  (((r.1.map (leBytes 8)).flatten).take n, r.2)

/-- A value's word. -/
def decVal (n : Nat) : Val :=
  match n % 8 with
  | 1 => .int (sextOf (n / 8) 33)
  | 2 => .acc (.zero (bitOf n 3))
  | 3 => .acc (.inf (bitOf n 3))
  | 5 => .acc (.fin (bitOf n 3) ((fieldOf n 4 16 : Nat) - 1024 : Int) (n / 2 ^ 20))
  | _ => .acc .nan

/-- The words at the front of a record by their places. -/
def decFields (k : Nat) (w : List Nat) : List Nat × List Nat := decMany decN k w

/-- A staged message; its credit is not returned. -/
def decStaged (w : List Nat) : Staged × List Nat :=
  let f := decFields 9 w
  let g (i : Nat) : Nat := nth 0 f.1 i
  let b := decBytes f.2
  (⟨g 0, g 1, g 2, g 3, g 4, g 5, fromRecord, b.1, g 6 == 1, g 7 == 1, g 8, false⟩, b.2)

/-- A part of a generation. -/
def decPart (w : List Nat) : Part × List Nat :=
  let f := decFields 4 w
  let vs := decList decN f.2
  let b := decBytes vs.2
  (⟨nth 0 f.1 0, nth 0 f.1 1, vs.1.map decVal, b.1, nth 0 f.1 2 == 1, nth 0 f.1 3⟩, b.2)

/-- A message that is still to leave; its destination holds a position until the second launch. -/
def decOutgo (comm seq : Nat) (w : List Nat) : Outgo × List Nat :=
  let f := decFields 12 w
  let g (i : Nat) : Nat := nth 0 f.1 i
  let b := decBytes f.2
  let p := { Pkt.make (g 3) (g 4) (g 9) 0 with chunk := g 5, opseq := g 6, arg := g 7, flags := g 8 }
  (⟨g 0, g 1, g 2, p, b.1, ⟨g 10, comm, seq, g 11⟩⟩, b.2)

/-- A member's account. -/
def decMem (w : List Nat) : MemSt × List Nat :=
  let f := decFields 5 w
  (⟨nth 0 f.1 0, nth 0 f.1 1, nth 0 f.1 2, nth 0 f.1 3, nth 0 f.1 4, 0⟩, f.2)

/-- Two words. -/
def decPair (w : List Nat) : (Nat × Nat) × List Nat := let f := decFields 2 w; ((nth 0 f.1 0, nth 0 f.1 1), f.2)
/-- Three words. -/
def decTriple (w : List Nat) : (Nat × Nat × Nat) × List Nat :=
  let f := decFields 3 w
  ((nth 0 f.1 0, nth 0 f.1 1, nth 0 f.1 2), f.2)

/-- A set of numbers from its runs. -/
def decSet (w : List Nat) : List Nat × List Nat :=
  let r := decList decPair w
  ((r.1.map (fun e => (List.range (min e.2 (2 ^ 32))).map (· + e.1))).flatten, r.2)

/-- A set of numbers 16 × chunk + member. -/
def decSet16 (w : List Nat) : List Nat × List Nat :=
  let r := decSet w
  (r.1.map (fun n => n % 2 ^ 48 * 16 + n / 2 ^ 48), r.2)

/-- A collective with its messages that are still to leave. -/
def decColl (comm : Nat) (w : List Nat) : (Coll × List Outgo) × List Nat :=
  let f := decFields 11 w
  let g (i : Nat) : Nat := nth 0 f.1 i
  let staged := decList decStaged f.2
  let ended := decList decTriple staged.2
  let held := decSet16 ended.2
  let blocks := decList decPair held.2
  let parts := decList decPart blocks.2
  let upDone := decSet parts.2
  let seen := decSet upDone.2
  let bad := decSet seen.2
  let acked := decSet16 bad.2
  let spoiled := decList decN acked.2
  let mems := decList decMem spoiled.2
  let outs := decList (decOutgo comm (g 0)) mems.2
  let x : Coll :=
    { seq := g 0, op := g 1, fmt := (Fmt.ofCode (g 2)).getD .w32, red := g 3, rm := g 4, count := g 5, root := g 6,
      home := 0, entry := 0, sb := 0, sc := 0, sf := 0, start := 0, gens := g 7, dbytes := [], fin := none,
      poisonIn := g 9 % 2 == 1, good := bitOf (g 9) 1, stage := 0, staged := staged.1, ended := ended.1, held := held.1, blocks := blocks.1,
      parts := parts.1, upDone := upDone.1, seen := seen.1, badGens := bad.1, flight := [], acked := acked.1, spoiled := spoiled.1,
      mems := mems.1, flags := g 8, land := [], used := [], y := [], disp := none, comb := none, resumed := true,
      wasDone := g 10 == 1 }
  ((x, outs.1), outs.2)

/-! ### The record (R545) -/

/-- R545: an entry of OPLIST. -/
def opEntry (x : Coll) (done : Bool) : List Byte :=
  leBytes 1 x.op ++ leBytes 1 (if done then 2 else 1) ++ leBytes 1 (x.fmt.code + 16 * x.red) ++ leBytes 1 x.rm ++ leBytes 4 0 ++
  leBytes 8 x.count

/-- How far a number lies behind the next one of a communicator. -/
def Comm.ahead (c : Comm) (seq : Nat) : Nat := (seq + 2 ^ 32 - c.next) % 2 ^ 32

/-- A collective among others in the order of their numbers. -/
def Comm.insertOp (c : Comm) (x : Coll) : List Coll → List Coll
  | [] => [x]
  | y :: ys => if c.ahead x.seq < c.ahead y.seq then x :: y :: ys else y :: c.insertOp x ys

/-- R545: the collectives that a record holds in the order of their numbers, at most eight: those accepted, and before them the
last ones that completed here in a row, which are DONE (log 35). -/
def Comm.recorded (c : Comm) : List (Coll × Bool) :=
  let past := (c.past.drop (c.past.length + c.ops.length - 8)).map (fun x => (x, true))
  (past ++ (c.ops.foldl (fun l x => c.insertOp x l) []).map (fun x => (x, false))).take 8

/-- R545: the record's header, with a CRC. -/
def Comm.saveHeader (c : Comm) (savedAt bytes crc : Nat) : List Byte :=
  let d := c.desc
  let rs := c.recorded
  leBytes 4 0x56415350 ++ leBytes 2 1 ++ leBytes 1 d.level ++ leBytes 1 (b2n c.determ) ++ leBytes 4 d.id ++
  leBytes 1 rs.length ++ leBytes 3 0 ++ leBytes 4 (match rs with | r :: _ => r.1.seq | [] => c.next) ++ leBytes 4 0 ++
  leBytes 8 savedAt ++ leBytes 8 bytes ++ leBytes 4 crc ++ leBytes 4 0 ++
  (d.levels.map (fun l => leBytes 1 l.size ++ leBytes 1 l.pos)).flatten ++ leBytes 1 d.members.length ++ leBytes 1 0 ++
  (d.members.map (fun m => leBytes 2 m.rank)).flatten ++ List.replicate (32 - 2 * d.members.length) 0 ++
  leBytes 4 d.chunk ++ leBytes 1 d.wire ++ leBytes 3 0 ++ leBytes 8 d.seed ++ List.replicate 24 0 ++
  (rs.map (fun r => opEntry r.1 r.2)).flatten ++ List.replicate (128 - 16 * rs.length) 0

/-- R545: a save record; contributions that came before their launch are in it too. -/
def Comm.saveRecord (c : Comm) (savedAt : Nat) : List Byte :=
  let early := c.early.filter (fun st => c.ahead st.seq < 8)
  let body := ((encList (fun r => encColl c r.1) c.recorded ++ encList encStaged early).map (leBytes 8)).flatten
  let body := body ++ List.replicate (roundUp body.length 64 - body.length) 0
  let n := 256 + body.length
  let crc := crc32c (c.saveHeader savedAt n 0 ++ body)
  c.saveHeader savedAt n crc ++ body

/-! ### Commands (R540 to R546, R556) -/

/-- R540, R541, R546, R607: GO of GLB_PAUSE_CMD. OUTSTANDING of a RESUME is found before the record is read, and again when it
has been loaded (DEDUCED, log 66). -/
def State.pauseGo (s : State) : State :=
  let op := s.rd F.GLB_PAUSE_CMD_OP []
  let id := s.rd F.GLB_PAUSE_CMD_COMM_ID []
  if op = 0 then s
  else if op = 3 then s.pauseEnd 1 0 0
  else match s.comm id with
    | none => s.pauseEnd 2 0 0
    | some c =>
      if c.st ≠ 2 then s.pauseEnd 2 0 0
      else if op = 1 then
        let at_ := s.rd F.GLB_PAUSE_AT_AT []
        if c.desc.express ∨ c.ops.any (fun x => !pausable x.op) then s.pauseEnd 3 0 0
        else if at_ < s.now then s.pauseEnd 4 0 0
        else
          let p : PauseSt := ⟨at_, max 500 (s.rd F.GLB_PAUSE_CMD_QUIET_US []), s.rd F.GLB_PAUSE_ARG_ADDR [], false, none⟩
          let s := (s.setComm { c with pause := some p }).wr F.GLB_PAUSE_STATUS_BUSY [] 1
          { s with cs := { s.cs with pausing := some (1, id, p.area) } }
      else if !c.ops.isEmpty then s.pauseEnd 5 0 0
      else
        let s := s.wr F.GLB_PAUSE_STATUS_BUSY [] 1
        { s with cs := { s.cs with pausing := some (2, id, s.rd F.GLB_PAUSE_ARG_ADDR []) } }

/-- R542: the count reaches AT: no credit, no step and no new packet any more. -/
def State.pauseAt (s : State) (id : Nat) : State :=
  s.onComm id (fun s c =>
    match c.pause with
    | some p => if p.at_ ≤ s.now then s.setComm { c with pause := some { p with held := true } } else s
    | none => s)

/-- R542: whether a packet of a communicator is still retained, or waits for its number. -/
def State.retains (s : State) (id : Nat) : Bool :=
  s.fab.streams.any (fun x => x.key.comm == id && 2 ≤ x.key.cls && x.key.cls ≤ 5 && !(x.retained.isEmpty && x.waiting.isEmpty))

/-- R542: the save starts. -/
def State.pauseSaveStart (s : State) (id : Nat) : State :=
  s.onComm id (fun s c =>
    match c.pause with
    | some p =>
      if p.held ∧ p.savedAt.isNone ∧ p.at_ + p.quiet * 1000 ≤ s.now ∧ !s.retains id then
        s.setComm { c with pause := some { p with savedAt := some s.now } }
      else s
    | none => s)

/-- R542: a save that cannot be written fails, and the communicator goes on. -/
def State.saveFails (s : State) (id : Nat) : State :=
  s.onComm id (fun s c => ((s.setComm { c with pause := none }).pauseEnd 9 0 0).owe (.advance id))

/-- R542, R543: the record is written and confirmed: every accepted collective completes with PAUSED. A record never takes more
than the area of R541; a larger one is not written (log 35). -/
def State.pauseSaveDone (s : State) (id : Nat) : State :=
  s.onComm id (fun s c =>
    match c.pause.bind (fun p => p.savedAt.map (fun a => (p, a))) with
    | none => s
    | some (p, a) =>
      let rec_ := c.saveRecord a
      let need := 65536 + 2 * c.desc.quota * 1024
      if p.area % 64 ≠ 0 ∨ need < rec_.length ∨ s.rangeWin p.area need ≠ some .ddr ∨ !s.machineUp (machineDie p.area) then
        s.saveFails id
      else
        let s := s.writeMem p.area rec_
        let out (x : Coll) : Coll := { x with fin := some cPAUSED, staged := [], flight := [] }
        let c' := { c with
          pause := none, past := [], outs := [], asm := [], early := [], ops := c.ops.map out }
        ((s.setComm c').pauseEnd 0 c.recorded.length rec_.length).advanceComm id)

/-- R546: a record is checked against its communicator. -/
def recordMatches (c : Comm) (h : List Byte) : Bool :=
  let d := c.desc
  let w := c.saveHeader 0 0 0
  let same (off n : Nat) : Bool := (h.drop off).take n == (w.drop off).take n
  leAt h 8 4 == d.id && leAt h 6 1 == d.level && leAt h 7 1 == b2n c.determ && same 0x30 6 && same 0x36 1 && same 0x38 32 &&
  leAt h 0x58 4 == d.chunk && leAt h 0x5C 1 == d.wire && leAt h 0x60 8 == d.seed

/-- R546: the record is loaded, and every member's and ring stream's credits are brought to WINDOW. -/
def State.resumeLoadDone (s : State) (ecc : Ecc) : State :=
  match s.cs.pausing with
  | some (2, id, a) =>
    (match s.comm id with
     | none => s.pauseEnd 2 0 0
     | some c =>
       if c.st ≠ 2 then s.pauseEnd 2 0 0
       else if a % 64 ≠ 0 ∨ s.rangeWin a 256 ≠ some .ddr then s.pauseEnd 9 0 0
       else
         let h := s.readMem a 256 ecc
         let s := h.2.2
         let n := leAt h.1 0x20 8
         if !h.2.1.isEmpty then s.pauseEnd 9 0 0
         else if leAt h.1 0 4 ≠ 0x56415350 ∨ leAt h.1 4 2 ≠ 1 ∨ n < 256 ∨ s.rangeWin a n ≠ some .ddr then s.pauseEnd 6 0 0
         else
           let r := s.readMem a n ecc
           let s := r.2.2
           if !r.2.1.isEmpty then s.pauseEnd 9 0 0
           else if crc32c (r.1.take 0x28 ++ leBytes 4 0 ++ r.1.drop 0x2C) ≠ leAt h.1 0x28 4 then s.pauseEnd 6 0 0
           else if !recordMatches c h.1 then s.pauseEnd 7 0 0
           else if !c.ops.isEmpty then s.pauseEnd 5 0 0
           else
             let words := (List.range ((n - 256) / 8)).map (fun i => leAt r.1 (256 + 8 * i) 8)
             let colls := decList (decColl id) words
             let saved := colls.1
             let early := (decList decStaged colls.2).1
             let first := leAt h.1 0x10 4
             let cred := (c.rings.map (fun l => (List.range 4).map (fun k => (8 * l + k, c.desc.window)))).flatten
             let c := { c with saved := saved, early := early, next := first, barred := [], cred := cred }
             let c := c.members.foldl (fun (c : Comm) m =>
               let lack := c.desc.window - Tbl.look 0 c.memCred m.1
               if m.2.ep = 0xFF ∨ lack = 0 then c
               else c.post ⟨0, 0, 0, s.toAddr c kCREDIT 3 16 (s.memAddr c m.1) 0 0 lack, [], ⟨8, id, 0, m.1⟩⟩) c
             ((s.setComm c).pauseEnd 0 saved.length n).advanceComm id)
  | _ => s

/-- R444, R453: a datamover has stopped: what the machinery's channels of it had in work fails: page-ins, and a save. -/
def State.machineryStop (s : State) (d : Nat) : State :=
  let s := (List.range 16).foldl (fun (s : State) n =>
    if s.rd F.GLB_GATE_SLOT_STATE [n] = 1 ∧ machineDie (s.gate n).src = d then s.pageInEnd n 5 [] else s) s
  s.cs.comms.foldl (fun (s : State) (e : Nat × Comm) => match e.2.pause with
    | some p => if p.savedAt.isSome ∧ machineDie p.area = d then s.saveFails e.1 else s
    | none => s) s

/-- R453: a step of a datamover, and what it means for the machinery's channels when it stops the datamover. -/
def State.dmStep (s : State) (d : Nat) (f : State → State) : State :=
  let t := f s
  if s.machineUp d && !t.machineUp d then t.machineryStop d else t

end Sys2Proof.Machine
end

