-- ==== Sys2Proof/Machine/Rings.lean ====
section
/-! DEFINITION. Stylus ports and rings: link states (R464, R474, R493), device writes and their acknowledgement (R467,
R473, R480, R481), doorbells (R483), message interrupts (R484, R485) and the ring registers (R475, R495, R496). -/
namespace Sys2Proof.Machine

/-! ### Message interrupts -/

/-- R484: records past HEAD that have reached the shadow. -/
def State.cqReached (s : State) (n : Nat) : Nat :=
  let head := s.rd F.GLB_CQ_IDX_HEAD [n]
  let c := ((s.cqSt n).shadow + 65536 - head) % 65536
  if c ≤ (s.rd F.GLB_CQ_IDX_TAIL [n] + 65536 - head) % 65536 then c else 0

/-- R485: one MSI, after which the ring is disarmed; while no port is UP it waits. -/
def State.sendMsi (s : State) (n : Nat) : State :=
  let p := s.cqPort n
  if s.stylusUp p then
    ((s.emit (.stylus p 6 0 0 8 0 0
      (leBytes 8 (s.rd F.GLB_CQ_CFG_VECTOR [n] + n <<< 16 + (s.cqSt n).shadow <<< 32)))).wr F.GLB_CQ_CFG_ARMED [n] 0).updCq n
      (fun c => { c with late := false })
  else s

/-- The ring's interrupt is armed and some record has reached the shadow. -/
def State.cqDue (s : State) (n : Nat) : Bool :=
  s.on F.GLB_CQ_CFG_EN [n] && s.on F.GLB_CQ_CFG_ARMED [n] && s.on F.GLB_CQ_CFG_IRQ_EN [n] && decide (0 < s.cqReached n)

/-- R484: the decision taken when a record reaches the shadow, when the ring is armed and when its settings change. -/
def State.cqIrq (s : State) (n : Nat) : State :=
  if s.cqDue n ∧ (max 1 (s.rd F.GLB_CQ_CFG_MOD_COUNT [n]) ≤ s.cqReached n ∨ s.rd F.GLB_CQ_CFG_MOD_US [n] = 0 ∨ (s.cqSt n).late) then
    s.sendMsi n
  else s

/-- R484: MOD_US has passed since the oldest uncovered record reached the shadow; while no port is UP the interrupt stays due. -/
def State.modExpire (s : State) (n : Nat) : State :=
  if s.cqDue n then (if s.stylusUp (s.cqPort n) then s.sendMsi n else s.updCq n (fun c => { c with late := true })) else s

/-! ### Device writes -/

/-- R481: the shadow write, at most one of a ring outstanding. -/
def State.sendShadow (s : State) (n : Nat) : State :=
  let tail := s.rd F.GLB_CQ_IDX_TAIL [n]
  if (s.cqSt n).shadowOut ∨ (s.cqSt n).shadow = tail then s
  else (s.updCq n (fun c => { c with shadowOut := true })).sendMwr (s.cqPort n) (s.rd F.GLB_CQ_SHADOW_ADDR [n])
    (leBytes 8 (tail + n <<< 16)) (.shadow n tail)

/-- R480: TAIL advances over the records acknowledged. -/
def State.advanceTail (s : State) (n : Nat) : Nat → State
  | 0 => s
  | fuel + 1 =>
    let tail := s.rd F.GLB_CQ_IDX_TAIL [n]
    if (s.cqSt n).acked.contains tail then
      ((s.updCq n (fun c => { c with acked := c.acked.filter (fun i => i != tail) })).wr F.GLB_CQ_IDX_TAIL [n]
        ((tail + 1) % 65536)).advanceTail n fuel
    else s

/-- The ring a device write belongs to. -/
def MwrWhy.ring : MwrWhy → Nat
  | .record n _ _ => n
  | .shadow n _ => n

/-- R467, R472: writes that waited for a tag or a port leave on their ring's port. -/
def State.sendWaiting (s : State) : State :=
  let w := s.stylus.wait
  w.foldl (fun s o => s.sendMwr (s.cqPort o.why.ring) o.addr o.data o.why) { s with stylus := { s.stylus with wait := [] } }

/-- R480, R481: a WRACK arrives. -/
def State.wrack (s : State) (port tag : Nat) : State :=
  match s.stylus.out.find? (fun o => o.port == port && o.tag == tag) with
  | none => s
  | some o =>
    let s := { s with stylus := { s.stylus with out := s.stylus.out.filter (fun x => !(x.port == port && x.tag == tag)) } }
    let s := match o.why with
      | .record n i notify =>
        let s := if i < 65536 then s.updCq n (fun c => { c with acked := c.acked ++ [i] }) else s
        let s := (s.advanceTail n ((s.cqSt n).acked.length)).sendShadow n
        (match notify with
         | some (t, e) => s.endComm t e 0 0
         | none => s)
      | .shadow n tail =>
        if 65536 ≤ tail then s
        else ((s.updCq n (fun c => { c with shadowOut := false, shadow := tail })).cqIrq n).sendShadow n
    s.sendWaiting

/-- R467, R473: a write sent again, on the other port if its own is down and that one takes it. With neither it is not sent. -/
def State.sendAgain (s : State) (o : MwrOut) : State :=
  if !s.stylusUp o.port ∧ !s.stylusTakes (1 - o.port) then s
  else
  let p := if s.stylusUp o.port then o.port else 1 - o.port
  let n := { o with port := p, sends := o.sends + 1 }
  let s := { s with stylus := { s.stylus with out := s.stylus.out.map (fun (x : MwrOut) => if x.tag == o.tag then n else x) } }
  (s.stylusCount p 3).emitMwr n

/-- R473: ACK_US has passed without WRACK: the write is sent again, or its ring is STALLED after eight sends. -/
def State.mwrResend (s : State) (port tag : Nat) : State :=
  match s.stylus.out.find? (fun o => o.port == port && o.tag == tag) with
  | none => s
  | some o => if 8 ≤ o.sends then s.wr F.GLB_CQ_CFG_STALLED [o.why.ring] 1 else s.sendAgain o

/-- R473: a doorbell clears STALLED, and the ring's writes are sent again. -/
def State.unstall (s : State) (n : Nat) : State :=
  if s.on F.GLB_CQ_CFG_STALLED [n] then
    (s.stylus.out.filter (fun o => o.why.ring == n && decide (8 ≤ o.sends))).foldl
      (fun s o => s.sendAgain { o with sends := 0 }) (s.wr F.GLB_CQ_CFG_STALLED [n] 0)
  else s

/-! ### Doorbells -/

/-- R483: a doorbell refused. -/
def State.badDb (s : State) (f : Fld) (n : Nat) (en : Bool) : State := (if en then s.stick f [n] else s).stylusCount 0 1

/-- R475, R476, R483: a submission doorbell. A mailbox address outside the consumer's plate, off an 8-byte boundary or in the
sealed window, into which only the security block writes (R428), is not written (DESIGN CHOICE, log 68). -/
def State.dbSub (s : State) (n index : Nat) : State :=
  let en := s.on F.GLB_SQ_CFG_EN [n]
  let tile := s.on F.GLB_SQ_CFG_CONSUMER [n]
  let from_ := if tile then s.rd F.GLB_SQ_IDX_TAIL [n] else s.rd F.GLB_SQ_IDX_HEAD [n]
  if !en || decide (ringEntries (s.rd F.GLB_SQ_CFG_ENTRIES_LOG2 [n]) < (index + 65536 - from_) % 65536) then
    s.badDb F.GLB_SQ_CFG_ERR n en
  else
    let s := s.wr F.GLB_SQ_IDX_TAIL [n] index
    if tile then
      let k := (Tbl.look 0 s.stylus.doorbells n + 1) % 2 ^ 48
      let s := { s with stylus := { s.stylus with doorbells := Tbl.put n k s.stylus.doorbells } }
      let a := s.rd F.GLB_SQ_MAILBOX_ADDR [n]
      let home := plateBase + s.rd F.GLB_SQ_CFG_TILE [n] * plateSize
      if a % 8 = 0 ∧ home ≤ a ∧ a < home + plateSize ∧ !(s.rd F.GLB_SQ_CFG_TILE [n] % 16 = 0 ∧ a < home + 0x80000) then s.writeMem a (leBytes 8 (index + k <<< 16)) else s
    else s

/-- R473, R483 to R485, R501: a completion doorbell. -/
def State.dbCpl (s : State) (n index : Nat) (arm : Bool) : State :=
  let en := s.on F.GLB_CQ_CFG_EN [n]
  let tail := s.rd F.GLB_CQ_IDX_TAIL [n]
  let head := s.rd F.GLB_CQ_IDX_HEAD [n]
  if !en || decide ((tail + 65536 - head) % 65536 < (tail + 65536 - index) % 65536) then s.badDb F.GLB_CQ_CFG_ERR n en
  else
    let s := (s.wr F.GLB_CQ_IDX_HEAD [n] index).unstall n
    let s := if s.cqReached n = 0 then s.updCq n (fun c => { c with late := false }) else s
    let s := if arm && s.on F.GLB_CQ_CFG_IRQ_EN [n] then s.wr F.GLB_CQ_CFG_ARMED [n] 1 else s
    (s.cqIrq n).owe .rings

/-- R483: a doorbell's eight bytes. -/
def State.doorbell (s : State) (v : Nat) : State :=
  if bitOf v 12 then s.dbCpl (v % 4096) (fieldOf v 16 16) (bitOf v 13) else s.dbSub (v % 4096) (fieldOf v 16 16)

/-! ### Links -/

/-- R493: STATE of a stylus port. -/
def State.setStylus (s : State) (p st : Nat) : State :=
  if s.rd F.GLB_STYLUS_STATUS_STATE [p] = st then s
  else (s.wr F.GLB_STYLUS_STATUS_STATE [p] st).stickEv F.GLB_STYLUS_STATUS_CHANGED [p]

/-- An asker whose port has gone down waits no longer (R474). -/
def BpAsker.without (w : BpAsker) (p : Nat) : BpAsker :=
  match w with
  | .stylus q t => if q = p then .nobody else .stylus q t
  | x => x

/-- R474, R491: a port leaves UP: requests in flight on it are lost. -/
def State.stylusLeave (s : State) (p st : Nat) : State :=
  let up := s.stylusUp p
  let x := s.stylus
  let s := { s with
    stylus := { x with backlog := x.backlog.filter (fun b => b.1 != p), fwd := x.fwd.filter (fun f => f.port != p) },
    bp := { s.bp with waits := s.bp.waits.map (fun (w : BpAsker × Nat) => (w.1.without p, w.2)) } }
  let s := s.setStylus p st
  if up && !s.stylusUp (1 - p) && s.i3c.ibiEn then s.emit (.ibi 3) else s

/-- R464, R472: training of a stylus link ends; writes and interrupts that waited for a port leave. -/
def State.stylusLinkUp (s : State) (p : Nat) : State :=
  if s.stylusUp p then s
  else (s.stylus.cq.map (·.1)).foldl (fun s n => s.cqIrq n) (s.setStylus p 2).sendWaiting

/-- R474: a stylus port goes down. -/
def State.stylusLinkDown (s : State) (p : Nat) : State := s.stylusLeave p 0

/-- R493: a write of RETRAIN0 or RETRAIN1 retrains a port. -/
def State.stylusRetrain (s : State) (p : Nat) : State := s.stylusLeave p 1

/-- R466: a transaction's bytes: header, payload and CRC-32C. -/
def wireTxn (ty flags tag len status addr : Nat) (data : List Byte) : List Byte :=
  let b := leBytes 1 ty ++ leBytes 1 flags ++ leBytes 2 tag ++ leBytes 2 len ++ leBytes 1 status ++ [0] ++ leBytes 8 addr ++ data
  b ++ leBytes 4 (crc32c b)

/-- R464, R466: the link flits that something which leaves takes on a stylus port: the transaction's bytes, 64 to a flit, the last
filled up with zeros. -/
def Emit.stylusFlits (p : Nat) (e : Emit) : List (List Byte) :=
  match e with
  | .stylus q ty flags tag len status addr data =>
    if q ≠ p then []
    else
      let b := wireTxn ty flags tag len status addr data
      (pieces 64 (ceilDiv b.length 64) b).map (fun f => f ++ List.replicate (64 - f.length) 0)
  | _ => []

/-- R464: the link flits that the device has sent on a stylus port, with their sequence numbers (log 51). -/
def State.stylusSent (s : State) (p : Nat) : List (Nat × List Byte) :=
  let fs := (s.outbox.map (Emit.stylusFlits p)).flatten
  (List.range fs.length).zip fs |>.map (fun e => (e.1 % 65536, e.2))

/-- R464: a port's replay buffer: the last 256 KiB of link flits that it has sent. -/
def State.replayBuffer (s : State) (p : Nat) : List (Nat × List Byte) :=
  (s.stylusSent p).drop ((s.stylusSent p).length - 4096)

/-- R464, R494: the device replays from a flit that the other end names. -/
def State.stylusReplay (s : State) (p flit : Nat) : State :=
  let n := flit % 65536
  if s.stylusUp p then (s.stylusCount p 4).emit (.stylusReplay p n ((s.replayBuffer p).dropWhile (fun e => e.1 != n))) else s

/-- R464, R465: link flits of completion credit that the device has granted on a port: each of its writes there asks for a WRACK,
which takes one flit (log 51). -/
def State.completionCredit (s : State) (p : Nat) : Nat := (s.stylus.out.filter (fun o => o.port == p)).length

/-! ### Ring registers -/

/-- R493: a write of GLB_STYLUS_CFG. -/
def State.stylusCfgWrite (s : State) (v : Nat) : State :=
  let s := s.swWrite .glbStylusCfg [] v
  let s := if bitOf v 32 then s.stylusRetrain 0 else s
  if bitOf v 33 then s.stylusRetrain 1 else s

/-- R495, R496: a write of a ring's address register is refused while EN is 1. -/
def State.ringAddrWrite (s : State) (r cfg : RegName) (n v : Nat) : State :=
  if bitOf (s.rawReg cfg [n]) (if cfg = .glbSqCfg then 11 else 4) then s.refuse (regAddr r [n]) else s.swWrite r [n] v

/-- R495: a write of GLB_SQ_CFG. -/
def State.sqCfgWrite (s : State) (n v : Nat) : State :=
  let old := s.rawReg .glbSqCfg [n]
  if bitOf old 11 && fieldOf old 0 11 != fieldOf v 0 11 then s.refuse (regAddr .glbSqCfg [n])
  else
    let s := s.swWrite .glbSqCfg [n] v
    if bitOf v 11 && !bitOf old 11 then
      let x := s.stylus
      let s := { s with stylus := { x with
        doorbells := Tbl.del n x.doorbells, polls := x.polls.filter (fun p => p.ring != n),
        mgmtHeld := x.mgmtHeld.filter (fun h => h.ring != n) } }
      (s.wr F.GLB_SQ_IDX_HEAD [n] 0).wr F.GLB_SQ_IDX_TAIL [n] 0
    else s

/-- A device write of a ring that has been enabled again: it no longer counts for the ring. -/
def MwrWhy.stale (w : MwrWhy) (n : Nat) : MwrWhy :=
  match w with
  | .record k i t => if k = n then .record k (if i < 65536 then i + 65536 else i) t else .record k i t
  | .shadow k i => if k = n then .shadow k (if i < 65536 then i + 65536 else i) else .shadow k i

/-- The same of a device write. -/
def MwrOut.stale (n : Nat) (o : MwrOut) : MwrOut := { o with why := o.why.stale n }

/-- R496: a write of GLB_CQ_CFG. -/
def State.cqCfgWrite (s : State) (n v : Nat) : State :=
  let old := s.rawReg .glbCqCfg [n]
  if bitOf old 4 && (fieldOf old 0 4 != fieldOf v 0 4 || fieldOf old 5 1 != fieldOf v 5 1) then s.refuse (regAddr .glbCqCfg [n])
  else
    let s := s.swWrite .glbCqCfg [n] v
    let s := if bitOf v 4 && !bitOf old 4 then
        let x := s.stylus
        let s := { s with stylus := { x with
          cq := Tbl.put n CqSt.fresh x.cq, out := x.out.map (MwrOut.stale n), wait := x.wait.map (MwrOut.stale n) } }
        let s := (s.wr F.GLB_CQ_IDX_HEAD [n] 0).wr F.GLB_CQ_IDX_TAIL [n] 0
        (s.wr F.GLB_CQ_CFG_ARMED [n] 0).wr F.GLB_CQ_CFG_STALLED [n] 0
      else s
    (s.cqIrq n).owe .rings

end Sys2Proof.Machine
end

