-- ==== Sys2Proof/Machine/Block.lean ====
section
/-! DEFINITION. The health block: isolation and block reset (R508 to R510, R525), a UF (R504), the periods and pins of R503
to R507, fault injection (R511, R524), reports of checkers (R498, R501) and the arithmetic self-test (R519). -/
namespace Sys2Proof.Machine

/-! ### Isolation and block reset -/

/-- Instances of an isolation domain (R509, R525). -/
def domainSize (dom : Nat) : Nat := nth 0 [64, 64, 64, 64, 26, 4, 4, 1] dom

/-- R500: the block-reset record of a domain's instance. -/
def blockReport (dom inst cls : Nat) (stuck escalated : Bool) : Report :=
  let die := if dom ≤ 3 then tileDie inst else if dom = 4 then portDie inst else if dom = 7 then 0 else inst
  ⟨die, cls, 0, if dom ≤ 3 then inst else 0, 2 ^ 31 + dom + 16 * inst + (if stuck then 4096 else 0), 0, false, false, escalated⟩

/-- R508: what a tile's operations still have under way in the fabric or toward the control node no longer belongs to a ticket:
a response is discarded. A launched collective runs on without one. -/
def State.disown (s : State) (p : Nat → Bool) : State :=
  let why (o : MwrOut) : MwrOut :=
    match o.why with
    | .record ring idx (some n) => if p n.1 then { o with why := .record ring idx none } else o
    | _ => o
  { s with
    fab := { s.fab with xfers := s.fab.xfers.filter (fun x => !p x.tile) },
    stylus := { s.stylus with out := s.stylus.out.map why, wait := s.stylus.wait.map why },
    cs := { s.cs with comms := s.cs.comms.map (fun (e : Nat × Comm) =>
      (e.1, { e.2 with ops := e.2.ops.map (fun x => if p x.home then { x with entry := 512 } else x) })) } }

/-- R508, R509, domain 0: a burin core is reset: its stores are broken off (R110), and nothing that it had under way reaches a
ticket any more. -/
def State.resetCore (s : State) (t : Nat) : State :=
  (((s.breakStores t).disown (fun u => u == t)).updTile t Tile.resetCore).settlePlates

/-- R509, domain 5: a die's communicate path loses its streams and transfers; its operations end with ISOLATED. -/
def State.resetPath (s : State) (d : Nat) : State :=
  let fab := s.fab
  let s := { s with fab := { fab with
    streams := fab.streams.filter (fun x => x.die != d), rxWait := Tbl.del (26 + d) fab.rxWait } }
  let s := (s.isolateColls (fun x => tileDie x.home == d)).disown (fun u => tileDie u == d)
  ((List.range 16).foldl (fun (s : State) i =>
    s.tileStep (16 * d + i) (fun tl =>
      tl.failAll ((tl.memQ ++ tl.commRun).filter (fun o => o.cls == 5 && [0x20, 0x21, 0x24].contains o.opc)) 0x04)) s).settlePlates

/-- R508, R509: what a domain's instance loses. -/
def State.blockLose (s : State) (dom inst : Nat) : State :=
  match dom with
  | 0 => s.resetCore inst
  | 1 => s.tileStep inst (fun tl => tl.failAll (tl.hatchQ ++ tl.hatchRun) 0x04)
  | 2 => (s.tileStep inst (fun tl => tl.failAll (tl.xhQ ++ tl.xhRun) 0x04)).settlePlates
  | 3 => s.resetSlice inst
  | 4 => s.startTraining inst
  | 5 => s.resetPath inst
  | 6 => (s.dmHalt inst 0).machineryStop inst
  | _ => s.bpReset

/-- R503: one more reset of an instance by a fault; beyond UL_LIMIT it is a UF. -/
def State.countUl (s : State) (dom inst : Nat) : State :=
  let n := ((s.faults.ul.find? (fun (u : Nat × Nat × Nat) => u.1 == dom && u.2.1 == inst)).map (fun u => u.2.2)).getD 0 + 1
  let s := { s with faults := { s.faults with
    ul := (dom, inst, n) :: s.faults.ul.filter (fun (u : Nat × Nat × Nat) => !(u.1 == dom && u.2.1 == inst)) } }
  if s.rd F.FLT_ESC_UL_LIMIT [] < n then s.report (blockReport dom inst 4 false true) else s

/-- R503, R508, R510, R563: an instance is isolated and reset, at a request or by a fault that counts; one in reset already is
not reset again, and during a warm reset the request is discarded. -/
def State.isolateBlock (s : State) (dom inst : Nat) (asked counts : Bool) : State :=
  if s.inReset dom inst ∨ s.inWarm then s
  else
    let s := { s with faults := { s.faults with inReset := s.faults.inReset ++ [InReset.mk dom inst asked] } }
    let s := s.blockLose dom inst
    if counts then s.countUl dom inst else s

/-- R510, R525: GO of FLT_BLKRST. -/
def State.blkrstGo (s : State) : State :=
  let dom := s.rd F.FLT_BLKRST_DOMAIN []
  let inst := s.rd F.FLT_BLKRST_INSTANCE []
  if domainSize dom ≤ inst then s.wr F.FLT_BLKRST_RESULT [] 2
  else if s.inReset dom inst then s.wr F.FLT_BLKRST_RESULT [] 1
  else if s.inWarm then s
  else (s.wr F.FLT_BLKRST_BUSY [] 1).isolateBlock dom inst true false

/-- R525: a write of FLT_BLKRST; its GO is ignored while BUSY. -/
def State.blkrstWrite (s : State) (v : Nat) : State :=
  let busy := s.on F.FLT_BLKRST_BUSY []
  let s := s.swWrite .fltBlkrst [] v
  if bitOf v 14 && !busy then s.blkrstGo else s

/-- A requested reset has ended with a result. -/
def State.blkrstEnd (s : State) (asked : Bool) (result : Nat) : State :=
  if asked then (s.wr F.FLT_BLKRST_BUSY [] 0).wr F.FLT_BLKRST_RESULT [] result else s

/-- R508: the reset time ends: the wrapper admits transfers again, and an event is raised. -/
def State.blockRelease (s : State) (dom inst : Nat) : State :=
  match s.faults.inReset.find? (fun b => b.domain == dom && b.inst == inst) with
  | none => s
  | some b =>
    let s := { s with faults := { s.faults with inReset := s.faults.inReset.filter (fun x => !(x.domain == dom && x.inst == inst)) } }
    let s := (s.blkrstEnd b.asked 0).report (blockReport dom inst 0 false false)
    if dom = 3 then (s.owe .retryAll).owe .reoffer else s

/-- R503: a block has not left reset within twice its reset time. -/
def State.blockStuck (s : State) (dom inst : Nat) : State :=
  match s.faults.inReset.find? (fun b => b.domain == dom && b.inst == inst) with
  | none => s
  | some b => (s.blkrstEnd b.asked 3).report (blockReport dom inst 4 true true)

/-! ### Fatal faults, periods and pins -/

/-- R504 step 3: every running slot of a tile is stopped and its outstanding tickets complete with ISOLATED. -/
def Tile.fatal (tl : Tile) : Tile :=
  let tl := [0, 1, 2, 3].foldl (fun (tl : Tile) k => if (tl.slot k).st = .running then tl.stopSlot k else tl) tl
  ({ tl.isolateTickets with
    hatchQ := [], xhQ := [], memQ := [], hatchRun := [], xhRun := [], memRun := [], commRun := [] }).settle

/-- R504: a UF stops data service. -/
def State.fatal (s : State) : State :=
  let s := (List.range 26).foldl (fun (s : State) p => if s.fabricPort p then s.portOff p 0 else s) s
  let s := (List.range 4).foldl (fun (s : State) e => s.setEth e eOFF) s
  let s := (s.isolateColls (fun _ => true)).disown (fun _ => true)
  ((List.range 64).foldl (fun (s : State) t => (s.breakStores t).updTile t Tile.fatal) s).settlePlates

/-- R503: an escalation period ends and every count restarts. -/
def State.escWindow (s : State) : State := { s with faults := { s.faults with esc := [], ul := [] } }

/-- R506, R507: the pair returns to normal; every return but the first after power-on or cold reset counts. -/
def State.pairReturn (s : State) : State :=
  let first := s.faults.firstReturn
  let s := { s with faults := { s.faults with pairFault := false, firstReturn := false, pinP := true, pinN := false } }
  let s := s.wr F.FLT_PAIR_STATE [] 0
  if first then s else ((s.rwsEvent F.FLT_RECOVERY_COUNT []).bump F.FLT_RECOVERY_COUNT [] 1).1

/-- R506: QUIET_MS has passed since the last fault that entered the fault state, if there was one. -/
def State.quietPast (s : State) : Bool :=
  match s.faults.lastFault with
  | none => true
  | some t => decide (t + max 1 (s.rd F.FLT_PAIR_QUIET_MS []) * 1000000 ≤ s.now)

/-- R506, R507: the pair returns to normal when the quiet period is over and no UF is outstanding. -/
def State.pairReady (s : State) : State :=
  if s.faults.pairFault ∧ !s.faults.ufOut ∧ s.quietPast then s.pairReturn else s

/-- R506: a quiet period ends; the pair is held until boot is READY (R507). -/
def State.quietEnd (s : State) : State :=
  if s.rd F.SEC_BOOT_STATUS_PHASE [] = 3 then s.pairReady else s

/-- R506, R520: a write of FLT_PAIR. -/
def State.pairWrite (s : State) (v : Nat) : State :=
  let s := s.swWrite .fltPair [] v
  if bitOf v 2 then s.pairEnter else s

/-- R505: the sampled pins are at equal levels. -/
def State.pairSense (s : State) : State := s.stickEv F.FLT_PAIR_SENSE_ERR []

/-! ### Injection and reports -/

/-- The classes in which a checker reports (R498); none for a counted one and for the watchdog, which has its own row. -/
def checkerClasses (c : Nat) : List Nat :=
  nth [] [[], [2], [1, 2], [1, 2], [1, 3], [2], [2], [1, 2], [1, 2], [1, 3], [1, 2], [1], [], [], [1], [1, 4], [1, 2], [1, 2],
    [1, 2], [1, 3], [1, 2], [1], [], [4]] c

/-- R511, R524: a write of FLT_INJECT. -/
def State.injectWrite (s : State) (v : Nat) : State :=
  let addr := regAddr .fltInject []
  let c := v % 256
  if !bitOf v 35 then s.swWrite .fltInject [] v
  else if s.on F.FLT_INJECT_ARMED [] ∨ c = 0 ∨ 0x17 < c ∨ c = 0x16 then s.refuse addr
  else
    let s := (s.swWrite .fltInject [] v).wr F.FLT_INJECT_ARMED [] 1
    let mode := fieldOf v 14 2
    let mode := if mode = 3 then 0 else mode
    let j := Inject.mk c (fieldOf v 8 2) (fieldOf v 10 4) mode (fieldOf v 16 10) (max 1 (fieldOf v 26 8)) (bitOf v 34)
    { s with faults := { s.faults with inject := some j } }

/-- R122: an uncorrectable register. -/
def Tile.markUc (tl : Tile) (detail : Nat) : Tile :=
  if detail < 32 then { tl with vUc := setBit tl.vUc detail true }
  else if detail < 40 then { tl with mUc := setBit tl.mUc (detail - 32) true }
  else { tl with tUc := setBit tl.tUc (detail - 40) true }

/-- A thread that runs faults. -/
def State.threadFaultIf (s : State) (t n cause : Nat) : State :=
  match ((s.tile t).thread n).st with
  | .ready | .blocked => s.threadFault t n cause
  | _ => s

/-- R498, R434, R438, R424: the word of memory that a report of a plate, an HBM4 stack or a DDR5 channel speaks of: DETAIL names
its line or its page, a free value the word in it. None where the window is not populated there. -/
def State.faultWord (s : State) (checker tile detail : Nat) : Option Nat × State :=
  let d := s.draw
  let w := if checker = 7 then (plateBase + tile * plateSize + detail % 131072 * 64) / 8 + d.1.toNat % 8
    else detail % 2 ^ 32 * 512 + d.1.toNat % 512
  let win := if checker = 7 then Win.plate else if checker = 0x11 then Win.hbm else Win.ddr
  (if s.byteWin (8 * w) = some win then some w else none, d.2)

/-- R352, R498: an uncorrectable word of the output buffer spoils the packet whose cells hold it before it leaves: a free one of
the heads of the tile's queues is discarded and counted. -/
def State.bufBad (s : State) (t : Nat) : State :=
  match (s.tm t).queues.filter (fun (e : Nat × List QPkt) => !e.2.isEmpty) with
  | [] => s
  | qs =>
    let d := s.draw
    let e := nth (0, []) qs (d.1.toNat % qs.length)
    match e.2 with
    | [] => d.2
    | q :: _ => ((d.2.popQueue (tilePort t) (t - portTile (tilePort t)) e.1 q).tmCount t 29 1).owe .retryAll

/-- R122, R498: what a checker's finding does where it is found, before it is reported. `who` is the thread that fetches, for the
instruction store. -/
def State.contain (s : State) (checker cls tile detail who : Nat) : State :=
  match checker, cls with
  | 0x01, _ => (s.stick F.TILE_CORE_STATUS_S_PARITY [tile]).threadFaultIf tile (detail % 128) cSTATEPARITY
  | 0x02, 1 => s.stick F.TILE_CORE_STATUS_REG_CE [tile]
  | 0x02, _ => (s.stick F.TILE_CORE_STATUS_REG_UC [tile]).updTile tile (fun tl => tl.markUc (detail % 48))
  | 0x03, 1 => s.stick F.TILE_CORE_STATUS_ISTORE_CE [tile]
  | 0x03, _ =>
    let slot := ((s.tile tile).thread who).slot
    let s := (s.stick F.TILE_CORE_STATUS_ISTORE_UC [tile]).threadFaultIf tile who cFETCHECC
    s.tileStep tile (fun tl => ((tl.threadsOf slot).filter (fun n => n != who)).foldl
      (fun (tl : Tile) n => tl.setThread n (tl.thread n).stop) tl)
  | 0x04, 1 => s.stick F.TILE_CORE_STATUS_TICKET_CE [tile]
  | 0x08, 2 => s.bufBad tile
  | 0x0A, 2 => if s.validId (detail / 64) then s.wr ⟨.rtEntry, 0, 1⟩ [detail % 65536] 0 else s
  | 0x10, 2 => s.stagingBad (detail % 2 ^ 20)
  | 0x14, 2 =>
    let p := s.pool (detail % 4)
    if p.cache.isEmpty then s
    else
      let f := s.draw
      f.2.setPool (detail % 4) { p with cache := p.cache.eraseIdx (f.1.toNat % p.cache.length) }
  | _, _ => s

/-- R511: the class in which a checker answers inverted check bits: SECDED corrects one and detects two, or all; the other codes
detect. One bad route table copy or bridge flit is repaired (R498). -/
def injectedClass (checker mode : Nat) : Nat :=
  match checker with
  | 0x02 | 0x03 | 0x08 | 0x10 | 0x14 => if mode = 0 then 1 else 2
  | 0x04 | 0x09 | 0x13 => if mode = 0 then 1 else 3
  | 0x0A | 0x0B | 0x0E | 0x0F | 0x15 => 1
  | 0x17 => 4
  | _ => 2

/-- R78, R424, R434, R438, R498, R501: a checker's finding: contained, counted where the checker's own registers count it, and
reported. -/
def State.faultFound (s : State) (rep : Report) (who : Nat) : State :=
  if rep.checker = 5 ∨ rep.checker = 6 then s.residueHits rep.tile (rep.checker == 6) rep.detail 1 rep.injected rep.noEsc
  else if rep.checker = 7 ∨ rep.checker = 0x11 ∨ rep.checker = 0x12 then
    match s.faultWord rep.checker rep.tile rep.detail with
    | (some w, s) => (s.checkWords [w] (if rep.injected then ⟨[], []⟩ else if rep.cls = 1 then ⟨[w], []⟩ else ⟨[], [w]⟩)).2
    | (none, s) => s
  else (s.contain rep.checker rep.cls rep.tile rep.detail who).report rep

/-- R498, R499, R501, R511: a checker reports. An injected report uses up one armed injection of its checker and instance, which
decides its class (log 38); an access of memory finds its own. A unit that does not exist reports nothing. -/
def State.faultReport (s : State) (die checker cls tile detail index who : Nat) (inj : Bool) : State :=
  let perTile := decide (1 ≤ checker) && decide (checker ≤ 9)
  let die := checkerDie die checker tile index
  let tile := if perTile then tile else 0
  let rep (cls : Nat) (noEsc : Bool) : Report := ⟨die, cls, checker, tile, detail % 2 ^ 32, index, inj, noEsc, false⟩
  if checker = 7 ∨ checker = 0x11 ∨ checker = 0x12 then
    (if inj ∨ (checkerClasses checker).contains cls then s.faultFound (rep cls false) who else s)
  else if 3 < die then s
  else if !inj then (if (checkerClasses checker).contains cls then s.faultFound (rep cls false) who else s)
  else if (checkerClasses checker).isEmpty ∨ checker = 0x16 then s
  else
    let j := s.injected checker die tile index 1
    if j.1 = 0 then s else j.2.2.2.faultFound (rep (injectedClass checker j.2.1) j.2.2.1) who

/-! ### Arithmetic self-test -/

/-- A tile holds hatch, chain and crosshatch work, or lets it go. -/
def State.testHold (s : State) (t : Nat) (b : Bool) : State := s.tileStep t (fun tl => { tl with testHold := b })

/-- R519 steps 1 and 2, R527: a write of FLT_ASELFTEST. -/
def State.selfTestWrite (s : State) (t v : Nat) : State :=
  let r := s.rd F.FLT_ASELFTEST_RESULT [t]
  if !bitOf v 0 ∨ r = 1 ∨ r = 2 then s
  else if s.rd F.PWR_DOMAIN_TOL_NS [64 + t] < 40000 then s.wr F.FLT_ASELFTEST_RESULT [t] 5
  else ((s.updTile t (fun tl => { tl with stTries := 0 })).wr F.FLT_ASELFTEST_RESULT [t] 1).testHold t true

/-- R519 step 3: the tile's engines are empty and no machinery work runs on it, so the test runs. -/
def State.selfTestRun (s : State) (t : Nat) : State :=
  let tl := s.tile t
  if s.rd F.FLT_ASELFTEST_RESULT [t] = 1 ∧ tl.hatchQ.isEmpty ∧ tl.xhQ.isEmpty ∧ tl.hatchRun.isEmpty ∧ tl.xhRun.isEmpty ∧
      !s.gatingOn t ∧ !(s.inReset 1 t) ∧ !(s.inReset 2 t) then s.wr F.FLT_ASELFTEST_RESULT [t] 2
  else s

/-- R519 step 3: the engines did not empty in time. -/
def State.selfTestWait (s : State) (t : Nat) : State :=
  if s.rd F.FLT_ASELFTEST_RESULT [t] = 1 then (s.wr F.FLT_ASELFTEST_RESULT [t] 5).testHold t false else s

/-- R519 step 4: the test ends. A first FAIL resets the failing engine and the test runs once more; a second is a UF. The
DETAIL of such a report names no thread (log 39). -/
def State.selfTestEnd (s : State) (t : Nat) (pass xh : Bool) : State :=
  if s.rd F.FLT_ASELFTEST_RESULT [t] ≠ 2 then s
  else
    let s := s.tick F.FLT_ASELFTEST_RUNS [t]
    if pass then (s.wr F.FLT_ASELFTEST_RESULT [t] 3).testHold t false
    else
      let f := s.draw
      let rep (s : State) (cls : Nat) : State :=
        s.report ⟨tileDie t, cls, if xh then 6 else 5, t, f.1.toNat % 128, 0, false, false, false⟩
      if (s.tile t).stTries = 0 then
        rep ((f.2.updTile t (fun tl => { tl with stTries := 1 })).wr F.FLT_ASELFTEST_RESULT [t] 1) 3
      else rep ((f.2.wr F.FLT_ASELFTEST_RESULT [t] 4).testHold t false) 4

end Sys2Proof.Machine
end

