-- ==== Sys2Proof/Machine/Time.lean ====
section
/-! DEFINITION. The global count and its synchronisation (R528 to R536, R557, R599) and the power domains (R551 to R553,
R558). -/
namespace Sys2Proof.Machine

/-! ### The count -/

/-- R530: a write of GC_SET. -/
def State.gcSet (s : State) (v : Nat) : State :=
  if s.on F.GC_STATUS_MASTER [] ∧ !(s.on F.GC_STATUS_EVER_SYNCED []) then { s with count := BitVec.ofNat 64 v }
  else s.refuse (regAddr .gcSet [])

/-- R599: the loss of CREF is seen by the health block: in service at once, else when a boot has started it; the count goes on.
The event names GC_STATUS (log 40). -/
def State.crefSeen (s : State) : State := if s.sys.crefLost ∧ s.sys.fwRuns then s.event .gcStatus [] else s

/-- R599: CREF is lost. -/
def State.crefLoss (s : State) : State :=
  if s.sys.crefLost then s else ({ s with sys := { s.sys with crefLost := true } }).crefSeen

/-- R599: CREF is back. -/
def State.crefReturn (s : State) : State := { s with sys := { s.sys with crefLost := false } }

/-! ### Synchronisation -/

/-- R531: whether the switch takes part. -/
def State.timeOn (s : State) : Bool := s.on F.GC_CFG_EN [] && s.on F.GLB_COORD_XY_VALID []

/-- R536: SYNCED sets or clears; each change is shown in CHANGED. -/
def State.setSynced (s : State) (b : Bool) : State :=
  if s.on F.GC_STATUS_SYNCED [] = b then s
  else
    (s.wr F.GC_STATUS_SYNCED [] (b2n b)).stickEv F.GC_STATUS_CHANGED []

/-- R532: a neighbour that may be parent: fewer than 24 hops, not below this switch in the tree, and not under a master
above this switch (log 40). -/
def State.eligible_ (s : State) (n : TimeNbr) : Bool :=
  decide (n.hops < 24) && n.parent != some s.switchId && decide (n.master < s.switchId)

/-- R532: one neighbour is preferred to another. -/
def TimeNbr.before (a b : TimeNbr) : Bool :=
  decide (a.master < b.master) || (a.master == b.master && (decide (a.hops < b.hops) || (a.hops == b.hops && decide (a.port < b.port))))

/-- R532: the neighbour chosen as parent. -/
def State.parentOf (s : State) : Option TimeNbr :=
  (s.time.nbrs.filter s.eligible_).foldl (fun m n => match m with
    | none => some n
    | some x => if n.before x then some n else some x) none

/-- R532, R536: the switch chooses its parent, or announces itself as master, and is synchronised as such, or has neither. A
neighbour that names this switch as its master stands in no way of that. -/
def State.chooseParent (s : State) : State :=
  let put (s : State) (m p h id : Nat) : State :=
    (((s.wr F.GC_STATUS_MASTER [] m).wr F.GC_STATUS_PARENT [] p).wr F.GC_STATUS_HOPS [] h).wr F.GC_STATUS_MASTER_ID [] id
  if !s.timeOn then put s 0 0x1F 0xFF 0
  else match s.parentOf with
    | some n => put s 0 n.port (n.hops + 1) n.master
    | none =>
      if (s.time.nbrs.filter (fun n => n.hops != 0xFF)).all (fun n => decide (s.switchId ≤ n.master)) then
        ((put s 1 0x1F 0 s.switchId).setSynced true).wr F.GC_STATUS_HOLDOVER [] 0
      else put s 0 0x1F 0xFF 0

/-- R533: the payload of a TIME packet; T3 is written as it leaves (`State.stampTime`). -/
def State.timePayload (s : State) (ty t2 : Nat) : List Byte :=
  let par := s.rd F.GC_STATUS_PARENT []
  let id := if par = 0x1F then 0x8000 else s.rd F.RT_PORT_NBR_ID [par]
  leBytes 1 ty ++ leBytes 1 (s.rd F.GC_STATUS_SYNCED [] + 2 * s.rd F.GC_STATUS_HOLDOVER []) ++
  leBytes 1 (s.rd F.GC_STATUS_HOPS []) ++ [0] ++ leBytes 2 (s.rd F.GC_STATUS_MASTER_ID []) ++ leBytes 2 id ++
  leBytes 8 t2 ++ leBytes 8 0 ++
  leBytes 8 (wrapInt s.time.offset 64) ++ List.replicate 16 0

/-- R533: a TIME packet leaves on a port. -/
def State.sendTime (s : State) (p num ty t2 : Nat) : State :=
  s.sendOnPort p { Pkt.make kTIME 6 (s.nbrMgmt p) (s.switchId * 64 + 39) with
    payload := s.timePayload ty t2, flags := 1, chunk := num }

/-- Ports that exchange TIME (R532). -/
def State.timePorts (s : State) : List Nat :=
  (List.range 26).filter (fun p => s.fabricPort p && (s.portState p == pMGMT || s.portState p == pUP))

/-- R532, R536: every millisecond: a neighbour that did not answer is no candidate, a parent that did not answer means
holdover, and a request leaves on every port. A master that was master at an earlier exchange counts as once synchronised from
then on: R530 needs a time at which a master can still load its count (log 40). -/
def State.timeExchange (s : State) : State :=
  if !s.timeOn then (({ s with time := { s.time with nbrs := [], reqs := [], wasMaster := false } }).chooseParent)
  else
    let par := s.rd F.GC_STATUS_PARENT []
    let late := s.time.reqs.map (fun r => r.port)
    let s := if late.contains par then (s.wr F.GC_STATUS_HOLDOVER [] 1) else s
    let good := if late.contains par then 0 else s.time.good
    let s := { s with time := { s.time with
      nbrs := s.time.nbrs.filter (fun n => !late.contains n.port && s.timePorts.contains n.port), reqs := [], good := good } }
    let s := s.chooseParent
    let master := s.on F.GC_STATUS_MASTER []
    let s := if master && s.time.wasMaster then s.wr F.GC_STATUS_EVER_SYNCED [] 1 else s
    let s := { s with time := { s.time with wasMaster := master } }
    s.timePorts.foldl (fun (s : State) p =>
      let num := s.time.nextNum
      let s := { s with time := { s.time with
        reqs := s.time.reqs ++ [TimeReq.mk p num 0], nextNum := (num + 1) % 2 ^ 32 } }
      s.sendTime p num 1 0) s

/-- R533: a TIME payload is well formed: a known TYPE. -/
def State.timeRequest (s : State) (p : Nat) (pkt : Pkt) : State :=
  if !s.timeOn then s
  else
    let t2 := s.stamp
    t2.2.sendTime p pkt.chunk 2 t2.1

/-- R534: the offset to the neighbour, in eighths of a nanosecond. -/
def timeTheta (t1 t2 t3 t4 : Nat) : Int :=
  (sextOf ((t2 + 2 ^ 64 - t1 % 2 ^ 64) % 2 ^ 64) 64 - sextOf ((t4 + 2 ^ 64 - t3 % 2 ^ 64) % 2 ^ 64) 64) / 2

/-- R534: the one-way delay of the link, in eighths of a nanosecond. -/
def timeDelta (t1 t2 t3 t4 : Nat) : Int :=
  (sextOf ((t4 + 2 ^ 64 - t1 % 2 ^ 64) % 2 ^ 64) 64 - sextOf ((t3 + 2 ^ 64 - t2 % 2 ^ 64) % 2 ^ 64) 64) / 2

/-- A signed value in a 16-bit field, saturating (R557). -/
def sat16 (z : Int) : Nat := wrapInt (max (-32768) (min 32767 z)) 16

/-- R534, R536: an exchange with the parent succeeds. -/
def State.parentExchange (s : State) (n : TimeNbr) (theta : Int) : State :=
  let s := (s.wr F.GC_STATUS_HOLDOVER [] 0).wr F.GC_STATUS_OFFSET [] (sat16 theta)
  let s := { s with time := { s.time with offset := theta } }
  let step := !(s.on F.GC_STATUS_EVER_SYNCED []) && !s.time.stepped
  let s := if step then { s with count := BitVec.ofInt 64 ((s.now : Int) + theta / 8), time := { s.time with stepped := true } }
    else { s with time := { s.time with debt := theta } }
  let near := decide (-8 < theta) && decide (theta < 8)
  let good := if near then s.time.good + 1 else 0
  let s := { s with time := { s.time with good := good } }
  if n.synced ∧ 16 ≤ good then (s.setSynced true).wr F.GC_STATUS_EVER_SYNCED [] 1 else s

/-- R532, R534: a TIME response arrives. -/
def State.timeResponse (s : State) (p : Nat) (pkt : Pkt) : State :=
  match s.time.reqs.find? (fun r => r.port == p && r.num == pkt.chunk) with
  | none => s
  | some r =>
    let t4 := s.stamp
    let s := t4.2
    let b := pkt.payload
    let par := leAt b 6 2
    let n : TimeNbr := ⟨p, pkt.src / 64, bitOf (leAt b 1 1) 0, leAt b 2 1, leAt b 4 2 % 1024,
      if bitOf par 15 then none else some (par % 1024), timeDelta r.t1 (leAt b 8 8) (leAt b 16 8) t4.1⟩
    let s := { s with time := { s.time with
      reqs := s.time.reqs.filter (fun (x : TimeReq) => x.port != p),
      nbrs := n :: s.time.nbrs.filter (fun (x : TimeNbr) => x.port != p) } }
    let s := s.chooseParent
    if s.rd F.GC_STATUS_PARENT [] = p then s.parentExchange n (timeTheta r.t1 (leAt b 8 8) (leAt b 16 8) t4.1) else s

/-- R533: a TIME packet arrives on a port. -/
def State.timeIn (s : State) (p : Nat) (pkt : Pkt) : State :=
  if pkt.payload.length ≠ 48 then s.rtCount 3
  else match leAt pkt.payload 0 1 with
    | 1 => s.timeRequest p pkt
    | 2 => s.timeResponse p pkt
    | _ => s.rtCount 3

/-- R536: no parent exchange has succeeded for HOLDOVER_MS. -/
def State.holdover (s : State) : State :=
  if s.on F.GC_STATUS_SYNCED [] ∧ !(s.on F.GC_STATUS_MASTER []) then
    let s := (s.wr F.GC_STATUS_SYNCED [] 0).wr F.GC_STATUS_CHANGED [] 1
    ({ s with time := { s.time with good := 0 } }).event .gcStatus []
  else s

/-! ### Power domains -/

/-- R551: the exit latency of a domain's shallow and deep state, in nanoseconds. -/
def exitLatency (n : Nat) (deep : Bool) : Nat :=
  if n < 64 then (if deep then 4000000 else 300)
  else if n < 128 then (if deep then 5000 else 20)
  else if n < 192 then (if deep then 1000 else 20)
  else if deep then 2000 else 50

/-- R552: a domain is idle as its state's entry asks. Lane groups are asked by `groupsIdle`. -/
def State.pwrIdle (s : State) (n : Nat) (deep : Bool) : Bool :=
  let tl := s.tile (n % 64)
  if n < 128 then
    !s.assigned false (n % 64) &&
    tl.threads.all (fun e => e.2.st != .ready) && tl.hatchQ.isEmpty && tl.xhQ.isEmpty && tl.hatchRun.isEmpty && tl.xhRun.isEmpty &&
    (!deep || (([0, 1, 2, 3].all (fun k => (tl.slot k).st != .running)) && tl.tickets.all (fun e => !e.2.held)))
  else if n < 192 then tl.xhQ.isEmpty && tl.xhRun.isEmpty && !s.assigned true (n % 64)
  else (List.range 64).all (fun t => (s.tile t).memRun.all (fun o => (opWords (opBytes o (memMask (s.tile t) o))).all
      (fun w => !s.onStack (n - 192) (8 * w) 8))) &&
    s.dm.all (fun e => match e.2.desc with
      | some d => e.2.inFlight.all (fun b => !s.onStack (n - 192) (d.src + b.off) b.data.length &&
          !s.onStack (n - 192) (d.dst + b.off) b.data.length)
      | none => true)

/-- R402, R552: a lane group asks its port's other end for a low state; the last groups of a port ask together. A
group goes to the deep state from electrical idle, when it has been idle for that state's time (R552). -/
def State.laneGroupEnter (s : State) (t : Nat) (deep : Bool) : State :=
  let p := tilePort t
  let i := t - portTile p
  let l := s.link p
  let all := (List.range (portTiles p)).filter (fun k => !bitOf l.lpIdle k)
  let rest := maskCount (maskMinus l.announced (groupLanes p (2 ^ i)))
  let g := if s.rd F.LINK_PORT_CFG_MIN_LANES [p] ≤ rest then 2 ^ i else all.foldl (fun n k => n + 2 ^ k) 0
  if s.fabricPort p ∧ s.portUp p ∧ l.lpReq = 0 ∧ !bitOf l.lpIdle i ∧ s.groupsIdle p g then
    (s.updLink p (fun l => { l with lpReq := g })).sendLpi p g 1
  else if deep ∧ bitOf l.lpIdle i ∧ s.pwrState t = 1 ∧ exitLatency t true ≤ s.groupTol t then
    ((List.range 8).map (· + 8 * t)).foldl (fun (s : State) k => if s.laneState k = 4 then s.setLane k 5 else s)
      ((s.wr F.PWR_DOMAIN_STATE [t] 2).tick F.PWR_DOMAIN_ENTRIES [t])
  else s

/-- R551, R552: a domain idle for four exit latencies enters the state, when its tolerance allows it. -/
def State.pwrEnter (s : State) (n : Nat) (deep : Bool) : State :=
  let tol := s.rd F.PWR_DOMAIN_TOL_NS [n]
  if n < 64 then s.laneGroupEnter n deep
  else if tol = 0 ∨ tol < exitLatency n deep ∨ !s.pwrIdle n deep ∨ (if deep then 2 else 1) ≤ s.pwrState n then s
  else (s.wr F.PWR_DOMAIN_STATE [n] (if deep then 2 else 1)).tick F.PWR_DOMAIN_ENTRIES [n]

/-- R402, R403: a lane group starts to leave its low state, and the other end is told. -/
def State.laneGroupWake (s : State) (t : Nat) : State :=
  let p := tilePort t
  let g := 2 ^ (t - portTile p)
  if bitOf (s.link p).lpIdle (t - portTile p) ∧ s.pwrState t ≠ 3 then (s.sendLpi p g 4).wakeGroups p g else s

/-- R402, R403, R553: a lane group is back in service after its training burst, or its retraining. -/
def State.laneGroupBack (s : State) (t : Nat) : State :=
  let p := tilePort t
  if bitOf (s.link p).lpIdle (t - portTile p) then
    let s := (s.laneGroupWake t).groupBack p (t - portTile p)
    (s.drainMgmt p (s.link p).mgmt.length).owe .retryAll
  else s

/-- R553: a domain completes its exit; what the device's machinery had waiting for it goes on. -/
def State.pwrExit (s : State) (n : Nat) : State :=
  if s.pwrState n = 0 then s
  else if n < 64 then s.laneGroupBack n
  else
    let s := s.wr F.PWR_DOMAIN_STATE [n] 0
    (s.cs.comms.map (·.1)).foldl (fun (s : State) id => s.owe (.advance id)) s

/-- R553, R558: a write of a tolerance; one below the exit latency of the present state wakes the domain. -/
def State.pwrWrite (s : State) (n v : Nat) : State :=
  let st := s.pwrState n
  let s := s.swWrite .pwrDomain [n] v
  if (st = 1 ∨ st = 2) ∧ v % 2 ^ 32 < exitLatency n (st == 2) then
    (if n < 64 then s.laneGroupWake n else s.wr F.PWR_DOMAIN_STATE [n] 3)
  else s

end Sys2Proof.Machine
end

