-- ==== Sys2Proof/Machine/Reset.lean ====
section
/-! DEFINITION. Power and resets (R559 to R565, R583, R584, R592), boot (R566 to R570, R578), tamper (R581), temperature and
input power (R593, R596, R604, R605). -/
namespace Sys2Proof.Machine

/-! ### Fuses and keys -/

/-- R585: SEC_LC and SEC_SERIAL show the fuses. -/
def State.showFuses (s : State) : State :=
  let f := s.sec.fuses
  let s := (s.wr F.SEC_LC_STATE [] f.lc).wr F.SEC_LC_PENDING [] (b2n f.pending.isSome)
  let s := (s.wr F.SEC_LC_OWNER [] (b2n f.owner.isSome)).wr F.SEC_LC_SVN_FUSE [] f.svn
  s.wr F.SEC_SERIAL_SERIAL [] f.serial

/-- R564: the strap code of 16 samples of the pin, in tenths of a millivolt: the one band of 112.5 mV in which all of them lie,
else 15. -/
def strapCode (samples : List Nat) : Nat :=
  let b := samples.map (fun v => min 15 (v / 1125))
  if b.length = 16 ∧ b.all (fun x => x == nth 0 b 0) then nth 15 b 0 else 15

/-- R564, R565: the strap code is latched. -/
def State.latchStrap (s : State) (code : Nat) : State :=
  (s.wr F.GLB_COORD_SLOT_CODE [] code).wr F.GLB_COORD_Z [] (if code ≤ 9 then code else 15)

/-- R429, R580: what step 3 of a transition to RMA or DECOMMISSIONED zeroes. -/
def State.wipeAll (s : State) (target : Nat) : State :=
  if target = 3 ∨ target = 4 then
    let s := ((s.zeroMem plateBase (64 * plateSize)).zeroMem hbmBase (384 * 2 ^ 30)).zeroMem ddrBase (8 * ddrRange)
    if target = 4 then { s with sec := { s.sec with fuses := { s.sec.fuses with identity := none } } } else s
  else s

/-- R580: before firmware runs, a boot finishes what a reset interrupted. -/
def State.bootRepair (s : State) : State :=
  let s := if s.sec.fuses.pending.isSome then s.wipeSealed else s
  match s.sec.redo with
  | none => s
  | some t => { s.wipeSealed.wipeAll t with sec := { (s.wipeSealed.wipeAll t).sec with redo := none, lcBoot := true } }

/-! ### Life-cycle requests (R579) -/

/-- R579: the target of a request of 208 bytes, or the result that refuses it: form and serial number before the transition,
the signature last (DEDUCED, log 65). -/
def State.lcVerdict (s : State) (r : List Byte) : Nat ⊕ Nat :=
  let f := s.sec.fuses
  let target := leAt r 4 1
  let key := (r.drop 0x10).take 96
  let hash := hashNat key
  let allowed : Bool := match f.lc, target with
    | 0, 1 => f.keys.any (fun k => k.factory && !k.revoked && k.hash == hash) && s.rd F.GLB_COORD_SLOT_CODE [] == 10 && f.identity.isSome
    | 1, 2 => true
    | 1, 4 => true
    | 2, 3 | 2, 4 | 3, 4 => f.owner == some hash
    | _, _ => false
  if leAt r 0 4 ≠ 0x4356434C ∨ leAt r 5 3 ≠ 0 ∨ leAt r 8 8 ≠ f.serial then .inl 4
  else if !allowed || (match f.pending with | some p => p != target | none => false) then .inl 3
  else if !sigOk key (r.take 0x70) ((r.drop 0x70).take 96) then .inl 2
  else .inr target

/-- A command's source bytes, if they can be read. -/
def State.secRead (s : State) (a n : Nat) (ecc : Ecc) : Option (List Byte) × State :=
  if s.rangeWin a n = none then (none, s)
  else
    let r := s.readMem a n ecc
    (if r.2.1.isEmpty then some r.1 else none, r.2.2)

/-- R579: the device certificate that the transition to PROVISIONED brings. -/
def State.takeCert (s : State) (target dst : Nat) (ecc : Ecc) : Option State :=
  if target ≠ 1 then some s
  else
    let h := s.secRead dst 4 ecc
    match h.1 with
    | none => none
    | some b =>
      let n := derLength b
      if leAt b 0 1 ≠ 0x30 ∨ n = 0 then none
      else
        let c := h.2.secRead dst n ecc
        (match c.1 with
         | none => none
         | some cert => some { c.2 with sec := { c.2.sec with flash := { c.2.sec.flash with deviceCert := cert } } })

/-- R580 step 1: the fuses of a transition; the new owner's hash with it. -/
def State.lcFuse (s : State) (target : Nat) (key : List Byte) : State :=
  let f := s.sec.fuses
  let f := { f with lc := target, pending := none, owner := if target = 2 then some (hashNat key) else f.owner }
  { s with sec := { s.sec with fuses := f } }

/-- R580: what a reset or a loss of power leaves of a transition in progress: nothing, fuses without their confirmation,
or fuses whose wipes the next boot repeats. Which of them is free (log 44); a request that would have been refused leaves
nothing. -/
def State.lcInterrupt (s : State) : State :=
  match s.sec.cmd with
  | some (4, src, dst) =>
    (match if src % 64 = 0 ∧ dst % 64 = 0 then (s.secRead src 208 ⟨[], []⟩).1 else none with
     | none => s
     | some r =>
       match s.lcVerdict r with
       | .inl _ => s
       | .inr target =>
         match s.takeCert target dst ⟨[], []⟩ with
         | none => s
         | some c =>
           let d := s.draw
           let s := d.2
           match d.1.toNat % 3 with
           | 0 => s
           | 1 => { s with sec := { s.sec with fuses := { s.sec.fuses with pending := some target } } }
           | _ =>
             let s := s.lcFuse target ((r.drop 0x10).take 96)
             { s with sec := { s.sec with redo := some target, flash := c.sec.flash } })
  | _ => s

/-! ### Resets -/

/-- What every reset discards (R560). -/
def State.dropWork (s : State) : State :=
  { s with tiles := [], plateQuota := [], stylus := StylusSt.fresh, dm := [], bp := BpSt.fresh, time := TimeSt.fresh,
           fab := FabricSt.fresh, cs := CollSt.fresh, memc := { MemCtl.fresh with lastMap := s.memc.lastMap }, todo := [] }

/-- The security block after a reset: fuses and flash kept, the rest formed again at boot (R560, R576). -/
def SecSt.reborn (x : SecSt) : SecSt :=
  { x with measure := 0, aliasKey := 0, aliasCert := [], imageLog := 0, imageLoads := 0, keysOk := false, cmd := none,
           lcReset := false, lcBoot := x.lcBoot || x.lcReset }

/-- R569 step 4, R600: the ROM starts: it turns the stylus transmitters on and links that are down train, unless RESET_N is
low. -/
def State.romStart (s : State) : State :=
  if s.sys.resetN then s
  else [0, 1].foldl (fun (s : State) p => if s.rd F.GLB_STYLUS_STATUS_STATE [p] = 0 then s.wr F.GLB_STYLUS_STATUS_STATE [p] 1 else s) s

/-- R559, R560: a power-on or cold reset. Plates are zeroed; HBM and DDR5 contents are lost (log 4). -/
def State.coldReset (s : State) (cause strap : Nat) : State :=
  let s := s.lcInterrupt
  let s := { s.dropWork with
    regs := [], mem := [], memPoison := [], faults := FaultSt.fresh, memc := MemCtl.fresh, i3c := ⟨none, false, 0, 1, 8⟩,
    sec := s.sec.reborn, count := 0,
    sys := { s.sys with coldBoot := true, fwRuns := false, thermN := false, heat := 0, throttleT := 0, throttleP := [] } }
  (((s.showFuses.latchStrap strap).wr F.GLB_RESET_CAUSE_CAUSE [] cause).bootRepair).romStart

/-- The registers after a warm reset: RWS fields keep their values (R6, R560). -/
def warmRegs (regs : Tbl Word) : Tbl Word :=
  regs.foldl (fun t (e : Nat × Word) => match findReg e.1 with
    | some (r, ix) => Tbl.put e.1 (BitVec.ofNat 64 (warmValue r ix e.2.toNat)) t
    | none => t) []

/-- R559 to R563, R507: a warm reset. The strap code, stylus links, pins, the fault pair and what R529, R536 and R557 count from
the power-on or cold reset stay as they are. -/
def State.warmReset (s : State) (cause : Nat) : State :=
  if s.inWarm then s
  else
    let s := s.lcInterrupt
    let strap := s.rd F.GLB_COORD_SLOT_CODE []
    let links := [s.rd F.GLB_STYLUS_STATUS_STATE [0], s.rd F.GLB_STYLUS_STATUS_STATE [1]]
    let tampered := s.rd F.SEC_LC_TAMPERED []
    let synced := s.rd F.GC_STATUS_EVER_SYNCED []
    let f := s.faults
    let s := { s.dropWork with
      regs := warmRegs s.regs, sec := s.sec.reborn, time := { TimeSt.fresh with stepped := s.time.stepped },
      faults := { FaultSt.fresh with
        pairFault := f.pairFault, firstReturn := f.firstReturn, lastFault := f.lastFault, pinP := f.pinP, pinN := f.pinN, rws := f.rws },
      sys := { s.sys with coldBoot := false, fwRuns := false, heat := 0, throttleT := 0, throttleP := [] } }
    let s := ((s.showFuses.latchStrap strap).wr F.SEC_LC_TAMPERED [] tampered).wr F.GC_STATUS_EVER_SYNCED [] synced
    let s := (s.wr F.GLB_STYLUS_STATUS_STATE [0] (nth 0 links 0)).wr F.GLB_STYLUS_STATUS_STATE [1] (nth 0 links 1)
    let s := s.wr F.FLT_PAIR_STATE [] (b2n f.pairFault)
    let s := ((s.rwsEvent F.GLB_RESET_CAUSE_WARM_COUNT []).bump F.GLB_RESET_CAUSE_WARM_COUNT [] 1).1.wr F.GLB_RESET_CAUSE_CAUSE [] cause
    s.bootRepair

/-- R592, R596: internal power good rises. -/
def State.powerRise (s : State) (strap : Nat) : State :=
  if s.sys.power ∨ s.sys.tripped then s
  else ({ s with sys := { s.sys with power := true } }).coldReset 0 strap

/-- R592, R597, R601: power good falls: the fault pins are undriven, THERM_N is released, and the test access port loses its
state (log 43). -/
def State.powerFall (s : State) : State :=
  if !s.sys.power then s
  else
    let s := s.lcInterrupt
    { s with sys := { s.sys with power := false, fwRuns := false, thermN := false, jtagIr := 1, boundary := 0 },
             faults := { s.faults with pinP := false, pinN := false }, sec := { s.sec with cmd := none }, todo := [] }

/-- R601: the instruction that the test access port acts on: EXTEST, EXTEST_PULSE, EXTEST_TRAIN and HIGHZ are BYPASS unless
RESET_N is low. -/
def State.jtagActs (s : State) : Nat :=
  if [0, 3, 4, 5].contains s.sys.jtagIr ∧ !s.sys.resetN then 0x3FF else s.sys.jtagIr

/-- R601: what drives the output pins: the boundary register under EXTEST, EXTEST_PULSE and EXTEST_TRAIN, nothing under HIGHZ,
else the device. -/
def State.pinMode (s : State) : Nat :=
  match s.jtagActs with
  | 0 | 3 | 4 => 1
  | 5 => 2
  | _ => 0

/-- R601: a change of what drives the output pins is shown. -/
def State.pinsFrom (s : State) (was : Nat) : State :=
  if s.sys.power ∧ s.pinMode ≠ was then s.emit (.pins s.pinMode (if s.pinMode = 1 then s.sys.boundary else 0)) else s

/-- R559, R598: RESET_N has been low for 10 µs: a cold reset, which lasts while it stays low. -/
def State.resetAssert (s : State) : State :=
  let was := s.pinMode
  let s := { s with sys := { s.sys with resetN := true } }
  if s.sys.power then (s.coldReset 1 (s.rd F.GLB_COORD_SLOT_CODE [])).pinsFrom was else s

/-- R564, R598, R601: RESET_N rises: the strap code is sampled and boot starts. -/
def State.resetRelease (s : State) (strap : Nat) : State :=
  if !s.sys.resetN then s
  else
    let was := s.pinMode
    let s := { s with sys := { s.sys with resetN := false } }
    if s.sys.power then ((s.latchStrap strap).romStart).pinsFrom was else s

/-- R583: a write of GLB_RESET_CMD. -/
def State.resetCmdWrite (s : State) (v : Nat) : State :=
  if !bitOf v 16 then s else if v % 65536 = 0x5752 then s.warmReset 3 else s.refuse (regAddr .glbResetCmd [])

/-- R584: a write of GLB_MGMT_WDOG. -/
def State.wdogWrite (s : State) (v : Nat) : State :=
  let s := s.swWrite .glbMgmtWdog [] v
  if bitOf v 16 then { s with sys := { s.sys with wdogFrom := s.now } } else s

/-- R584: the management watchdog expires. -/
def State.wdogExpire (s : State) : State :=
  if s.sys.fwRuns ∧ s.rd F.GLB_MGMT_WDOG_PERIOD_MS [] ≠ 0 then s.warmReset 4 else s

/-- R504: 10 ms after a UF with UF_ACTION 1. -/
def State.escalationReset (s : State) : State :=
  if s.faults.ufOut ∧ s.on F.FLT_ESC_UF_ACTION [] then s.warmReset 5 else s

/-- R559, R580: 10 ms after a confirmed transition, in recovery too. -/
def State.lcReset (s : State) : State := if s.sec.lcReset then s.warmReset 6 else s

/-! ### Boot -/

/-- R567, R568: the check of a firmware image, by the result codes of R586. The order of the tests is R568's; SIGNER_ID belongs
to the header, and a key that is no fused firmware key ends as SIGNATURE (DEDUCED, log 65). -/
def State.slotCheck (s : State) (img : List Byte) : Nat :=
  let size := leAt img 0xC 4
  let key := (img.drop 0x40).take 96
  let hash := hashNat key
  let zeros (o n : Nat) : Bool := ((img.drop o).take n).all (fun b => b == 0)
  let formed := decide (0x100 ≤ img.length) && leAt img 0 4 == 0x46574D53 && leAt img 4 2 == 1 && zeros 6 2 &&
    decide (leAt img 8 4 ≤ 64) && size % 64 == 0 && decide (size ≤ 15 * 2 ^ 20) && zeros 0x28 24 && zeros 0xA0 96 &&
    (img.drop 0x18).take 16 == signerId key && decide (0x100 + size + 96 ≤ img.length)
  let keys := s.sec.fuses.keys.filter (fun k => k.fw && k.hash == hash)
  if !formed then 2
  else if keys.isEmpty then 3
  else if keys.all (fun k => k.revoked) then 4
  else if !sigOk key (img.take (0x100 + size)) ((img.drop (0x100 + size)).take 96) then 3
  else if leAt img 8 4 < s.sec.fuses.svn then 5
  else 0

/-- R574: a stored key list verifies against the fused owner hash. -/
def State.keyListOk (s : State) (kl : List Byte) : Bool :=
  let key := (kl.drop 0x10).take 96
  s.sec.fuses.owner == some (hashNat key) && sigOk key (kl.take 0x370) ((kl.drop 0x370).take 96)

/-- R569 step 9, R572, R573: the alias key and its certificate are formed, unless the identity has been erased. -/
def State.formAlias (s : State) (svn : Nat) : State :=
  match s.sec.fuses.identity with
  | none => s
  | some (key, secret) =>
    let d := aliasScalar secret s.sec.measure svn
    { s with
      sec := { s.sec with
        aliasKey := d
        aliasCert := aliasCertificate key (scalarOf (Config.nonce s.draws).toNat) s.sec.flash.deviceCert svn (keyBytes (ptMul d bpG)) },
      draws := s.draws + 1 }

/-- R569 steps 8 to 11: a slot is accepted and firmware runs. The fabric level that it sets is its own choice (log 42). -/
def State.firmware (s : State) (slot : Nat) (img : List Byte) : State :=
  let n := 0x100 + leAt img 0xC 4
  let ok : Bool := match s.sec.flash.keyList with | some kl => s.keyListOk kl | none => false
  let s := { s with sec := { s.sec with measure := hashNat (img.take n), keysOk := ok },
                    sys := { s.sys with fwRuns := true, wdogFrom := s.now } }
  let s := ((s.wr F.SEC_BOOT_STATUS_PHASE [] 2).wr F.SEC_BOOT_STATUS_SLOT [] slot).wr F.SEC_BOOT_STATUS_FW_SVN [] (leAt img 8 4)
  let s := s.formAlias (leAt img 8 4)
  let d := s.draw
  let s := (d.2.wr F.RT_FABLEVEL_LOCAL [] (1 + d.1.toNat % 3))
  let s := s.crefSeen.hbmCtrlWrite (s.rd F.HBM_CTRL_MAP [] + 2)
  let s := s.ddrCtrlWrite (s.rawReg .ddrCtrl [] / 2 * 2 + 1)
  (List.range 26).foldl (fun (s : State) p => s.startTraining p) s

/-- R578: every plate is handed to an owner of a kind, with the tile index that stands. -/
def State.ownAll (s : State) (f : Nat → Nat) : State :=
  (List.range 64).foldl (fun (s : State) p => (s.updTile p (fun tl => { tl with handOver := none })).setRaw .plateOwner [p] (f p)) s

/-- What flash slot A or B is now known to hold. -/
def Flash.learn (f : Flash) (second : Bool) (img : Option (List Byte)) : Flash :=
  if second then { f with slotB := img } else { f with slotA := img }

/-- R568: the result of a slot is recorded. -/
def State.bootResult (s : State) (second : Bool) (r : Nat) : State :=
  s.wr (if second then F.SEC_BOOT_STATUS_RESULT_B else F.SEC_BOOT_STATUS_RESULT_A) [] r

/-- R568, R570: a slot is not accepted: slot B is next, then recovery. -/
def State.bootNext (s : State) (second : Bool) : State :=
  if second then (s.wr F.SEC_BOOT_STATUS_PHASE [] 4).ownAll (fun p => 2 + 4 * (p % 16)) else s

/-- R568: a slot's image is checked. -/
def State.bootCheck (s : State) (second : Bool) (i : List Byte) : State :=
  let r := s.slotCheck i
  let s := { s with sec := { s.sec with flash := s.sec.flash.learn second (some i) } }
  let s := s.bootResult second r
  if r = 0 then s.firmware (b2n second) i else s.bootNext second

/-- R568 to R570, R586: the ROM has read a slot, and PHASE is VERIFY from then on until one is accepted or none is (log 42);
`found` is what it holds when the model does not know it yet, and no content means that reading failed. Slot A is tried, then
slot B, then recovery. Before its first slot the ROM has started the stylus links. -/
def State.bootSlot (s : State) (found : Option (List Byte)) (fails : Bool) : State :=
  if s.sys.fwRuns ∨ s.rd F.SEC_BOOT_STATUS_PHASE [] = 4 ∨ s.sys.resetN then s
  else
    let s := if s.rd F.SEC_BOOT_STATUS_PHASE [] = 0 then s.romStart else s
    let s := s.wr F.SEC_BOOT_STATUS_PHASE [] 1
    let second := s.rd F.SEC_BOOT_STATUS_RESULT_A [] != 1
    let known := if second then s.sec.flash.slotB else s.sec.flash.slotA
    match known.or found, fails with
    | some i, false => s.bootCheck second i
    | _, _ => (s.bootResult second 6).bootNext second

/-- R565: a strap code that acts as a reserved one in a life-cycle state. -/
def reservedStrap (lc code : Nat) : Bool := decide (11 ≤ code) || (code == 10 && lc != 0 && lc != 3)

/-- R507, R565, R569 step 13, R578: boot reaches READY. -/
def State.bootReady (s : State) : State :=
  if s.rd F.SEC_BOOT_STATUS_PHASE [] ≠ 2 then s
  else
    let lc := s.sec.fuses.lc
    let s := (s.wr F.SEC_BOOT_STATUS_PHASE [] 3)
    let s := { s with sys := { s.sys with coldBoot := false }, faults := { s.faults with esc := [], ul := [] } }
    let s := if lc = 1 then s.ownAll (fun p => 2 + 4 * (p % 16))
      else if s.sec.lcBoot ∧ (lc = 2 ∨ lc = 3) then s.ownAll (fun p => 4 * (p % 16)) else s
    let s := { s with sec := { s.sec with lcBoot := false } }
    let s := if reservedStrap lc (s.rd F.GLB_COORD_SLOT_CODE []) then s.event .glbCoord [] else s
    s.pairReady

/-! ### Tamper -/

/-- R581, R588: tamper: 0 voltage, 1 clock, 2 temperature, 3 test access. -/
def State.tamper (s : State) (kind : Nat) : State :=
  let s := ((s.wr ⟨.secTamper, kind, 1⟩ [] 1).rwsEvent F.SEC_TAMPER_COUNT []).bump F.SEC_TAMPER_COUNT [] 1
  ((s.1.wr F.SEC_LC_TAMPERED [] 1).wipeSealed).event .secTamper []

/-! ### Temperature and input power -/

/-- R604: a write of PWR_THERM. -/
def State.thermWrite (s : State) (v : Nat) : State :=
  let a := fieldOf v 16 8
  let t := fieldOf v 24 8
  if a < 60 ∨ 105 < a ∨ t < 60 ∨ 110 < t ∨ t < a then s.refuse (regAddr .pwrTherm []) else s.swWrite .pwrTherm [] v

/-- R605: a write of PWR_INPUT. -/
def State.inputWrite (s : State) (v : Nat) : State :=
  let c := fieldOf v 32 16
  if c < 1000 ∨ 1950 < c then s.refuse (regAddr .pwrInput []) else s.swWrite .pwrInput [] v

/-- R491, R562, R596: the alert changes; through a warm reset THERM_N holds its level. -/
def State.setAlert (s : State) (b : Bool) : State :=
  let was := s.on F.PWR_THERM_ALERT []
  let s := if s.inWarm then s else { s with sys := { s.sys with thermN := b } }
  if was = b then s
  else
    let s := (s.wr F.PWR_THERM_ALERT [] (b2n b)).stickEv F.PWR_THERM_CHANGED []
    if b && s.i3c.ibiEn then s.emit (.ibi 2) else s

/-- R596: thermal throttling starts or ends. -/
def State.setThrottling (s : State) (b : Bool) : State :=
  if s.on F.PWR_THERM_THROTTLING [] = b then s
  else (s.wr F.PWR_THERM_THROTTLING [] (b2n b)).stickEv F.PWR_THERM_CHANGED []

/-- R596: the hottest junction is read, in tenths of a degree. Past 115 °C the converters stop. A module without power shows no
reading in its registers. -/
def State.thermalSample (s : State) (t : Int) : State :=
  if !s.sys.power then (if s.sys.tripped ∧ t < 900 then { s with sys := { s.sys with tripped := false } } else s)
  else
    let s := s.wr F.PWR_THERM_TEMP [] (wrapInt t 16)
    let alert : Int := s.rd F.PWR_THERM_ALERT_C []
    let thr : Int := s.rd F.PWR_THERM_THROTTLE_C []
    let s := if alert * 10 < t then s.setAlert true
      else if t < (alert - 5) * 10 ∨ !(s.on F.PWR_THERM_ALERT []) then s.setAlert false else s
    let s := { s with sys := { s.sys with heat := if thr * 10 < t then 2 else if t < (thr - 3) * 10 then 0 else 1 } }
    let s := if thr * 10 < t then s.setThrottling true else s
    if 1150 < t then ({ s.powerFall with sys := { s.powerFall.sys with tripped := true } }) else s

/-- R596: every millisecond the rate halves, down to one in 8, or doubles until throttling ends, as the last sample stood to the
threshold that applied to it. -/
def State.throttleStep (s : State) : State :=
  let n := s.sys.throttleT
  let set (s : State) (k : Nat) : State := { s with sys := { s.sys with throttleT := k } }
  if !(s.on F.PWR_THERM_THROTTLING []) then s
  else if s.sys.heat = 2 then set s (min 3 (n + 1))
  else if s.sys.heat = 0 then (if n ≤ 1 then (set s 0).setThrottling false else set s (n - 1))
  else s

/-- R593, R605: input power is measured: input voltage, power over 1 ms, 10 ms and 1 s. How far each die is slowed is free
within what the excess requires (log 45). -/
def State.capSample (s : State) (vin ms1 ms10 ms1000 : Nat) : State :=
  let s := (s.wr F.PWR_INPUT_VIN_MV [] vin).wr F.PWR_INPUT_PIN_W [] ms1
  let above := decide (2300 < ms10) || decide (s.rd F.PWR_INPUT_CAP_W [] < ms1000)
  let r := [0, 1, 2, 3].foldl (fun (acc : Tbl Nat × State) d =>
    let f := acc.2.draw
    let old := Tbl.look 0 s.sys.throttleP d
    let k := if above then min 3 (old + f.1.toNat % 4) else f.1.toNat % (old + 1)
    (Tbl.put d k acc.1, f.2)) ([], s)
  let tbl := if above ∧ r.1.all (fun (e : Nat × Nat) => e.2 = 0) then Tbl.put 0 1 r.1 else r.1
  let s := { r.2 with sys := { r.2.sys with throttleP := tbl } }
  let cap := tbl.any (fun (e : Nat × Nat) => decide (0 < e.2))
  if s.on F.PWR_INPUT_CAPPING [] = cap then s
  else (s.wr F.PWR_INPUT_CAPPING [] (b2n cap)).stickEv F.PWR_INPUT_CHANGED []

end Sys2Proof.Machine
end

