-- ==== Sys2Proof/Machine/Sec.lean ====
section
/-! DEFINITION. Security commands (R570, R572 to R576, R579, R580, R585 to R587), JTAG (R577, R601 to R603) and the board
view over I3C (R491, R492). -/
namespace Sys2Proof.Machine

/-! ### Security commands -/

/-- R587: a security command ends. -/
def State.secEnd (s : State) (result len : Nat) : State :=
  let s := { s with sec := { s.sec with cmd := none } }
  ((s.wr F.SEC_CMD_STATUS_LAST_RESULT [] result).wr F.SEC_CMD_STATUS_LENGTH [] len).wr F.SEC_CMD_STATUS_BUSY [] 0

/-- R587, R607: GO of SEC_CMD with the operation that the register holds. -/
def State.secGo (s : State) : State :=
  match s.rd F.SEC_CMD_OP [] with
  | 0 => s
  | 7 => s.secEnd 1 0
  | op => ({ s with sec := { s.sec with cmd := some (op, s.rd F.SEC_CMD_SRC_ADDR [], s.rd F.SEC_CMD_DST_ADDR []) } }).wr
      F.SEC_CMD_STATUS_BUSY [] 1

/-- R587: a write of SEC_CMD; GO while BUSY is ignored with the whole write. -/
def State.secWrite (s : State) (v : Nat) : State :=
  if bitOf v 3 && s.on F.SEC_CMD_STATUS_BUSY [] then s.wr F.SEC_CMD_STATUS_CMD_LOST [] 1
  else
    let s := s.swWrite .secCmd [] v
    if bitOf v 3 then s.secGo else s

/-- A command's output written; SRC_ERROR when the destination lies in no window (log 46). -/
def State.secPut (s : State) (a : Nat) (bs : List Byte) : State :=
  if s.rangeWin a bs.length = none then s.secEnd 6 0 else (s.writeMem a bs).secEnd 0 bs.length

/-- R577: Filavo test access is open. -/
def State.testAccess (s : State) : Bool :=
  s.sec.fuses.lc == 0 || (s.sec.fuses.lc == 3 && s.rd F.GLB_COORD_SLOT_CODE [] == 10)

/-- R575: an attestation report without its signature. -/
def State.report0 (s : State) (nonce : List Byte) : List Byte :=
  let x := s.sec
  let flags := s.rd F.GLB_MODE_DETERM [] + 2 * b2n s.testAccess + 4 * s.rd F.SEC_LC_TAMPERED []
  let kl := match x.flash.keyList with | some l => if x.keysOk then hashNat l else 0 | none => 0
  leBytes 4 0x54505441 ++ leBytes 2 1 ++ leBytes 1 x.fuses.lc ++ leBytes 1 flags ++ leBytes 8 x.fuses.serial ++ nonce ++
  beBytes 48 x.measure ++ leBytes 4 (s.rd F.SEC_BOOT_STATUS_FW_SVN []) ++ leBytes 1 (s.rd F.RT_FABLEVEL_LOCAL []) ++
  leBytes 1 (s.rd F.GLB_NUMLEVEL_SUPPORTED []) ++ leBytes 2 0 ++ leBytes 8 s.now ++ beBytes 48 kl ++ beBytes 48 x.imageLog ++
  leBytes 4 x.imageLoads ++ List.replicate 28 0

/-- R575: ATTEST. -/
def State.attest (s : State) (src dst : Nat) (ecc : Ecc) : State :=
  let lc := s.sec.fuses.lc
  if lc = 0 ∨ lc = 4 then s.secEnd 3 0
  else
    let r := s.secRead src 48 ecc
    match r.1 with
    | none => r.2.secEnd 6 0
    | some nonce =>
      let s := r.2
      let body := s.report0 nonce
      let sig := signBytes s.sec.aliasKey (scalarOf (Config.nonce s.draws).toNat) body
      s.draw.2.secPut dst (body ++ sig)

/-- R572, R587: GET_CERTS. -/
def State.getCerts (s : State) (dst : Nat) : State :=
  let certs := s.sec.flash.deviceCert ++ s.sec.aliasCert
  s.secPut dst (leBytes 4 certs.length ++ certs)

/-- R574: KEYLIST. -/
def State.keyList (s : State) (src : Nat) (ecc : Ecc) : State :=
  let r := s.secRead src 976 ecc
  match r.1 with
  | none => r.2.secEnd 6 0
  | some kl =>
    let s := r.2
    let n := leAt kl 6 1
    let old := match s.sec.flash.keyList with | some o => leAt o 8 8 + 1 | none => 0
    let key := (kl.drop 0x10).take 96
    if leAt kl 0 4 ≠ 0x4B4C5453 ∨ leAt kl 4 2 ≠ 1 ∨ n < 1 ∨ 8 < n ∨ leAt kl 7 1 ≠ 0 ∨ leAt kl 8 8 < old ∨
        s.sec.fuses.owner ≠ some (hashNat key) ∨ !((kl.drop (0x70 + 96 * n)).take (768 - 96 * n)).all (fun b => b == 0) then s.secEnd 4 0
    else if !sigOk key (kl.take 0x370) ((kl.drop 0x370).take 96) then s.secEnd 2 0
    else ({ s with sec := { s.sec with flash := { s.sec.flash with keyList := some kl }, keysOk := true } }).secEnd 0 0

/-- R579, R580: LC_ADVANCE. -/
def State.lcAdvance (s : State) (src dst : Nat) (ecc : Ecc) : State :=
  let r := s.secRead src 208 ecc
  match r.1 with
  | none => r.2.secEnd 6 0
  | some req =>
    let s := r.2
    match s.lcVerdict req with
    | .inl e => s.secEnd e 0
    | .inr target =>
      match s.takeCert target dst ecc with
      | none => s.secEnd 4 0
      | some s =>
        let s := ((s.lcFuse target ((req.drop 0x10).take 96)).wipeSealed).wipeAll target
        let s := { s with sec := { s.sec with lcReset := true } }
        s.showFuses.secEnd 0 0

/-- R587: SVN_ADVANCE. -/
def State.svnAdvance (s : State) : State :=
  let f := s.sec.fuses
  if f.lc = 2 ∨ f.lc = 3 then
    let s := { s with sec := { s.sec with fuses := { f with svn := max f.svn (s.rd F.SEC_BOOT_STATUS_FW_SVN []) } } }
    s.showFuses.secEnd 0 0
  else s.secEnd 3 0

/-- R570: the results of SEC_CMD for the results of a slot (DEDUCED, log 65). -/
def recoverResult (r : Nat) : Nat := nth 4 [0, 4, 4, 2, 2, 5, 6] r

/-- R570: RECOVER_BOOT; outside recovery it ends with LC_STATE, and its warm reset has the cause WARM_CMD (DEDUCED, log 65). -/
def State.recoverBoot (s : State) (src : Nat) (ecc : Ecc) : State :=
  if s.rd F.SEC_BOOT_STATUS_PHASE [] ≠ 4 then s.secEnd 3 0
  else if src % 64 ≠ 0 then s.secEnd 4 0
  else
    let h := s.secRead src 0x100 ecc
    match h.1 with
    | none => h.2.secEnd 6 0
    | some hb =>
      let r := h.2.secRead src (0x100 + min (leAt hb 0xC 4) (15 * 2 ^ 20) + 96) ecc
      match r.1 with
      | none => r.2.secEnd 6 0
      | some img =>
        let s := r.2
        let c := s.slotCheck img
        if c ≠ 0 then s.secEnd (recoverResult c) 0
        else (({ s with sec := { s.sec with flash := { s.sec.flash with slotA := some img } } }).secEnd 0 0).warmReset 3

/-- R587: a security command that takes time finishes. A source or destination that is no multiple of 64 ends any of them with
BAD_REQUEST (DEDUCED, log 65). -/
def State.secDone (s : State) (ecc : Ecc) : State :=
  match s.sec.cmd with
  | none => s
  | some (op, src, dst) =>
    if src % 64 ≠ 0 ∨ dst % 64 ≠ 0 then s.secEnd 4 0
    else match op with
      | 1 => s.attest src dst ecc
      | 2 => s.getCerts dst
      | 3 => s.keyList src ecc
      | 4 => s.lcAdvance src dst ecc
      | 5 => s.svnAdvance
      | _ => s.recoverBoot src ecc

/-! ### JTAG -/

/-- R601: an opcode is loaded and the register that it selects is shifted; what drives the pins may change with it. -/
def State.jtagLoad (s : State) (op bits : Nat) : State :=
  let was := s.pinMode
  let s := { s with sys := { s.sys with jtagIr := op } }
  (s.emit (.jtag s.jtagActs bits)).pinsFrom was

/-- R601: EXTEST, EXTEST_PULSE, EXTEST_TRAIN and HIGHZ act only while RESET_N is low, else as BYPASS; the first three select the
boundary register, HIGHZ the bypass register. -/
def State.jtagTest (s : State) (op : Nat) : State := s.jtagLoad op (if s.sys.resetN ∧ op ≠ 5 then s.sys.boundary else 0)

/-- R602: the IDCODE. -/
def idcode : Nat := Config.revision * 2 ^ 28 + 0x2048 * 2 ^ 12 + 0xB47

/-- R601: SAMPLE/PRELOAD: the sampled pins leave, the preloaded value enters. What the pins show in the boundary
register's own order is free (log 43). -/
def State.jtagSample (s : State) (preload : Nat) : State :=
  let d := s.draw
  ({ d.2 with sys := { d.2.sys with boundary := preload } }).jtagLoad 2 d.1.toNat

/-- R577, R603: Filavo test access; where it is closed the attempt is tamper and the opcode acts as BYPASS. -/
def State.jtagAccess (s : State) (op : Nat) : State :=
  if s.testAccess then s.jtagLoad op 0 else (s.tamper 3).jtagLoad 0x3FF 0

/-- R601: Test-Logic-Reset selects IDCODE. -/
def State.jtagReset (s : State) : State := ({ s with sys := { s.sys with jtagIr := 1 } }).pinsFrom s.pinMode

/-! ### I3C -/

/-- The I3C target changed. -/
def State.i3cSet (s : State) (f : I3cSt → I3cSt) : State := { s with i3c := f s.i3c }

/-- Whether a directed command names this target's dynamic address. -/
def State.i3cMine (s : State) (addr : Nat) : Bool := s.i3c.dynAddr == some addr

/-- R491: the answer to a directed read. -/
def State.i3cAnswer (s : State) (addr : Nat) (bs : List Byte) : State :=
  if s.i3cMine addr then s.emit (.i3c (some bs)) else s

/-- R491: ENTDAA gives a target without one a dynamic address. -/
def State.entdaa (s : State) (addr : Nat) : State :=
  if s.i3c.dynAddr.isNone then (s.i3cSet (fun x => { x with dynAddr := some addr })).emit (.i3c (some (Config.i3cPid ++ [Config.i3cBcr, Config.i3cDcr])))
  else s

/-- R491: SETDASA names the static address 0x50 + STRAP_SLOT. -/
def State.setdasa (s : State) (static addr : Nat) : State :=
  if static = 0x50 + s.rd F.GLB_COORD_SLOT_CODE [] ∧ s.i3c.dynAddr.isNone then s.i3cSet (fun x => { x with dynAddr := some addr }) else s

/-- R491: SETNEWDA. -/
def State.setnewda (s : State) (addr new : Nat) : State :=
  if s.i3cMine addr then s.i3cSet (fun x => { x with dynAddr := some new }) else s

/-- R492: the bytes of the board view. -/
def State.boardView (s : State) : List Byte :=
  let lo := leBytes 2 0x2048 ++ leBytes 1 Config.revision ++ [0] ++ leBytes 8 s.sec.fuses.serial ++
    leBytes 1 (s.rd F.GLB_COORD_SLOT_CODE []) ++ leBytes 1 s.sec.fuses.lc ++ [0, 0]
  let flags := b2n s.faults.pairFault + 2 * b2n s.sys.thermN + 4 * b2n (s.stylusUp 0) + 8 * b2n (s.stylusUp 1)
  lo ++ leBytes 2 (s.rd F.PWR_INPUT_VIN_MV []) ++ leBytes 2 (s.rd F.PWR_INPUT_PIN_W []) ++ leBytes 2 (s.rd F.PWR_THERM_TEMP []) ++
  leBytes 1 flags ++ [0] ++ leBytes 2 (s.rd F.FLT_RECOVERY_COUNT [])

/-- R492: a private write of one byte sets the index; a longer one is ignored. -/
def State.i3cWrite (s : State) (addr : Nat) (bs : List Byte) : State :=
  match s.i3cMine addr, bs with
  | true, [b] => s.i3cSet (fun x => { x with index := b.toNat })
  | _, _ => s

/-- R492: a private read of up to 8 bytes from the index, which advances. -/
def State.i3cRead (s : State) (addr n : Nat) : State :=
  if !(s.i3cMine addr) then s
  else
    let k := min n 8
    let v := s.boardView
    (s.emit (.i3c (some ((List.range k).map (fun i => nth 0 v ((s.i3c.index + i) % 256)))))).i3cSet
      (fun x => { x with index := (x.index + k) % 256 })

/-- R491: GETSTATUS; its bits are not stated and free (log 43). -/
def State.getStatus (s : State) (addr : Nat) : State :=
  let d := s.draw
  if s.i3cMine addr then d.2.emit (.i3c (some (leBytes 2 d.1.toNat))) else s

/-- R491: ENEC and DISEC of in-band interrupts; a broadcast names no target. -/
def State.ibiEnable (s : State) (addr : Option Nat) (on : Bool) : State :=
  match addr with
  | none => s.i3cSet (fun x => { x with ibiEn := on })
  | some a => if s.i3cMine a then s.i3cSet (fun x => { x with ibiEn := on }) else s

end Sys2Proof.Machine
end

