-- ==== Sys2Proof/Machine/Regs.lean ====
section
/-! DEFINITION. Register access: which registers answer (R9, R490, R609), what a read returns (R6, R335, R369, R382), and
what a write does beyond its access codes (R6, R9, R523 and the rules named at each register). -/
namespace Sys2Proof.Machine

/-! ### Registers that are absent, closed or isolated -/

/-- R369: registers that a tile's slice does not have: lead-tile registers elsewhere, TM_DSCP_COLOUR outside tiles 46 and
62, sample ring registers outside local tile 0. R462: channels 56 to 63 of a datamover. They read zero and ignore
writes. -/
def regAbsent (r : RegName) (idx : List Nat) : Bool :=
  let t := nth 0 idx 0
  match r with
  | .tmPortShape | .tmClassSched | .tmQmap | .tmPmap | .tmSample | .tmPolicer | .tmPolCnt => portTile (tilePort t) != t
  | .tmDscpColour0 | .tmDscpColour1 => t != 46 && t != 62
  | .tmSringCfg | .tmSringIdx => t % 16 != 0
  | .dmChCtrl | .dmChDesc | .dmChStatus | .dmChNext => decide (56 ≤ nth 0 idx 1)
  | _ => false

/-- R609: a register that samples the working state of a block now held in reset. -/
def State.regIsolated (s : State) (r : RegName) (idx : List Nat) : Bool :=
  let i := nth 0 idx 0
  match r with
  | .tileImgCmd | .tileImgStatus | .tileThreadStatus => s.inReset 0 i
  | .tileEngineOcc => s.inReset 0 i || s.inReset 1 i || s.inReset 2 i
  | .tmBufStatus | .tmQcfg => s.inReset 3 i
  | .linkPortStatus => s.inReset 4 i
  | .dmCtrl | .dmChCtrl => s.inReset 6 i
  | .bpPoolStatus | .bpAlloc | .bpFree => s.inReset 7 0
  | _ => false

/-! ### Values that a read computes -/

/-- R129: the code of a thread's state. -/
def ThreadSt.code : ThreadSt → Nat
  | .free => 0 | .ready => 1 | .blocked => 2 | .draining => 3 | .faulted => 4

/-- R129: what a blocked thread waits for. -/
def Waiting.code : Waiting → Nat
  | .nothing => 0 | .wait _ _ => 1 | .waitAny _ => 1 | .fence _ => 2 | .launch _ _ => 3 | .pend _ => 4 | .queue _ => 5

/-- R129: TILE_THREAD_STATUS. -/
def Tile.threadWord (tl : Tile) (n : Nat) : Nat :=
  let th := tl.thread n
  let block := if th.st = .blocked then th.waiting.code else 0
  let cause := if th.st = .free then 0 else th.cause
  th.st.code + 2 ^ 4 * (th.slot % 4) + 2 ^ 8 * (cause % 16) + 2 ^ 12 * block + 2 ^ 16 * (th.pc % 2 ^ 14) +
    2 ^ 32 * ((tl.heldBy n).length % 1024)

/-- R189: TILE_ENGINE_OCC. -/
def Tile.occWord (tl : Tile) : Nat :=
  tl.hatchQ.length % 128 + 2 ^ 8 * (tl.xhQ.length % 32) + 2 ^ 16 * (tl.memQ.length % 512) +
    2 ^ 32 * ((tl.tickets.filter (fun (e : Nat × Ticket) => e.2.held)).length % 1024)

/-- Cells that a slice holds in its output buffer, the reserve included (R370). -/
def TmTile.classCells (tm : TmTile) (c : Nat) : Nat := Tbl.look 0 tm.occ c + Tbl.look 0 tm.escOcc c

/-- R369: TM_BUF_STATUS. -/
def State.bufWord (s : State) (t : Nat) : Nat :=
  let tm := s.tm t
  let used := ((List.range 8).map tm.classCells).foldl (· + ·) 0 + tm.reorder
  (16384 - used - tm.leaked) + 2 ^ 16 * s.sharedFree t + 2 ^ 32 * tm.reorder + 2 ^ 48 * (tm.beAvg / 2 ^ 32)

/-- The cells that a queue holds (R382). -/
def TmTile.queueCells (tm : TmTile) (j : Nat) : Nat :=
  ((Tbl.look [] tm.queues j ++ Tbl.look [] tm.filling j).map QPkt.cells).foldl (· + ·) 0

/-- R354, R382: a read fetches a queue's state into the cache, in place of an empty queue's if it is full. -/
def TmTile.fetch (tm : TmTile) (j : Nat) : TmTile :=
  if tm.resident j ∨ (Tbl.find j tm.filling).isSome then tm
  else if tm.cached < 2048 then { tm with lru := j :: tm.lru }
  else if tm.lru.isEmpty then tm
  else { tm with lru := j :: tm.lru.dropLast }

/-- The value of a register as a read returns it, before what the read itself does (R6). LANE_STATUS.MARGIN and SKEW of a
lane that is not OFF, SIGNAL and CDR_LOCK of one in training or FAILED, and PCS_LOCK and FEC_ALIGN of an Ethernet port between
AN and UP are free values (log 10); in ALIGN the two do not both hold (R417). -/
def State.regValue (s : State) (r : RegName) (idx : List Nat) : Nat :=
  let i := nth 0 idx 0
  let j := nth 0 idx 1
  let n := s.rawReg r idx
  match r with
  | .glbCoord => s.coordWord
  | .gcCount => s.now
  | .tileImgStatus => setFieldOf n 8 12 ((s.tile i).slotCodes)
  | .tileThreadStatus => (s.tile i).threadWord j
  | .tileEngineOcc => (s.tile i).occWord
  | .tmBufStatus => s.bufWord i
  | .tmBufClass => setFieldOf n 48 15 ((s.tm i).classCells j)
  | .tmQcfg => setFieldOf (setFieldOf n 32 16 ((s.tm i).queueCells j)) 48 1 (b2n ((s.tm i).resident j))
  | .rtDrainCnt => s.inFlight i
  | .linkPortCfg => if i < 24 then setFieldOf n 6 1 0 else n
  | .bpPoolStatus => setFieldOf (setFieldOf n 0 24 (s.pool i).free) 24 10 (s.pool i).cache.length
  | .laneStatus =>
    let d := (Config.freeWord s.draws).toNat
    if s.laneState i = 0 then n
    else if s.laneState i = 1 ∨ s.laneState i = 6 then setFieldOf (setFieldOf n 8 16 d) 3 2 (d / 2 ^ 16)
    else setFieldOf n 8 16 d
  | .linkPortStatus => setFieldOf n 6 1 (b2n (decide (s.now < (s.link i).replayUntil)))
  | .linkEthStatus =>
    let st := s.ethState i
    if st = eTRAINING ∨ st = eALIGN ∨ st = eFAULT then
      let d := (Config.freeWord s.draws).toNat
      setFieldOf n 6 2 (if d % 4 = 3 ∧ st = eALIGN then 0 else d)
    else n
  | _ => n

/-- R6: a register read: its value, and the state after: an RC field is cleared, a queue's state is fetched. -/
def State.regRead (s : State) (r : RegName) (idx : List Nat) : Nat × State :=
  if regAbsent r idx then (0, s)
  else
    let v := s.regValue r idx
    match r with
    | .lanePrbsErr => (v, s.setRaw r idx 0)
    | .tmQcfg => (v, s.updTm (nth 0 idx 0) (fun tm => tm.fetch (nth 0 idx 1)))
    | .laneStatus | .linkEthStatus => (v, { s with draws := s.draws + 1 })
    | _ => (v, s)

/-! ### Writes with a rule of their own -/

/-- A write of a command register with GO and BUSY: GO while BUSY is ignored with the whole write (R192, R281, R556). -/
def State.goWrite (s : State) (r : RegName) (go busy : Bool) (lost : Fld) (v : Nat) (act : State → State) : State :=
  if go && busy then s.stick lost []
  else
    let s := s.swWrite r [] v
    if go then act s else s

/-- R235: a write of GLB_COMM_CMD. -/
def State.commCmdWrite (s : State) (v : Nat) : State :=
  s.goWrite .glbCommCmd (bitOf v 23) (s.on F.GLB_COMM_STATUS_BUSY []) F.GLB_COMM_STATUS_CMD_LOST v State.commGo

/-- R281: a write of GLB_GATE_CMD. -/
def State.gateCmdWrite (s : State) (v : Nat) : State :=
  s.goWrite .glbGateCmd (bitOf v 7) (s.on F.GLB_GATE_STATUS_BUSY []) F.GLB_GATE_STATUS_CMD_LOST v State.gateGo

/-- R556: a write of GLB_PAUSE_CMD. -/
def State.pauseCmdWrite (s : State) (v : Nat) : State :=
  s.goWrite .glbPauseCmd (bitOf v 22) (s.on F.GLB_PAUSE_STATUS_BUSY []) F.GLB_PAUSE_STATUS_CMD_LOST v State.pauseGo

/-- Some gate slot is not EMPTY. -/
def State.gateInUse (s : State) : Bool := (List.range 16).any (fun n => s.rd F.GLB_GATE_SLOT_STATE [n] != 0)

/-- R238: a write of GLB_STAGE_POOL or GLB_STAGE_HBM_BASE. -/
def State.stageWrite (s : State) (r : RegName) (v : Nat) : State :=
  let kib := fieldOf v 0 14 + s.rd F.GLB_GATE_POOL_SLOTS [] * s.rd F.GLB_GATE_POOL_SLOT_KIB []
  if !s.cs.comms.isEmpty ∨ (r = .glbStagePool ∧ (s.gateInUse ∨ 8192 < kib)) then s.refuse (regAddr r []) else s.swWrite r [] v

/-- R284: a write of GLB_GATE_POOL. -/
def State.gatePoolWrite (s : State) (v : Nat) : State :=
  if s.gateInUse ∨ 8192 < fieldOf v 16 5 * fieldOf v 0 14 + s.rd F.GLB_STAGE_POOL_PLATE_KIB [] then
    s.refuse (regAddr .glbGatePool [])
  else s.swWrite .glbGatePool [] v

/-- R555: some tile runs or stops an image that requires deterministic mode. -/
def State.determNeeded (s : State) : Bool :=
  s.tiles.any (fun (e : Nat × Tile) => [0, 1, 2, 3].any (fun k =>
    let sl := e.2.slot k
    (sl.st == .running || sl.st == .stopping) && bitOf sl.flags 0))

/-- R555: a write of GLB_MODE. -/
def State.modeWrite (s : State) (v : Nat) : State :=
  if s.on F.GLB_MODE_DETERM [] ∧ !bitOf v 0 ∧ s.determNeeded then s.refuse (regAddr .glbMode []) else s.swWrite .glbMode [] v

/-- R296: a write of RT_E2E, where IDLE_MS × 1,000 must exceed RETX_US. -/
def State.e2eWrite (s : State) (v : Nat) : State :=
  if fieldOf v 32 16 * 1000 ≤ max 1 (fieldOf v 0 16) then s.refuse (regAddr .rtE2e []) else s.swWrite .rtE2e [] v

/-- R351: the output buffer of a tile is not divided beyond its 16,384 cells. -/
def State.bufFits (s : State) (t : Nat) : Bool :=
  decide (((List.range 8).map (fun c => s.rd F.TM_BUF_CLASS_MIN [t, c] + s.rd F.TM_BUF_CLASS_ESC_RES [t, c])).foldl (· + ·) 0 +
    s.rd F.TM_BUF_CFG_REORDER [t] ≤ 16384)

/-- R351, R370: a write of TM_BUF_CLASS or TM_BUF_CFG. ESC_RES of BE stays zero. -/
def State.bufWrite (s : State) (r : RegName) (idx : List Nat) (v : Nat) : State :=
  let n := s.swWrite r idx v
  let n := if r = .tmBufClass ∧ nth 0 idx 1 = 7 then n.wr F.TM_BUF_CLASS_ESC_RES idx 0 else n
  if !(n.bufFits (nth 0 idx 0)) ∨ (r = .tmBufClass ∧ fieldOf v 16 15 < fieldOf v 0 15) then s.refuse (regAddr r idx) else n

/-- R369: a write of TM_QSTATE_BASE, refused while a port of the tile is up. -/
def State.qstateWrite (s : State) (t v : Nat) : State :=
  if s.portUp (tilePort t) then s.refuse (regAddr .tmQstateBase [t]) else s.swWrite .tmQstateBase [t] v

/-- R359: after a write of a shaper, its tokens are zero if SH_EN, RATE or BURST changed. -/
def State.shaperWrite (s : State) (r : RegName) (idx : List Nat) (v : Nat) (n : Option Node) : State :=
  let old := s.rawReg r idx
  let s := s.swWrite r idx v
  if fieldOf old 18 39 = fieldOf v 18 39 then s else s.zeroTokens (tilePort (nth 0 idx 0)) n

/-- Queues of a tile that hold cells. -/
def TmTile.loaded (tm : TmTile) : List Nat := tm.queues.map (·.1) ++ tm.filling.map (·.1)

/-- R380: a write of TM_GROUP. -/
def State.groupWrite (s : State) (t g v : Nat) : State :=
  let old := fieldOf (s.rawReg .tmGroup [t, g]) 57 4
  let v := if g < 10 then setFieldOf v 57 4 old else v
  let used := (s.tm t).loaded.any (fun j => s.rd F.TM_QCFG_GROUP [t, j] == g)
  if fieldOf v 57 4 ≠ old ∧ used then s.refuse (regAddr .tmGroup [t, g])
  else s.shaperWrite .tmGroup [t, g] v (some (.group (t - portTile (tilePort t)) g))

/-- R355, R382: a write of TM_QCFG. -/
def State.qcfgWrite (s : State) (t j v : Nat) : State :=
  let old := s.rd F.TM_QCFG_GROUP [t, j]
  let v := if j < 10 then setFieldOf v 16 8 old else v
  if fieldOf v 16 8 ≠ old ∧ (s.tm t).loaded.contains j then s.refuse (regAddr .tmQcfg [t, j]) else s.swWrite .tmQcfg [t, j] v

/-- R374: a write of TM_QMAP. -/
def State.qmapWrite (s : State) (t c v : Nat) : State :=
  let q := fieldOf v 0 14
  let k := fieldOf v 14 4
  if 16384 < q + 2 ^ k ∨ (q < 10 ∧ 0 < k) ∨ q = 8 ∨ q = 9 then s.refuse (regAddr .tmQmap [t, c]) else s.swWrite .tmQmap [t, c] v

/-- R375: a write of TM_PMAP. -/
def State.pmapWrite (s : State) (t c v : Nat) : State :=
  if 4096 < fieldOf v 0 12 + 2 ^ fieldOf v 12 4 then s.refuse (regAddr .tmPmap [t, c]) else s.swWrite .tmPmap [t, c] v

/-- R365: a write of TM_SAMPLE restarts the sampler's counter. -/
def State.sampleWrite (s : State) (t c v : Nat) : State :=
  let key := tilePort t * 8 + c
  let s := s.swWrite .tmSample [t, c] v
  { s with fab := { s.fab with sampler := Tbl.put key (0, (Tbl.look (0, 0) s.fab.sampler key).2) s.fab.sampler } }

/-- R366, R377: a write of TM_SRING_CFG; a ring P may not overlap a closed region of its plate. -/
def State.sringWrite (s : State) (t r v : Nat) : State :=
  let a := 64 * fieldOf v 6 42
  let len := ringEntries (fieldOf v 48 4) * (64 + 64 * (fieldOf v 52 4 + 1))
  if r = 0 ∧ s.closed a len then s.refuse (regAddr .tmSringCfg [t, r])
  else ((s.swWrite .tmSringCfg [t, r] v).wr F.TM_SRING_IDX_HEAD [t, r] 0).wr F.TM_SRING_IDX_TAIL [t, r] 0

/-- R411: a write of LANE_CTRL. -/
def State.laneCtrlWrite (s : State) (l v : Nat) : State :=
  let was := s.on F.LANE_CTRL_EN [l]
  let s := s.swWrite .laneCtrl [l] v
  if bitOf v 0 = was then s else s.laneEnable l (bitOf v 0)

/-- R399 to R401, R413: a write of LANE_PRBS. -/
def State.prbsWrite (s : State) (l v : Nat) : State :=
  let s := (s.swWrite .lanePrbs [l] v).showLane s l
  if bitOf v 4 then s.selfTest l else s

/-- R454, R461: a write of DM_CTRL. -/
def State.dmResumeWrite (s : State) (d v : Nat) : State := if bitOf v 0 then s.dmResume d else s

/-- R6, R9: a software write of a register takes effect: by its rule where it has one, else by its access codes. -/
def State.regWrite (s : State) (r : RegName) (idx : List Nat) (v : Nat) : State :=
  let i := nth 0 idx 0
  let j := nth 0 idx 1
  if regAbsent r idx then s
  else match r with
  | .glbCoord => s.coordWrite v
  | .glbMode => s.modeWrite v
  | .glbResetCmd => s.resetCmdWrite v
  | .glbMgmtWdog => s.wdogWrite v
  | .glbCommCmd => s.commCmdWrite v
  | .glbStagePool | .glbStageHbmBase => s.stageWrite r v
  | .glbGateCmd => s.gateCmdWrite v
  | .glbGatePool => s.gatePoolWrite v
  | .glbPauseCmd => s.pauseCmdWrite v
  | .glbStylusCfg => s.stylusCfgWrite v
  | .glbSqBase | .glbSqMailbox => s.ringAddrWrite r .glbSqCfg i v
  | .glbSqCfg => s.sqCfgWrite i v
  | .glbCqBase | .glbCqShadow => s.ringAddrWrite r .glbCqCfg i v
  | .glbCqCfg => s.cqCfgWrite i v
  | .fltPair => s.pairWrite v
  | .glbResetCause => s.rwsWrite F.GLB_RESET_CAUSE_WARM_COUNT [] v
  | .secTamper => s.rwsWrite F.SEC_TAMPER_COUNT [] v
  | .fltRecovery => s.rwsWrite F.FLT_RECOVERY_COUNT [] v
  | .fltDieLast0 => s.rwsWrite F.FLT_DIE_LAST0_WORD idx v
  | .fltDieLast1 => s.rwsWrite F.FLT_DIE_LAST1_WORD idx v
  | .fltInject => s.injectWrite v
  | .fltBlkrst => s.blkrstWrite v
  | .fltAselftest => s.selfTestWrite i v
  | .pwrDomain => s.pwrWrite i v
  | .pwrTherm => s.thermWrite v
  | .pwrInput => s.inputWrite v
  | .gcSet => s.gcSet v
  | .tileImgCmd => s.imgCmdWrite i v
  | .plateOwner => s.ownerWrite i v
  | .laneCtrl => s.laneCtrlWrite i v
  | .lanePrbs => s.prbsWrite i v
  | .linkPortCfg => s.portCfgWrite i v
  | .linkEthCfg => s.ethCfgWrite i v
  | .linkEthMac | .linkEthIp6Hi | .linkEthIp6Lo => s.ethRegWrite r i v
  | .tmBufCfg | .tmBufClass => s.bufWrite r idx v
  | .tmQstateBase => s.qstateWrite i v
  | .tmPortShape => s.shaperWrite r idx v none
  | .tmClassSched => s.shaperWrite r idx v (some (.cls j))
  | .tmQmap => s.qmapWrite i j v
  | .tmPmap => s.pmapWrite i j v
  | .tmSample => s.sampleWrite i j v
  | .tmSringCfg => s.sringWrite i j v
  | .tmGroup => s.groupWrite i j v
  | .tmPolicer => (s.swWrite r idx v).fillPolicer i j
  | .tmQcfg => s.qcfgWrite i j v
  | .rtCmd => s.rtCmdWrite v
  | .rtE2e => s.e2eWrite v
  | .rtFablevel => s.fabLevelWrite v
  | .rtEntry => s.writeEntry i v
  | .hbmCtrl => s.hbmCtrlWrite v
  | .ddrCtrl => s.ddrCtrlWrite v
  | .dmCtrl => s.dmResumeWrite i v
  | .dmChCtrl => s.dmCtrlWrite i j v
  | .dmChDesc => s.dmDescWrite i j v
  | .bpPoolCfg => s.bpCfgWrite i v
  | .bpPoolBase | .bpPoolRing => s.bpAddrWrite r i v
  | .bpFree => s.bpFree v
  | .secCmd => s.secWrite v
  | _ => s.swWrite r idx v

/-! ### The windows of the address map (R489) -/

/-- The register windows of R489: base and size; the last is that of tile 63. -/
def regWindows : List (Nat × Nat) :=
  [(0, 0x1000000), (0x20000000, 0x8000), (0x30000000, 0x30000), (0x40000000, 0x4000000),
   (0x50000000, 0x100000), (0x60000000, 0x10000), (0x68000000, 0x10000), (0x70000000, 0x400000), (0x78000000, 0x10000),
   (0x7C000000, 0x100000)] ++ (List.range 64).map (fun t => (0x10000000 + t * 0x100000, 0x100000))

/-- The register window that holds a range. -/
def regWindow (a n : Nat) : Option Nat :=
  ((List.range regWindows.length).zip regWindows).findSome? (fun w =>
    if w.2.1 ≤ a ∧ a + n ≤ w.2.1 + w.2.2 then some w.1 else none)

/-- R577, R578: windows that the life cycle, or recovery, closes to the stylus ports; FLT_INJECT where it is closed. -/
def State.lockedAt (s : State) (a : Nat) : Bool :=
  let lc := s.sec.fuses.lc
  let global := decide (a < 0x1000000)
  let sec := decide (0x7C000000 ≤ a) && decide (a < 0x7C100000)
  let plates := decide (plateBase ≤ a) && decide (a < plateBase + 64 * plateSize)
  let inject := regAddr .fltInject []
  if s.rd F.SEC_BOOT_STATUS_PHASE [] = 4 then !(sec || plates)
  else if lc = 1 then !(global || sec || plates) || a == inject
  else if lc = 4 then !(global || sec) || a == inject
  else false

end Sys2Proof.Machine
end

