-- ==== Sys2Proof/Machine/Stylus.lean ====
section
/-! DEFINITION. Stylus transactions (R466 to R471), requests forwarded between the switches of a rack (R486 to R488), and
management entries (R477 to R479). -/
namespace Sys2Proof.Machine

/-! ### Transactions (R466) -/

/-- A stylus transaction. -/
structure Txn where
  ty : Nat
  flags : Nat
  tag : Nat
  len : Nat
  addr : Nat
  data : List Byte
  deriving DecidableEq, Repr

/-- R466, R483: the transaction that bytes on a stylus port spell; `none` for one that is discarded, a doorbell with a zero bit
set among them. -/
def Txn.parse (b : List Byte) : Option Txn :=
  let ty := leAt b 0 1
  let len := leAt b 4 2
  let n := if ty = 3 ∨ ty = 5 then len else 0
  let addr := leAt b 8 8
  if b.length = 20 + n && crc32c (b.take (16 + n)) == leAt b (16 + n) 4 && (ty == 1 || ty == 3 || ty == 4 || ty == 5) &&
      decide (leAt b 1 1 < 4) && decide (len < 8192) && (leAt b 6 1 == 0 || ty == 4) && leAt b 7 1 == 0 &&
      (ty != 5 || (len == 8 && addr == 0 && fieldOf (leAt b 16 8) 14 2 == 0 && leAt b 20 4 == 0)) then
    some ⟨ty, leAt b 1 1, leAt b 2 2, len, addr, (b.drop 16).take n⟩
  else none

/-- R466: the bytes of a transaction from the control node. -/
def Txn.encode (x : Txn) : List Byte := wireTxn x.ty x.flags x.tag x.len 0 x.addr x.data

/-- The address within the target (R466). -/
def Txn.at_ (x : Txn) : Nat := if bitOf x.flags 1 then x.addr % 2 ^ 54 else x.addr

/-! ### Accesses (R9, R10, R468) -/

/-- What an access reaches: a register, an unassigned address of a register window, memory; or its failure with the
status of R468. -/
inductive Reach where
  | reg (r : RegName) (idx : List Nat)
  | hole
  | mem
  | fail (status : Nat)
  deriving DecidableEq, Repr

/-- R562, R570: requests are served: firmware runs, or the device is in recovery. -/
def State.stylusServes (s : State) : Bool := s.sys.fwRuns || s.rd F.SEC_BOOT_STATUS_PHASE [] == 4

/-- R468, R490, R562, R577: the checks of an access of `n` bytes, in the order in which R468 lists them; a LEN of a memory access
outside 1 to 4,096 gives ACCESS_ERROR (DEDUCED, log 68). -/
def State.reach (s : State) (a n : Nat) : Reach :=
  if !s.stylusServes then .fail 5
  else match regWindow a (max 1 n) with
    | some _ =>
      if n ≠ 8 ∨ a % 8 ≠ 0 then .fail 2
      else if s.lockedAt a then .fail 9
      else (match findReg a with
        | none => .hole
        | some (r, idx) => if s.regIsolated r idx then .fail 5 else .reg r idx)
    | none =>
      if s.rangeWin a (max 1 n) = none then .fail 1
      else if n = 0 ∨ 4096 < n then .fail 2
      else if !(s.admits a n .host) then .fail 3
      else if s.lockedAt a then .fail 9
      else .mem

/-- A read: status, data on OK, and the state after (R468). -/
def State.readAt (s : State) (a n : Nat) (ecc : Ecc) : Nat × List Byte × State :=
  match s.reach a n with
  | .fail st => (st, [], s)
  | .hole => (0, leBytes 8 0, s)
  | .reg r idx => let v := s.regRead r idx; (0, leBytes 8 v.1, v.2)
  | .mem =>
    let m := s.readMem a n ecc
    if m.2.1.isEmpty then (0, m.1, m.2.2) else (4, [], m.2.2)

/-- The pool whose BP_ALLOC a read of eight bytes reaches (R440, R459): the answer comes from the manager. -/
def State.allocAt (s : State) (a n : Nat) : Option Nat :=
  match s.reach a n with
  | .reg .bpAlloc idx => some (nth 0 idx 0)
  | _ => none

/-- A write: status and the state after (R468). -/
def State.writeAt (s : State) (a : Nat) (data : List Byte) : Nat × State :=
  match s.reach a data.length with
  | .fail st => (st, s)
  | .hole => (0, s)
  | .reg r idx => (0, s.regWrite r idx (leNat data))
  | .mem => (0, s.writeMem a data)

/-! ### Requests of the control node (R469 to R474) -/

/-- R469, R472: how a request ends: RDCPL for a read, WRACK where it was asked for, else a failure is kept and counted
(log 50). -/
def State.complete (s : State) (port : Nat) (isRead ackreq : Bool) (tag addr status : Nat) (data : List Byte) : State :=
  if isRead ∨ ackreq then
    (if s.stylusUp port then
      s.emit (.stylus port (if isRead then 2 else 4) 0 tag data.length status 0 data)
     else s)
  else if status = 0 then s
  else ((s.wr F.GLB_STYLUS_STATUS_LAST_ERR [port] status).wr F.GLB_STYLUS_ERR_ADDR [] addr).stylusCount port 0

/-- R470: a request of the port is in progress: it waits for the buffer pool manager or for another switch. -/
def State.portBusy (s : State) (p : Nat) : Bool :=
  s.bp.waits.any (fun (w : BpAsker × Nat) => match w.1 with | .stylus q _ => q == p | _ => false) ||
  s.stylus.fwd.any (fun f => f.port == p) ||
  s.todo.any (fun d => match d with | .bpReply (.stylus q _) _ => q == p | _ => false)

/-- R486: the packet of a forwarded request. -/
def State.mgtReq (s : State) (f : FwdReq) : Pkt :=
  ({ Pkt.make kMGTREQ 6 (f.target * 64 + 39) (s.switchId * 64 + 39) with
    chunk := f.addr % 2 ^ 32, opseq := f.addr / 2 ^ 32 % 2 ^ 22,
    arg := (if f.isRead then 1 else 3) + 2 ^ 4 * f.tag + 2 ^ 20 * f.port,
    payload := f.data, flags := 1 } : Pkt).seal

/-- R10, R486, R487: a request for another switch leaves, or ends with NO_ROUTE. MGT_REQ carries no LEN for a read, so a read of a
register window that is not of eight aligned bytes ends here as the target would end it (log 48). -/
def State.forward (s : State) (port : Nat) (x : Txn) : State :=
  let target := x.addr / 2 ^ 54
  let f : FwdReq := ⟨x.tag, port, x.ty == 1, bitOf x.flags 0, target, x.at_, x.len, x.data, 1⟩
  let r := Route.ofNat (s.rd F.RT_ENTRY_ENTRY [target * 64 + 39])
  if !(s.validId target) ∨ !r.valid then s.complete port f.isRead f.ackreq x.tag x.addr 7 []
  else if f.isRead ∧ (regWindow f.addr (max 1 f.len)).isSome ∧ (f.len ≠ 8 ∨ f.addr % 8 ≠ 0) then
    s.complete port true f.ackreq x.tag x.addr 2 []
  else ({ s with stylus := { s.stylus with fwd := s.stylus.fwd ++ [f] } }).owe (.inject 0 (s.mgtReq f) none)

/-- R466 to R470, R483, R486, R562: a request is performed, or ends with ISOLATED until firmware runs. One that resets the device
receives no completion (R561). -/
def State.perform (s : State) (port : Nat) (x : Txn) (ecc : Ecc) : State :=
  let fwd := bitOf x.flags 1
  if !s.stylusServes then s.complete port (x.ty == 1) (bitOf x.flags 0) x.tag x.addr 5 []
  else if x.ty = 5 then
    (if fwd then s.complete port false false x.tag x.addr 8 [] else s.doorbell (leNat x.data))
  else if fwd ∧ x.addr / 2 ^ 54 ≠ s.switchId then s.forward port x
  else if x.ty = 1 then
    (match s.allocAt x.at_ x.len with
     | some k => s.bpRequest (.stylus port x.tag) k
     | none =>
       let r := s.readAt x.at_ x.len ecc
       r.2.2.complete port true false x.tag x.addr r.1 r.2.1)
  else
    let r := s.writeAt x.at_ x.data
    if s.sys.fwRuns ∧ !r.2.sys.fwRuns then r.2 else r.2.complete port false (bitOf x.flags 0) x.tag x.addr r.1 []

/-- No error found in any memory word. -/
def Ecc.clean : Ecc := ⟨[], []⟩

/-- R470: the requests behind one that has ended are performed in order of arrival, until one has to wait. -/
def State.runBacklog (s : State) (port : Nat) : Nat → State
  | 0 => s
  | fuel + 1 =>
    if s.portBusy port then s
    else match s.stylus.backlog.find? (fun b => b.1 == port) with
      | none => s
      | some b =>
        let s := { s with stylus := { s.stylus with backlog := s.stylus.backlog.erase b } }
        (match Txn.parse b.2.1 with
         | some x => (s.perform port x b.2.2).runBacklog port fuel
         | none => s.runBacklog port fuel)

/-- Every waiting request of a port that can be performed now is. -/
def State.resumePort (s : State) (port : Nat) : State := s.runBacklog port (s.stylus.backlog.length + 1)

/-- R466, R470, R474: a transaction of one of the types that a row names arrives on a port that is UP. A malformed one is
discarded and counted; one of another type is another row's. -/
def State.stylusIn (s : State) (port : Nat) (bytes : List Byte) (mine : Txn → Bool) (ecc : Ecc) : State :=
  if !s.stylusUp port then s
  else match Txn.parse bytes with
    | none => s.stylusCount port 0
    | some x =>
      if !mine x then s
      else if x.ty = 4 then s.wrack port x.tag
      else if s.portBusy port then { s with stylus := { s.stylus with backlog := s.stylus.backlog ++ [(port, bytes, ecc)] } }
      else s.perform port x ecc

/-! ### Requests between the switches of a rack (R486 to R488) -/

/-- A request from the fabric ends: its response is kept and sent. -/
def State.mgtAnswer (s : State) (p : Pkt) (status : Nat) (data : List Byte) : State :=
  let tag := fieldOf p.arg 4 16
  let arg := setFieldOf p.arg 21 8 status
  let k : KeptRsp := ⟨p.src, tag, status, data, arg⟩
  let x := s.stylus
  let others := x.kept.filter (fun r => !(r.src == p.src && r.tag == tag))
  let s := { s with stylus := { x with
    slots := x.slots.filter (fun e => !(e.1 == p.src && e.2 == tag)), kept := (k :: others).take 256 } }
  s.owe (.inject 0 ({ Pkt.make kMGTRSP 6 p.src (s.switchId * 64 + 39) with
    chunk := p.chunk, opseq := p.opseq, arg := arg, payload := data, flags := 1 } : Pkt).seal none)

/-- R37, R486, R487: a request from the fabric is performed; one of another rack, whose control node does not manage this module,
is answered NO_ROUTE. MGT_REQ does not carry the length of a read of memory: it is free
(log 48). -/
def State.mgtPerform (s : State) (p : Pkt) (ecc : Ecc) : State :=
  let a := p.addr
  if p.src / 64 / 16 ≠ s.switchId / 16 then s.mgtAnswer p 7 []
  else if fieldOf p.arg 0 4 = 1 then
    let d := s.draw
    let n := if (regWindow a 1).isSome then 8 else 1 + d.1.toNat % 4096
    let s := if (regWindow a 1).isSome then s else d.2
    (match s.allocAt a n with
     | some k => s.bpRequest (.fabric p) k
     | none => let r := s.readAt a n ecc; r.2.2.mgtAnswer p r.1 r.2.1)
  else if fieldOf p.arg 0 4 = 3 then
    let r := s.writeAt a p.payload
    if s.sys.fwRuns ∧ !r.2.sys.fwRuns then r.2 else r.2.mgtAnswer p r.1 []
  else s

/-- R486, R488: MGT_REQ arrives at the target. -/
def State.mgtReqIn (s : State) (p : Pkt) (ecc : Ecc) : State :=
  let tag := fieldOf p.arg 4 16
  let x := s.stylus
  match x.kept.find? (fun r => r.src == p.src && r.tag == tag) with
  | some r => s.owe (.inject 0 ({ Pkt.make kMGTRSP 6 p.src (s.switchId * 64 + 39) with
      chunk := p.chunk, opseq := p.opseq, arg := r.arg, payload := r.data, flags := 1 } : Pkt).seal none)
  | none =>
    if x.slots.contains (p.src, tag) ∨ 256 ≤ x.slots.length then s
    else ({ s with stylus := { x with slots := x.slots ++ [(p.src, tag)] } }).mgtPerform p ecc

/-- A forwarded request ends with a status. -/
def State.fwdEnd (s : State) (f : FwdReq) (status : Nat) (data : List Byte) : State :=
  let s := { s with stylus := { s.stylus with fwd := s.stylus.fwd.filter (fun g => !(g.tag == f.tag && g.port == f.port)) } }
  (s.complete f.port f.isRead f.ackreq f.tag (f.target * 2 ^ 54 + f.addr) status (if status = 0 then data else [])).resumePort f.port

/-- R486: MGT_RSP returns. -/
def State.mgtRspIn (s : State) (p : Pkt) : State :=
  match s.stylus.fwd.find? (fun f => f.tag == fieldOf p.arg 4 16 && f.port == fieldOf p.arg 20 1 && f.target == p.src / 64) with
  | none => s
  | some f => s.fwdEnd f (fieldOf p.arg 21 8) p.payload

/-- R487: 50 µs have passed without an answer. -/
def State.mgtRepeat (s : State) (port tag : Nat) : State :=
  match s.stylus.fwd.find? (fun f => f.tag == tag && f.port == port) with
  | none => s
  | some f =>
    if 5 ≤ f.sends then s.fwdEnd f 6 []
    else
      let x := s.stylus
      ({ s with stylus := { x with
        fwd := x.fwd.map (fun (g : FwdReq) => if g.tag == tag && g.port == port then { g with sends := g.sends + 1 } else g) } }).owe
        (.inject 0 (s.mgtReq f) none)

/-! ### Management entries (R477 to R479) -/

/-- A submission ring whose next entry the management block may take. -/
def State.mgmtReady (s : State) (n : Nat) : Bool :=
  s.on F.GLB_SQ_CFG_EN [n] && s.rd F.GLB_SQ_CFG_CONSUMER [n] == 0 &&
  s.rd F.GLB_SQ_IDX_HEAD [n] != s.rd F.GLB_SQ_IDX_TAIL [n] &&
  !(s.stylus.polls.any (fun p => p.ring == n)) && !(s.stylus.mgmtHeld.any (fun h => h.ring == n))

/-- Rings with a GLB_SQ_CFG that software has written. -/
def State.sqSeen (s : State) : List Nat :=
  (s.regs.filter (fun (e : Nat × Word) => decide (0x20000 ≤ e.1) && decide (e.1 < 0x40000) && decide (e.1 % 32 = 8))).map
    (fun (e : Nat × Word) => (e.1 - 0x20000) / 32)

/-- R477: the ring whose turn it is: the next one with work after the ring taken last. -/
def State.mgmtTurn (s : State) : Option Nat :=
  let ready := s.sqSeen.filter s.mgmtReady
  let dist (n : Nat) : Nat := (n + 4096 - s.stylus.turn - 1) % 4096
  ready.foldl (fun m n => match m with
    | none => some n
    | some k => if dist n < dist k then some n else some k) none

/-- HEAD of a submission ring advances. -/
def State.sqNext (s : State) (n : Nat) : State := s.wr F.GLB_SQ_IDX_HEAD [n] ((s.rd F.GLB_SQ_IDX_HEAD [n] + 1) % 65536)

/-- R479: an entry's record is posted, held or lost. -/
def State.mgmtRecord (s : State) (ring cq w0 w1 : Nat) : State :=
  match s.postCq cq w0 w1 none with
  | (s', .posted) => s'.sqNext ring
  | (s', .full) => { s' with stylus := { s'.stylus with mgmtHeld := s'.stylus.mgmtHeld ++ [⟨ring, cq, w0, w1⟩] } }
  | (s', .off) => (s'.stylusCount 0 2).sqNext ring

/-- R479: an entry ends. -/
def State.mgmtEnd (s : State) (ring cq : Nat) (report : Bool) (status value : Nat) : State :=
  if status ≠ 0 ∨ report then
    s.mgmtRecord ring cq (ring + 2 ^ 12 * s.rd F.GLB_SQ_IDX_HEAD [ring] + 2 ^ 28 * status) value
  else s.sqNext ring

/-- R477: an entry whose fields are those of a known operation. -/
def entryOk (b : List Byte) : Bool :=
  decide (leAt b 0 1 ≤ 3) && decide (leAt b 1 1 ≤ 1) && decide (leAt b 2 2 < 4096) && leAt b 4 4 == 0 &&
  (leAt b 0 1 == 3 || leAt b 0x18 8 == 0)

/-- R478: a value read by a READ or a POLL entry. -/
def State.pollValue (s : State) (p : PollSt) (status v : Nat) : State :=
  let drop (s : State) : State := { s with stylus := { s.stylus with polls := s.stylus.polls.filter (fun q => q.ring != p.ring) } }
  match p.poll with
  | none => (drop s).mgmtEnd p.ring p.cq p.report status v
  | some (want, mask) =>
    if status ≠ 0 then (drop s).mgmtEnd p.ring p.cq p.report status p.last
    else if v &&& mask = want then (drop s).mgmtEnd p.ring p.cq p.report 0 v
    else { s with stylus := { s.stylus with
      polls := s.stylus.polls.map (fun (q : PollSt) => if q.ring == p.ring then { q with last := v } else q) } }

/-- R477, R478: the register of a READ or POLL entry is read, through the buffer pool manager if it is BP_ALLOC. -/
def State.pollRead (s : State) (p : PollSt) (ecc : Ecc) : State :=
  match s.allocAt p.addr 8 with
  | some k => s.bpRequest (.mgmt p.ring) k
  | none => let r := s.readAt p.addr 8 ecc; r.2.2.pollValue p r.1 (leNat r.2.1)

/-- R477 to R479: an entry is executed. -/
def State.mgmtExec (s : State) (n : Nat) (b : List Byte) (ecc : Ecc) : State :=
  let cq := leAt b 2 2 % 4096
  let report := bitOf (leAt b 1 1) 0
  let addr := leAt b 8 8
  match leAt b 0 1 with
  | 0 => s.mgmtEnd n cq report 0 0
  | 1 =>
    let r := s.writeAt addr ((b.drop 0x10).take 8)
    if s.sys.fwRuns ∧ !r.2.sys.fwRuns then r.2 else r.2.mgmtEnd n cq report r.1 0
  | op =>
    let p : PollSt := ⟨n, cq, report, addr, if op = 3 then some (leAt b 0x10 8, leAt b 0x18 8) else none, 0⟩
    ({ s with stylus := { s.stylus with polls := s.stylus.polls ++ [p] } }).pollRead p ecc

/-- R475, R477: the next entry in turn is taken, if it is of the operation that a row names; entries that are malformed or
cannot be read are the first row's (log 49). -/
def State.mgmtStep (s : State) (op : Nat) (ecc : Ecc) : State :=
  match if s.sys.fwRuns then s.mgmtTurn else none with
  | none => s
  | some n =>
    let ent := ringEntries (s.rd F.GLB_SQ_CFG_ENTRIES_LOG2 [n])
    let a := s.rd F.GLB_SQ_BASE_BASE [n] + 32 * (s.rd F.GLB_SQ_IDX_HEAD [n] % ent)
    let win := s.rangeWin a 32
    let there := win = some .hbm ∨ win = some .ddr
    let turn (s : State) : State := { s with stylus := { s.stylus with turn := n } }
    if !there then (if op = 0 then (turn s).mgmtEnd n 0 false 1 0 else s)
    else
      let r := s.readMem a 32 ecc
      let cq := leAt r.1 2 2 % 4096
      if !r.2.1.isEmpty then (if op = 0 then (turn r.2.2).mgmtEnd n cq false 4 0 else s)
      else if !entryOk r.1 then (if op = 0 then (turn r.2.2).mgmtEnd n cq false 8 0 else s)
      else if leAt r.1 0 1 = op then (turn r.2.2).mgmtExec n r.1 ecc
      else s

/-- R478: a POLL entry reads its register again. -/
def State.pollRetry (s : State) (n : Nat) (ecc : Ecc) : State :=
  match s.stylus.polls.find? (fun p => p.ring == n && p.poll.isSome) with
  | none => s
  | some p => if s.bp.waits.any (fun (w : BpAsker × Nat) => w.1 == BpAsker.mgmt n) then s else s.pollRead p ecc

/-- R478: POLL_US has passed. -/
def State.pollTimeout (s : State) (n : Nat) : State :=
  match s.stylus.polls.find? (fun p => p.ring == n && p.poll.isSome) with
  | none => s
  | some p =>
    let x := s.stylus
    ({ s with
      stylus := { x with polls := x.polls.filter (fun q => q.ring != n) },
      bp := { s.bp with waits := s.bp.waits.map (fun (w : BpAsker × Nat) =>
        if w.1 == BpAsker.mgmt n then (.nobody, w.2) else w) } }).mgmtEnd n p.cq p.report 6 p.last

/-- R440, R470, R479, R486: the buffer pool manager has answered. -/
def State.bpReply (s : State) (who : BpAsker) (word : Nat) : State :=
  match who with
  | .stylus port tag => (s.complete port true false tag 0 0 (leBytes 8 word)).resumePort port
  | .dm d c => s.dmPool d c word
  | .mgmt n => (match s.stylus.polls.find? (fun p => p.ring == n) with
    | some p => s.pollValue p 0 word
    | none => s)
  | .fabric p => s.mgtAnswer p 0 (leBytes 8 word)
  | .nobody => s

/-! ### Records that waited for ring room (R451, R479, R482, R501) -/

/-- R501: a collector's held records are posted in order while there is room. -/
def State.collRings (s : State) (d : Nat) : Nat → State
  | 0 => s
  | fuel + 1 =>
    match (s.coll d).held with
    | [] => s
    | (w0, w1) :: rest =>
      (match s.postRecordWord d w0 w1 with
       | (s', .posted) => (s'.updColl d (fun c => { c with held := rest })).collRings d fuel
       | (s', .full) => s'
       | (s', .off) => ((s'.updColl d (fun c => { c with held := rest })).loseRecord d).collRings d fuel)

/-- R479: held management records are posted in order while there is room. -/
def State.mgmtRings (s : State) : State :=
  s.stylus.mgmtHeld.foldl (fun (s : State) h =>
    ({ s with stylus := { s.stylus with mgmtHeld := s.stylus.mgmtHeld.erase h } }).mgmtRecord h.ring h.cq h.w0 h.w1) s

/-- Ring room has come free: whoever waits for it tries again. -/
def State.ringsAgain (s : State) : State :=
  ([0, 1, 2, 3].foldl (fun (s : State) d => s.collRings d ((s.coll d).held.length + 1)) s).dmRings.mgmtRings

end Sys2Proof.Machine
end

