-- ==== Sys2Proof/Machine/Settle.lean ====
section
/-! DEFINITION. What a command still owes is carried out before it ends: packets that its work sends or delivers inside the
switch, isolation, freed rings and the rest of `Due`. -/
namespace Sys2Proof.Machine

/-- A packet delivered to an internal endpoint is performed (R194, R206, R289, R300, R427, R486); then packets held ahead
of order that follow it are delivered too (R296). -/
def State.deliver (s : State) (t : Nat) (p : Pkt) : State :=
  let k := p.kind
  let s :=
    if k = kPUT then s.performPut t p
    else if k = kGETREQ then s.performGetReq t p Ecc.clean
    else if k = kGETDATA then s.performGetData t p
    else if k = kACK then s.performAck p
    else if k = kNACK then s.performNack p
    else if k = kCREDIT then (s.performed t p).creditIn p
    else if k = kDIGEST then s.digestIn p
    else if k = kMGTREQ then s.mgtReqIn p Ecc.clean
    else if k = kMGTRSP then s.mgtRspIn p
    else if k = kCONTRIB ∨ k = kTOKEN ∨ k = kANSWER then s.collIn t p true 0
    else if k = kPARTIAL ∨ k = kRESULT then
      let d := s.draw
      d.2.collIn t p (d.1.toNat % 2 = 1) 0
    else s.performed t p
  s.followPkt t p

/-- A packet that stays on its link has arrived and its trailer is checked (R301, R321, R532). -/
def State.linkMsg (s : State) (port : Nat) (p : Pkt) : State :=
  if !p.trailerOk then s.report ⟨portDie port, 1, 0x0E, 0, p.src, 0, false, false, false⟩
  else if p.kind = kDISCOVER then s.discover port p.payload else s.timeIn port p

/-- A packet's retention has ended (R299, R302, R303). -/
def State.ownReleased (s : State) (o : Own) (status : Nat) : State :=
  match o.kind with
  | 0 => s
  | 1 => s.xferReleased o status
  | 9 => s
  | _ => s.collReleased o status

/-- One consequence is carried out. -/
def State.carry (s : State) (d : Due) : State :=
  match d with
  | .isolate dom inst counts => s.isolateBlock dom inst false counts
  | .uf => s.fatal
  | .portDown p => s.lanesGone p
  | .ringCheck => s.ringsEval true
  | .reoffer => s.reofferHeld.followAll.drainOut
  | .advance id => s.advanceComm id
  | .memberLost id seq => s.memberLost id seq
  | .released o status => s.ownReleased o status
  | .inject die p list => s.enter (26 + die) p ⟨0, list, none⟩
  | .deliver t p => s.deliver t p
  | .portMsg port p => s.linkMsg port p
  | .ringView => s.ringViewLost
  | .portLost p => s.accPortLost p
  | .retryAll => s.retryAllWaiting.pfcAll
  | .bpReply who word => s.bpReply who word
  | .rings => s.ringsAgain

/-- Consequences are carried out in the order in which they arose, at most `n` of them. -/
def State.carryAll (s : State) : Nat → State
  | 0 => s
  | n + 1 =>
    match s.todo with
    | [] => s
    | d :: rest => (({ s with todo := rest }).carry d).carryAll n

/-- More consequences than any one command has (log 57). -/
def carryLimit : Nat := 1000000

/-- Everything that a command owes is carried out. -/
def State.settle (s : State) : State := s.carryAll carryLimit

/-- The device is powered and out of cold reset (R559, R592). -/
def State.live (s : State) : Bool := s.sys.power && !s.sys.resetN

/-- R528, R529, log 1: an idle cycle: the count of a powered device out of cold reset advances by one. An offset to the parent is
slewed away at 200 ppm, one count in 5,000; in holdover the count runs on at the rate that it had (R536; log 40). -/
def State.idle (s : State) : State :=
  let t := s.time
  if !s.live then s
  else if -8 < t.debt ∧ t.debt < 8 then { s with count := s.count + 1 }
  else if t.phase + 1 < 5000 then { s with count := s.count + 1, time := { t with phase := t.phase + 1 } }
  else
    let k : Int := if s.on F.GC_STATUS_HOLDOVER [] then 0 else 8
    if 0 < t.debt then { s with count := s.count + 2, time := { t with phase := 0, debt := t.debt - k } }
    else { s with time := { t with phase := 0, debt := t.debt + k } }

end Sys2Proof.Machine
end

