-- ==== Sys2Proof/Machine/Cmd.lean ====
section
/-! DEFINITION. What several rows of the command table share: guards, register commands, packets and frames handed over by
their own rows, engine starts. -/
namespace Sys2Proof.Machine

/-! ### Guards -/

/-- A command's effect: its own, then what it owes. The queue of waiting commands is not a command's business. -/
def act (s : State) (f : State → State) : Host.Outcome State Fault Refusal :=
  .next { (f s).settle with pending := s.pending }

/-- A command that needs the device powered and out of cold reset; elsewhere it has no effect (R559, R592; log 5). -/
def actLive (s : State) (f : State → State) : Host.Outcome State Fault Refusal :=
  act s (fun s => if s.live then f s else s)

/-- A command that needs power only (R592; log 5). -/
def actPowered (s : State) (f : State → State) : Host.Outcome State Fault Refusal :=
  act s (fun s => if s.sys.power then f s else s)

/-- A command of a tile: the tile is not in a low state (R552, R553; log 5). -/
def actTile (s : State) (t : Nat) (f : State → State) : Host.Outcome State Fault Refusal :=
  actLive s (fun s => if s.pwrState (64 + t) = 0 then f s else s)

/-! ### Register commands -/

/-- A write of a register that a row names, where an access of the stylus port would reach it (R468, R490). -/
def State.cmdWrite (s : State) (r : RegName) (idx : List Nat) (v : Nat) : State :=
  match s.reach (regAddr r idx) 8 with
  | .reg _ _ => s.regWrite r idx v
  | _ => s

/-- A write of a register that firmware, too, makes (R432, R438). -/
def State.fwWrite (s : State) (r : RegName) (idx : List Nat) (v : Nat) : State :=
  if s.sys.fwRuns then s.regWrite r idx v else s

/-- A read of a register that changes the state (R382, R413). -/
def State.cmdRead (s : State) (r : RegName) (idx : List Nat) : State :=
  match s.reach (regAddr r idx) 8 with
  | .reg _ _ => (s.regRead r idx).2
  | _ => s

/-- R359: a write of one of the shaper registers. -/
def State.shaperCmd (s : State) (a v : Nat) : State :=
  match s.reach a 8 with
  | .reg .tmPortShape idx => s.regWrite .tmPortShape idx v
  | .reg .tmClassSched idx => s.regWrite .tmClassSched idx v
  | .reg .tmGroup idx => s.regWrite .tmGroup idx v
  | _ => s

/-! ### Packets with a row of their own (log 14) -/

/-- A packet of a kind reaches an internal endpoint of this switch, its checks passed (R293, R301): it goes through the
resequencer as any packet does (R296, R298), and is performed when it is next in order; what was held behind it follows. -/
def State.recv (s : State) (k : Nat) (bytes : List Byte) (f : Nat → Pkt → State → State) : State :=
  match Pkt.parse bytes with
  | .ok p =>
    if p.kind = k ∧ p.dst / 64 = s.switchId ∧ 32 ≤ p.dst % 64 ∧ !(reservedEndpoint (p.dst % 64)) ∧ !s.pathShut p then
      let t := ctxTile p
      match s.reseq t p 0 26 with
      | (s, .done) => s
      | (s, .next) =>
        match s.takeInOrder t p with
        | (s, false) => s
        | (s, true) =>
          (f t p s).followPkt t p
    else s
  | _ => s

/-- A packet of a kind that stays on its link (R321, R532); its cells are granted again (R392). -/
def State.recvLink (s : State) (k port : Nat) (bytes : List Byte) : State :=
  if !s.fabricPort port ∨ !(s.portState port = pMGMT ∨ s.portState port = pUP) then s
  else match Pkt.parse bytes with
    | .ok p => if p.kind = k then (s.freeRx port p).linkMsg port p else s
    | _ => s

/-- A TIME packet of a type: 1 request, 2 response (R533). -/
def State.recvTime (s : State) (ty port : Nat) (bytes : List Byte) : State :=
  match Pkt.parse bytes with
  | .ok p => if p.kind = kTIME ∧ leAt p.payload 0 1 = ty then s.recvLink kTIME port bytes else s
  | _ => s

/-! ### Engines and collectives -/

/-- R508, R509: whether the block that an operation goes to is in reset. -/
def State.opShut (s : State) (t : Nat) (op : EngOp) : Bool :=
  if op.cls = 3 then s.inReset 2 t else if op.cls = 5 then s.inReset 5 (tileDie t) else op.cls != 4 && s.inReset 1 t

/-- R553: an operation waits for a crosshatch unit, or for a stack that it reads or writes, that is in a low state. -/
def State.opHeld (s : State) (t : Nat) (op : EngOp) : Bool :=
  if op.cls = 3 then s.pwrState (128 + t) != 0
  else if op.cls = 4 then (piecesOf (opBytes op (memMask (s.tile t) op))).any (fun p => s.lowStack (64 * p) 64)
  else op.cls == 5 && op.opc == 0x20 && s.lowStack op.sc.sb (op.sc.se % 2 ^ 32)

/-- R90, R184 to R186, R508, R553: an engine of a tile starts its next operation; one whose block is in reset ends with
ISOLATED, and one for a domain in a low state waits. -/
def State.engineStart (s : State) (t engine : Nat) (ecc : Ecc) : State :=
  let tl := s.tile t
  if s.inReset 0 t then s
  else match tl.nextOp engine (fun op => !s.opShut t op && s.opHeld t op) with
    | none => s
    | some op =>
      if s.opShut t op then s.tileStep t (fun tl => tl.failOp op 0x04 0)
      else if op.cls = 3 then s.startXmm t op
      else if op.cls = 4 then s.startMemory t op
      else if op.cls ≠ 5 then s.startHatch t op
      else match tl.sourceVerdict op with
        | some v => s.tileStep t (fun tl => tl.failOp op v.1 v.2)
        | none =>
          if op.opc = 0x20 then s.startPut t op ecc
          else if op.opc = 0x21 then s.startGet t op
          else s.startNotify t op

/-- R183, R207: an issued collective leaves its queue and is launched. -/
def State.launchNow (s : State) (t : Nat) (op : EngOp) : State :=
  (s.tileStep t (fun tl => let tl := tl.dropOp op.entry
                           { tl with commRun := tl.commRun ++ [op] })).launch t op

/-- R212: the tiles whose hatch engines take part in the next step of a chunk: none for an operation that moves data. -/
def Run.stepTiles (r : Run) (g : Nat) : List Nat :=
  if !redOpc r.x.op then []
  else if r.x.parts.any (fun p => p.gen == g) then [chunkTile g]
  else (((List.range r.c.desc.members.length).map (fun m => dieTile (r.memberDie m) g)) ++ [chunkTile g]).foldl
    (fun l t => addWord t l) []

/-- R69, R76, R212: a chunk's inputs are combined; `residue` counts the mismatches that the checks of the hatch engine that holds the
switch's partial find by themselves. A failed check makes the chunk bad. -/
def Run.combineChecked (r : Run) (g : Nat) (ecc : Ecc) (residue : Nat) : Run :=
  if (r.combine g ecc).x = r.x then r.combine g ecc
  else
    let k := (r.stepTiles g).foldl (fun (a : Bool × Run) t =>
      let c := a.2.checked t false 1 (if t = chunkTile g then residue else 0)
      (a.1 || c.1, c.2)) (false, r)
    let spoil (r : Run) : Run := { r with x := { r.x with parts := r.x.parts.map (fun (p : Part) =>
      if p.gen == g then { p with bad := true } else p) } }
    if !k.1 then k.2.combine g ecc
    else if r.x.parts.any (fun p => p.gen == g) then (spoil k.2).combine g ecc
    else spoil (k.2.combine g ecc)

/-- R212, R509, R519: a step of a chunk, unless an engine that it needs is in reset, under self-test or in a low state. -/
def State.chunkCombine (s : State) (id seq g : Nat) (ecc : Ecc) (residue : Nat) : State :=
  s.collStep id seq (fun r => if (r.stepTiles g).all s.hatchFree then r.combineChecked g ecc residue else r)

end Sys2Proof.Machine
end

