-- ==== Sys2Proof/Machine/CommCmds.lean ====
section
/-! DEFINITION. Communicators and collectives (R190 to R239). -/
namespace Sys2Proof.Machine

/-- GO with OP none on GLB_COMM_CMD performs nothing (R607). -/
def execCommCmdNone (comm : BitVec 20) (s : State) : Host.Outcome State Fault Refusal :=
  actLive s (fun s => s.cmdWrite .glbCommCmd [] (comm.toNat + 0 * 2 ^ 20 + 2 ^ 23))

/-- Reads and checks a communicator descriptor and reserves its staging quota (R192). -/
def execCommCreate (comm : BitVec 20) (s : State) : Host.Outcome State Fault Refusal :=
  actLive s (fun s => s.cmdWrite .glbCommCmd [] (comm.toNat + 1 * 2 ^ 20 + 2 ^ 23))

/-- Starts the agreement of a RESERVED communicator with its level groups (R194). -/
def execCommArm (comm : BitVec 20) (s : State) : Host.Outcome State Fault Refusal :=
  actLive s (fun s => s.cmdWrite .glbCommCmd [] (comm.toNat + 2 * 2 ^ 20 + 2 ^ 23))

/-- Releases a communicator's quota and returns its ID to EMPTY (R192). -/
def execCommDestroy (comm : BitVec 20) (s : State) : Host.Outcome State Fault Refusal :=
  actLive s (fun s => s.cmdWrite .glbCommCmd [] (comm.toNat + 3 * 2 ^ 20 + 2 ^ 23))

/-- Returns a FAULTED communicator to ACTIVE with a new next sequence number (R192). -/
def execCommReset (comm : BitVec 20) (s : State) : Host.Outcome State Fault Refusal :=
  actLive s (fun s => s.cmdWrite .glbCommCmd [] (comm.toNat + 4 * 2 ^ 20 + 2 ^ 23))

/-- Reports a communicator's state and next sequence number (R192). -/
def execCommQuery (comm : BitVec 20) (s : State) : Host.Outcome State Fault Refusal :=
  actLive s (fun s => s.cmdWrite .glbCommCmd [] (comm.toNat + 5 * 2 ^ 20 + 2 ^ 23))

/-- An agreement digest arrives from a group switch; ARM ends OK or with AGREE once every digest is known (R194). -/
def execDigestReceive (bytes : List Byte) (s : State) : Host.Outcome State Fault Refusal :=
  actLive s (fun s => s.recv kDIGEST bytes (fun _ p s => s.digestIn p))

/-- ARM has heard nothing for GLB_COMM_TIMEOUT.LIMIT and ends with ARM_TIMEOUT (R194). -/
def execArmTimeout (comm : BitVec 20) (s : State) : Host.Outcome State Fault Refusal :=
  actLive s (fun s => s.armTimeout comm.toNat)

/-- A member's contribution packet arrives and is staged against a credit, or discarded if uncredited (R199). -/
def execContribReceive (bytes : List Byte) (s : State) : Host.Outcome State Fault Refusal :=
  actLive s (fun s => s.recv kCONTRIB bytes (fun t p s => s.collIn t p true 0))

/-- A partial from a ring neighbour arrives and is staged (R213). -/
def execPartialReceive (bytes : List Byte) (agree : Bool) (s : State) : Host.Outcome State Fault Refusal :=
  actLive s (fun s => s.recv kPARTIAL bytes (fun t p s => s.collIn t p agree 0))

/-- A result chunk from a higher level arrives and is relayed down (R213). -/
def execResultReceive (bytes : List Byte) (agree : Bool) (s : State) : Host.Outcome State Fault Refusal :=
  actLive s (fun s => s.recv kRESULT bytes (fun t p s => s.collIn t p agree 0))

/-- A chunk credit packet from a ring neighbour arrives (R206). -/
def execCreditReceive (bytes : List Byte) (s : State) : Host.Outcome State Fault Refusal :=
  actLive s (fun s => s.recv kCREDIT bytes (fun t p s => (s.performed t p).creditIn p))

/-- A chunk's inputs for a step are staged, so an engine combines them and passes the chunk on (R212). -/
def execChunkCombine (comm : BitVec 20) (seq : BitVec 32) (chunk : BitVec 32) (ecc : Ecc) (residue : Nat)
    (s : State) : Host.Outcome State Fault Refusal :=
  actLive s (fun s => s.chunkCombine comm.toNat seq.toNat chunk.toNat ecc residue)

/-- An operation that has made no progress for GLB_COMM_TIMEOUT.LIMIT ends with TIMEOUT (R229). -/
def execCollectiveTimeout (comm : BitVec 20) (seq : BitVec 32) (s : State) : Host.Outcome State Fault Refusal :=
  actLive s (fun s => s.collTimeout comm.toNat seq.toNat)

/-- A landed AGMM piece is multiplied into each member's running product, in rank order when deterministic (R225); `found.residue`
counts the mismatches that a crosshatch unit meets by itself (R76). -/
def execAgmmPieceMultiply (comm : BitVec 20) (seq : BitVec 32) (rank : Fin 65536) (found : Found)
    (s : State) : Host.Outcome State Fault Refusal :=
  actLive s (fun s => s.collStep comm.toNat seq.toNat (fun r => r.agmmPiece rank found.ecc found.residue))

/-- The descriptor read for CREATE ends; the checks and the quota reservation finish, the state becomes RESERVED or
stays EMPTY, and LAST_RESULT is posted (R192). -/
def execCommCreateDone (ecc : Ecc) (s : State) : Host.Outcome State Fault Refusal :=
  actLive s (fun s => s.commCreateDone ecc)

/-- While ARM is in progress, the switch sends its agreement digest again to the switches of its level groups that
have not yet answered (R298). -/
def execDigestRepeat (comm : BitVec 20) (s : State) : Host.Outcome State Fault Refusal :=
  actLive s (fun s => s.digestRepeat comm.toNat)

end Sys2Proof.Machine
end

