-- ==== Sys2Proof/Machine/Communicate.lean ====
section
/-! DEFINITION. Communicate instructions when they issue (R182 to R186, R207, R240, R268). -/
namespace Sys2Proof.Machine

/-- Launches an all-reduce collective (R220). -/
def execAred (tile : Fin 64) (thread : Fin 128) (w : BitVec 119) (s : State) : Host.Outcome State Fault Refusal :=
  actTile s tile (fun s => s.issueTicketed tile thread 5 0x00 w (fun s op => s.launchNow tile op))

/-- Launches a reduce-scatter collective (R220). -/
def execRsct (tile : Fin 64) (thread : Fin 128) (w : BitVec 119) (s : State) : Host.Outcome State Fault Refusal :=
  actTile s tile (fun s => s.issueTicketed tile thread 5 0x01 w (fun s op => s.launchNow tile op))

/-- Launches an all-gather collective (R220). -/
def execAgth (tile : Fin 64) (thread : Fin 128) (w : BitVec 119) (s : State) : Host.Outcome State Fault Refusal :=
  actTile s tile (fun s => s.issueTicketed tile thread 5 0x02 w (fun s op => s.launchNow tile op))

/-- Launches a broadcast from a root rank (R220). -/
def execBcst (tile : Fin 64) (thread : Fin 128) (w : BitVec 119) (s : State) : Host.Outcome State Fault Refusal :=
  actTile s tile (fun s => s.issueTicketed tile thread 5 0x03 w (fun s op => s.launchNow tile op))

/-- Launches a reduce to a root rank (R220). -/
def execRedu (tile : Fin 64) (thread : Fin 128) (w : BitVec 119) (s : State) : Host.Outcome State Fault Refusal :=
  actTile s tile (fun s => s.issueTicketed tile thread 5 0x04 w (fun s op => s.launchNow tile op))

/-- Launches a padded all-to-all with a count array at each receiver (R222). -/
def execA2av (tile : Fin 64) (thread : Fin 128) (w : BitVec 119) (s : State) : Host.Outcome State Fault Refusal :=
  actTile s tile (fun s => s.issueTicketed tile thread 5 0x05 w (fun s op => s.launchNow tile op))

/-- Launches an all-gather whose pieces are multiplied by resident matrices as they land (R223). -/
def execAgmm (tile : Fin 64) (thread : Fin 128) (w : BitVec 119) (s : State) : Host.Outcome State Fault Refusal :=
  actTile s tile (fun s => s.issueTicketed tile thread 5 0x06 w (fun s op => s.launchNow tile op))

/-- Launches an all-reduce that applies a stroke chain at the top switch (R226). -/
def execArap (tile : Fin 64) (thread : Fin 128) (w : BitVec 119) (s : State) : Host.Outcome State Fault Refusal :=
  actTile s tile (fun s => s.issueTicketed tile thread 5 0x07 w (fun s op => s.launchNow tile op))

/-- Launches routed dispatch of tokens to their top-k experts (R251). -/
def execDisp (tile : Fin 64) (thread : Fin 128) (w : BitVec 119) (s : State) : Host.Outcome State Fault Refusal :=
  actTile s tile (fun s => s.issueTicketed tile thread 5 0x10 w (fun s op => s.launchNow tile op))

/-- Launches the weighted combine of the experts' answers for a DISP (R268). -/
def execComb (tile : Fin 64) (thread : Fin 128) (w : BitVec 119) (s : State) : Host.Outcome State Fault Refusal :=
  actTile s tile (fun s => s.issueTicketed tile thread 5 0x11 w (fun s op => s.launchNow tile op))

/-- Writes local data to a remote endpoint on an ordered stream (R185). -/
def execPut (tile : Fin 64) (thread : Fin 128) (w : BitVec 119) (s : State) : Host.Outcome State Fault Refusal :=
  actTile s tile (fun s => s.issueTicketed tile thread 5 0x20 w (fun s _ => s))

/-- Reads remote data into local memory on an ordered stream (R185). -/
def execGet (tile : Fin 64) (thread : Fin 128) (w : BitVec 119) (s : State) : Host.Outcome State Fault Refusal :=
  actTile s tile (fun s => s.issueTicketed tile thread 5 0x21 w (fun s _ => s))

/-- Posts a 16-byte record to a stylus completion ring (R186). -/
def execNotify (tile : Fin 64) (thread : Fin 128) (w : BitVec 119) (s : State) : Host.Outcome State Fault Refusal :=
  actTile s tile (fun s => s.issueTicketed tile thread 5 0x24 w (fun s _ => s))

end Sys2Proof.Machine
end

