-- ==== Sys2Proof/Machine/DispCmds.lean ====
section
/-! DEFINITION. Routed dispatch and combine, gating slots (R240 to R285). -/
namespace Sys2Proof.Machine

/-- A source's token message arrives and is staged (R242). -/
def execTokenReceive (bytes : List Byte) (s : State) : Host.Outcome State Fault Refusal :=
  actLive s (fun s => s.recv kTOKEN bytes (fun t p s => s.collIn t p true 0))

/-- All tokens of a gating group have arrived or are known absent, so the group's gating starts (R253). -/
def execGatingGroupStart (comm : BitVec 20) (seq : BitVec 32) (group : BitVec 32)
    (s : State) : Host.Outcome State Fault Refusal :=
  actLive s (fun s => s.collStep comm.toNat seq.toNat (fun r => r.groupStart group.toNat))

/-- A group's logits are computed; its experts are selected, its gate values formed and its capacity decided (R255).
-/
def execGatingGroupDone (comm : BitVec 20) (seq : BitVec 32) (group : BitVec 32) (ecc : Ecc) (residue : GateFound)
    (s : State) : Host.Outcome State Fault Refusal :=
  actLive s (fun s =>
    s.collStep comm.toNat seq.toNat (fun r =>
    r.groupDone group.toNat ecc residue))

/-- An expert's answer arrives and is written into the answer area, or discarded as stray or late (R270); it comes
with the mismatches that the combining of what it completes meets by itself (R76). -/
def execAnswerReceive (got : Answered) (s : State) : Host.Outcome State Fault Refusal :=
  actLive s (fun s => s.recv kANSWER got.bytes (fun t p s => s.collIn t p true got.residue))

/-- GO with OP none on GLB_GATE_CMD performs nothing (R607). -/
def execGateCmdNone (slot : Fin 16) (s : State) : Host.Outcome State Fault Refusal :=
  actLive s (fun s => s.cmdWrite .glbGateCmd [] (slot + 0 * 2 ^ 4 + 2 ^ 7))

/-- Starts paging a gating library entry into an EMPTY slot (R247). -/
def execGateLoad (slot : Fin 16) (s : State) : Host.Outcome State Fault Refusal :=
  actLive s (fun s => s.cmdWrite .glbGateCmd [] (slot + 1 * 2 ^ 4 + 2 ^ 7))

/-- Moves a RESIDENT slot to EVICTING (R247). -/
def execGateEvict (slot : Fin 16) (s : State) : Host.Outcome State Fault Refusal :=
  actLive s (fun s => s.cmdWrite .glbGateCmd [] (slot + 2 * 2 ^ 4 + 2 ^ 7))

/-- Protects a RESIDENT slot from automatic eviction (R247). -/
def execGatePin (slot : Fin 16) (s : State) : Host.Outcome State Fault Refusal :=
  actLive s (fun s => s.cmdWrite .glbGateCmd [] (slot + 3 * 2 ^ 4 + 2 ^ 7))

/-- Removes a slot's protection from automatic eviction (R247). -/
def execGateUnpin (slot : Fin 16) (s : State) : Host.Outcome State Fault Refusal :=
  actLive s (fun s => s.cmdWrite .glbGateCmd [] (slot + 4 * 2 ^ 4 + 2 ^ 7))

/-- Every plate holds the whole entry, so the slot becomes RESIDENT and waiting DISPs proceed (R248). -/
def execPageInDone (slot : Fin 16) (ecc : Ecc) (s : State) : Host.Outcome State Fault Refusal :=
  actLive s (fun s => s.pageInDone slot ecc)

end Sys2Proof.Machine
end

