-- ==== Sys2Proof/Machine/Hatch.lean ====
section
/-! DEFINITION. Instructions of the hatch engine and stroke chains (R142 to R164): what they do when they issue. The engine
result is `hatchOut` and `chainOut`. -/
namespace Sys2Proof.Machine

/-- Hatch instruction that adds VA and the second operand lane by lane (R146). -/
def execVadd (tile : Fin 64) (thread : Fin 128) (w : BitVec 119) (s : State) : Host.Outcome State Fault Refusal :=
  actTile s tile (fun s => s.issueTicketed tile thread 1 0x00 w (fun s _ => s))

/-- Hatch instruction that subtracts the second operand from VA lane by lane (R146). -/
def execVsub (tile : Fin 64) (thread : Fin 128) (w : BitVec 119) (s : State) : Host.Outcome State Fault Refusal :=
  actTile s tile (fun s => s.issueTicketed tile thread 1 0x01 w (fun s _ => s))

/-- Hatch instruction that multiplies VA by the second operand lane by lane (R146). -/
def execVmul (tile : Fin 64) (thread : Fin 128) (w : BitVec 119) (s : State) : Host.Outcome State Fault Refusal :=
  actTile s tile (fun s => s.issueTicketed tile thread 1 0x02 w (fun s _ => s))

/-- Hatch instruction that computes VA × y + VC lane by lane, rounding as R55 states (R146). -/
def execVmad (tile : Fin 64) (thread : Fin 128) (w : BitVec 119) (s : State) : Host.Outcome State Fault Refusal :=
  actTile s tile (fun s => s.issueTicketed tile thread 1 0x03 w (fun s _ => s))

/-- Hatch instruction that takes the lane-wise maximum of VA and the second operand (R146). -/
def execVmax (tile : Fin 64) (thread : Fin 128) (w : BitVec 119) (s : State) : Host.Outcome State Fault Refusal :=
  actTile s tile (fun s => s.issueTicketed tile thread 1 0x04 w (fun s _ => s))

/-- Hatch instruction that takes the lane-wise minimum of VA and the second operand (R146). -/
def execVmin (tile : Fin 64) (thread : Fin 128) (w : BitVec 119) (s : State) : Host.Outcome State Fault Refusal :=
  actTile s tile (fun s => s.issueTicketed tile thread 1 0x05 w (fun s _ => s))

/-- Hatch instruction that takes the lane-wise AND of integer operands (R146). -/
def execVand (tile : Fin 64) (thread : Fin 128) (w : BitVec 119) (s : State) : Host.Outcome State Fault Refusal :=
  actTile s tile (fun s => s.issueTicketed tile thread 1 0x06 w (fun s _ => s))

/-- Hatch instruction that takes the lane-wise OR of integer operands (R146). -/
def execVor (tile : Fin 64) (thread : Fin 128) (w : BitVec 119) (s : State) : Host.Outcome State Fault Refusal :=
  actTile s tile (fun s => s.issueTicketed tile thread 1 0x07 w (fun s _ => s))

/-- Hatch instruction that takes the lane-wise XOR of integer operands (R146). -/
def execVxor (tile : Fin 64) (thread : Fin 128) (w : BitVec 119) (s : State) : Host.Outcome State Fault Refusal :=
  actTile s tile (fun s => s.issueTicketed tile thread 1 0x08 w (fun s _ => s))

/-- Hatch instruction that writes the magnitude of VA (R146). -/
def execVabs (tile : Fin 64) (thread : Fin 128) (w : BitVec 119) (s : State) : Host.Outcome State Fault Refusal :=
  actTile s tile (fun s => s.issueTicketed tile thread 1 0x09 w (fun s _ => s))

/-- Hatch instruction that writes the negation of VA (R146). -/
def execVneg (tile : Fin 64) (thread : Fin 128) (w : BitVec 119) (s : State) : Host.Outcome State Fault Refusal :=
  actTile s tile (fun s => s.issueTicketed tile thread 1 0x0A w (fun s _ => s))

/-- Hatch instruction that writes the reciprocal of VA by the fixed algorithm (R154). -/
def execVrcp (tile : Fin 64) (thread : Fin 128) (w : BitVec 119) (s : State) : Host.Outcome State Fault Refusal :=
  actTile s tile (fun s => s.issueTicketed tile thread 1 0x0B w (fun s _ => s))

/-- Hatch instruction that writes the reciprocal square root of VA by the fixed algorithm (R155). -/
def execVrsq (tile : Fin 64) (thread : Fin 128) (w : BitVec 119) (s : State) : Host.Outcome State Fault Refusal :=
  actTile s tile (fun s => s.issueTicketed tile thread 1 0x0C w (fun s _ => s))

/-- Hatch instruction that converts VA from FA to FD, optionally with a fixed block scale code (R144). -/
def execVcvt (tile : Fin 64) (thread : Fin 128) (w : BitVec 119) (s : State) : Host.Outcome State Fault Refusal :=
  actTile s tile (fun s => s.issueTicketed tile thread 1 0x0D w (fun s _ => s))

/-- Hatch instruction that compares VA with the second operand lane by lane and writes a mask register (R148). -/
def execVcmp (tile : Fin 64) (thread : Fin 128) (w : BitVec 119) (s : State) : Host.Outcome State Fault Refusal :=
  actTile s tile (fun s => s.issueTicketed tile thread 1 0x0E w (fun s _ => s))

/-- Hatch instruction that selects each lane raw from VA or VB by a mask (R146). -/
def execVsel (tile : Fin 64) (thread : Fin 128) (w : BitVec 119) (s : State) : Host.Outcome State Fault Refusal :=
  actTile s tile (fun s => s.issueTicketed tile thread 1 0x0F w (fun s _ => s))

/-- Hatch instruction that broadcasts a scalar or immediate into the active lanes of VD (R146). -/
def execVbcst (tile : Fin 64) (thread : Fin 128) (w : BitVec 119) (s : State) : Host.Outcome State Fault Refusal :=
  actTile s tile (fun s => s.issueTicketed tile thread 1 0x10 w (fun s _ => s))

/-- Hatch instruction that extracts one lane of VA into a scalar register (R147). -/
def execVext (tile : Fin 64) (thread : Fin 128) (w : BitVec 119) (s : State) : Host.Outcome State Fault Refusal :=
  actTile s tile (fun s => s.issueTicketed tile thread 1 0x11 w (fun s _ => s))

/-- Hatch instruction that writes each lane's own index into that lane (R146). -/
def execVidx (tile : Fin 64) (thread : Fin 128) (w : BitVec 119) (s : State) : Host.Outcome State Fault Refusal :=
  actTile s tile (fun s => s.issueTicketed tile thread 1 0x12 w (fun s _ => s))

/-- Hatch instruction that reduces the active lanes of VA into lane 0 by the fixed tree (R150). -/
def execVred (tile : Fin 64) (thread : Fin 128) (w : BitVec 119) (s : State) : Host.Outcome State Fault Refusal :=
  actTile s tile (fun s => s.issueTicketed tile thread 1 0x13 w (fun s _ => s))

/-- Hatch instruction that reduces a T register along one axis into VD (R151). -/
def execTred (tile : Fin 64) (thread : Fin 128) (w : BitVec 119) (s : State) : Host.Outcome State Fault Refusal :=
  actTile s tile (fun s => s.issueTicketed tile thread 1 0x14 w (fun s _ => s))

/-- Hatch instruction that copies one row of a T register into VD (R146). -/
def execTrow (tile : Fin 64) (thread : Fin 128) (w : BitVec 119) (s : State) : Host.Outcome State Fault Refusal :=
  actTile s tile (fun s => s.issueTicketed tile thread 1 0x15 w (fun s _ => s))

/-- Hatch instruction that writes VA into one row of a T register (R146). -/
def execTput (tile : Fin 64) (thread : Fin 128) (w : BitVec 119) (s : State) : Host.Outcome State Fault Refusal :=
  actTile s tile (fun s => s.issueTicketed tile thread 1 0x16 w (fun s _ => s))

/-- Hatch instruction that selects the k largest elements of VA and writes their values and lane numbers (R153). -/
def execVtopk (tile : Fin 64) (thread : Fin 128) (w : BitVec 119) (s : State) : Host.Outcome State Fault Refusal :=
  actTile s tile (fun s => s.issueTicketed tile thread 1 0x17 w (fun s _ => s))

/-- Writes the AND of two mask registers (R146). -/
def execMand (tile : Fin 64) (thread : Fin 128) (w : BitVec 119) (s : State) : Host.Outcome State Fault Refusal :=
  actTile s tile (fun s => s.issueTicketed tile thread 1 0x18 w (fun s _ => s))

/-- Writes the OR of two mask registers (R146). -/
def execMor (tile : Fin 64) (thread : Fin 128) (w : BitVec 119) (s : State) : Host.Outcome State Fault Refusal :=
  actTile s tile (fun s => s.issueTicketed tile thread 1 0x19 w (fun s _ => s))

/-- Writes the XOR of two mask registers (R146). -/
def execMxor (tile : Fin 64) (thread : Fin 128) (w : BitVec 119) (s : State) : Host.Outcome State Fault Refusal :=
  actTile s tile (fun s => s.issueTicketed tile thread 1 0x1A w (fun s _ => s))

/-- Writes the complement of a mask register (R146). -/
def execMnot (tile : Fin 64) (thread : Fin 128) (w : BitVec 119) (s : State) : Host.Outcome State Fault Refusal :=
  actTile s tile (fun s => s.issueTicketed tile thread 1 0x1B w (fun s _ => s))

/-- Writes a mask register with ones below the IMM position and zeros above (R146). -/
def execMsetp (tile : Fin 64) (thread : Fin 128) (w : BitVec 119) (s : State) : Host.Outcome State Fault Refusal :=
  actTile s tile (fun s => s.issueTicketed tile thread 1 0x1C w (fun s _ => s))

/-- Writes the number of ones in a mask register to a scalar register (R147). -/
def execMpop (tile : Fin 64) (thread : Fin 128) (w : BitVec 119) (s : State) : Host.Outcome State Fault Refusal :=
  actTile s tile (fun s => s.issueTicketed tile thread 1 0x1D w (fun s _ => s))

/-- Stroke chain that applies up to eight stages to a V register and writes the result once (R160). -/
def execChain (tile : Fin 64) (thread : Fin 128) (w : BitVec 119) (s : State) : Host.Outcome State Fault Refusal :=
  actTile s tile (fun s => s.issueTicketed tile thread 2 0 w (fun s _ => s))

/-- Stroke chain that applies its stages to each of the 16 rows of a T register (R162). -/
def execChaint (tile : Fin 64) (thread : Fin 128) (w : BitVec 119) (s : State) : Host.Outcome State Fault Refusal :=
  actTile s tile (fun s => s.issueTicketed tile thread 2 1 w (fun s _ => s))

end Sys2Proof.Machine
end

