-- ==== Sys2Proof/Machine/HealthCmds.lean ====
section
/-! DEFINITION. Faults, self-test, time base, power states and throttles (R498 to R528, R530, R549 to R558, R593 to R599). -/
namespace Sys2Proof.Machine

/-- A checker's report reaches its collector and is counted, recorded, posted and escalated (R501). -/
def execFaultReport (die : Fin 4) (checker : Byte) (cls : Fin 6) (tile : Fin 64) (detail index : BitVec 32) (thread : Fin 128) (injected : Bool)
    (s : State) : Host.Outcome State Fault Refusal :=
  actLive s (fun s =>
    s.faultReport die checker.toNat cls tile detail.toNat index.toNat thread
    injected)

/-- An escalation period of WINDOW_S ends and every count restarts (R503). -/
def execEscWindowExpire (s : State) : Host.Outcome State Fault Refusal :=
  actLive s (fun s => s.escWindow)

/-- QUIET_MS passes with no qualifying fault; the pair returns to normal and the recovery count rises (R506). -/
def execQuietPeriodEnd (s : State) : Host.Outcome State Fault Refusal :=
  actLive s (fun s => s.quietEnd)

/-- A write of FLT_PAIR.FORCE enters the fault state (R506). -/
def execPairForce (s : State) : Host.Outcome State Fault Refusal :=
  actLive s (fun s => s.cmdWrite .fltPair [] (setFieldOf (s.rawReg .fltPair []) 2 2 1))

/-- The sampled FAULT_P and FAULT_N pins are at equal levels, so SENSE_ERR sets (R505). -/
def execPairSenseMismatch (s : State) : Host.Outcome State Fault Refusal :=
  actLive s (fun s => s.pairSense)

/-- A write of FLT_INJECT.GO arms check-bit inversion for the next checks of a checker (R511). -/
def execFltInjectGo (v : Word) (s : State) : Host.Outcome State Fault Refusal :=
  actLive s (fun s => s.cmdWrite .fltInject [] (v.toNat ||| 2 ^ 35))

/-- A write of FLT_BLKRST.GO requests isolation and reset of a block (R510). -/
def execBlockResetRequest (domain : Fin 8) (instance_ : Fin 64) (s : State) : Host.Outcome State Fault Refusal :=
  actLive s (fun s => s.cmdWrite .fltBlkrst [] (domain + instance_ * 2 ^ 8 + 2 ^ 14))

/-- A block's reset time ends; its wrapper admits transfers again and an event is raised (R508). -/
def execBlockResetRelease (domain : Fin 8) (instance_ : Fin 64) (s : State) : Host.Outcome State Fault Refusal :=
  actLive s (fun s => s.blockRelease domain instance_)

/-- A block has not left reset within twice its reset time, which is a UF (R503). -/
def execBlockResetStuck (domain : Fin 8) (instance_ : Fin 64) (s : State) : Host.Outcome State Fault Refusal :=
  actLive s (fun s => s.blockStuck domain instance_)

/-- A write of FLT_ASELFTEST.GO requests an arithmetic self-test of a tile (R519). -/
def execAselftestRequest (tile : Fin 64) (s : State) : Host.Outcome State Fault Refusal :=
  actLive s (fun s => s.cmdWrite .fltAselftest [tile] 1)

/-- The tile's engines are empty, so the self-test starts RUNNING (R519). -/
def execAselftestRun (tile : Fin 64) (s : State) : Host.Outcome State Fault Refusal :=
  actLive s (fun s => s.selfTestRun tile)

/-- The engines did not empty within the tolerance minus 40 µs, so the result is BUSY (R519). -/
def execAselftestWaitExpire (tile : Fin 64) (s : State) : Host.Outcome State Fault Refusal :=
  actLive s (fun s => s.selfTestWait tile)

/-- After 40 µs the self-test ends with PASS or FAIL and held work is released (R519). -/
def execAselftestEnd (tile : Fin 64) (pass crosshatch : Bool) (s : State) : Host.Outcome State Fault Refusal :=
  actLive s (fun s => s.selfTestEnd tile pass crosshatch)

/-- A write of GC_SET loads the count only on an unsynchronised master (R530). -/
def execGcSetWrite (v : Word) (s : State) : Host.Outcome State Fault Refusal :=
  actLive s (fun s => s.cmdWrite .gcSet [] v.toNat)

/-- Loss of CREF is detected; the count continues from the on-module reference (R599). -/
def execCrefLoss (s : State) : Host.Outcome State Fault Refusal :=
  act s (fun s => s.crefLoss)

/-- CREF returns and the count recovers without a step (R599). -/
def execCrefReturn (s : State) : Host.Outcome State Fault Refusal :=
  act s (fun s => s.crefReturn)

/-- A write of a domain's latency tolerance may wake the domain at once (R553). -/
def execPwrDomainWrite (domain : Fin 200) (tol : BitVec 32) (s : State) : Host.Outcome State Fault Refusal :=
  actLive s (fun s => s.cmdWrite .pwrDomain [domain] tol.toNat)

/-- A domain idle for four times an exit latency enters that low state (R552). -/
def execPowerStateEnter (domain : Fin 200) (deep : Bool) (s : State) : Host.Outcome State Fault Refusal :=
  actLive s (fun s => s.pwrEnter domain deep)

/-- A domain in a low state completes its exit and resumes work (R553). -/
def execPowerStateExit (domain : Fin 200) (s : State) : Host.Outcome State Fault Refusal :=
  actLive s (fun s => s.pwrExit domain)

/-- Every 100 µs the hottest junction is read and compared with the thresholds; a module that tripped may power up
again once it is below 90 °C (R596). -/
def execThermalSample (temp : BitVec 16) (s : State) : Host.Outcome State Fault Refusal :=
  act s (fun s => s.thermalSample temp.toInt)

/-- Every 1 ms the thermal throttle halves or doubles the engine issue rate (R596). -/
def execThrottleStep (s : State) : Host.Outcome State Fault Refusal :=
  actLive s (fun s => s.throttleStep)

/-- The health block measures input power and sets or relaxes the per-die issue-rate throttle that holds the 10 ms and
1 s means within their limits, updating CAPPING (R593). -/
def execPowerCapSample (vin ms1 ms10 ms1000 : Nat) (s : State) : Host.Outcome State Fault Refusal :=
  actLive s (fun s => s.capSample vin ms1 ms10 ms1000)

end Sys2Proof.Machine
end

