-- ==== Sys2Proof/Machine/ImageCmds.lean ====
section
/-! DEFINITION. Program images (R117 to R121, R607). -/
namespace Sys2Proof.Machine

/-- GO with OP none on TILE_IMG_CMD performs nothing (R607). -/
def execImgCmdNone (tile : Fin 64) (slot : Fin 4) (s : State) : Host.Outcome State Fault Refusal :=
  actLive s (fun s => s.cmdWrite .tileImgCmd [tile] (slot + 2 ^ 8))

/-- Starts loading and verifying a program image into a slot (R119). -/
def execImgLoad (tile : Fin 64) (slot : Fin 4) (s : State) : Host.Outcome State Fault Refusal :=
  actLive s (fun s => s.cmdWrite .tileImgCmd [tile] (slot + 1 * 2 ^ 4 + 2 ^ 8))

/-- Reading and verifying the image ends; resources are reserved and the result is posted (R119). -/
def execImgLoadDone (tile : Fin 64) (ecc : Ecc) (s : State) : Host.Outcome State Fault Refusal :=
  actLive s (fun s => s.imgLoadDone tile ecc)

/-- Starts the threads of a LOADED image (R120). -/
def execImgStart (tile : Fin 64) (slot : Fin 4) (s : State) : Host.Outcome State Fault Refusal :=
  actLive s (fun s => s.cmdWrite .tileImgCmd [tile] (slot + 2 * 2 ^ 4 + 2 ^ 8))

/-- Ends every thread of a running slot (R121). -/
def execImgStop (tile : Fin 64) (slot : Fin 4) (s : State) : Host.Outcome State Fault Refusal :=
  actLive s (fun s => s.cmdWrite .tileImgCmd [tile] (slot + 3 * 2 ^ 4 + 2 ^ 8))

/-- Releases a loaded slot's resources and zeroes its granted registers (R121). -/
def execImgUnload (tile : Fin 64) (slot : Fin 4) (s : State) : Host.Outcome State Fault Refusal :=
  actLive s (fun s => s.cmdWrite .tileImgCmd [tile] (slot + 4 * 2 ^ 4 + 2 ^ 8))

end Sys2Proof.Machine
end

