-- ==== Sys2Proof/Machine/LinkCmds.lean ====
section
/-! DEFINITION. Frames, flits, lanes, ports and Ethernet (R384 to R418). -/
namespace Sys2Proof.Machine

/-- A port frame is decoded, deskewed and its flits enter the link, or it is found bad (R384). -/
def execPortFrameReceive (port : Fin 26) (frames : List LaneFrame) (s : State) : Host.Outcome State Fault Refusal :=
  actLive s (fun s => s.portFrame port frames)

/-- An IDLE control flit is received (R390). -/
def execIdleFlit (port : Fin 26) (flit : BitVec 256) (s : State) : Host.Outcome State Fault Refusal :=
  actLive s (fun s => s.typedFlit port 0 (leBytes 32 flit.toNat))

/-- A CREDIT_LO flit updates cumulative credits of VCs 0 to 11 and ACK_FSEQ (R391). -/
def execCreditLo (port : Fin 26) (flit : BitVec 256) (s : State) : Host.Outcome State Fault Refusal :=
  actLive s (fun s => s.typedFlit port 1 (leBytes 32 flit.toNat))

/-- A CREDIT_HI flit updates cumulative credits of VCs 12 to 23 and ACK_FSEQ (R391). -/
def execCreditHi (port : Fin 26) (flit : BitVec 256) (s : State) : Host.Outcome State Fault Refusal :=
  actLive s (fun s => s.typedFlit port 2 (leBytes 32 flit.toNat))

/-- A RETRY flit starts or restarts a replay from its retry buffer (R395). -/
def execRetryFlit (port : Fin 26) (flit : BitVec 256) (s : State) : Host.Outcome State Fault Refusal :=
  actLive s (fun s => s.typedFlit port 3 (leBytes 32 flit.toNat))

/-- A WIDTH flit announces a new lane mask from a named frame (R388). -/
def execWidthFlit (port : Fin 26) (flit : BitVec 256) (s : State) : Host.Outcome State Fault Refusal :=
  actLive s (fun s => s.typedFlit port 4 (leBytes 32 flit.toNat))

/-- A TEST flit starts or stops PRBS on a lane under self-test (R400). -/
def execTestFlit (port : Fin 26) (flit : BitVec 256) (s : State) : Host.Outcome State Fault Refusal :=
  actLive s (fun s => s.typedFlit port 5 (leBytes 32 flit.toNat))

/-- An LPI flit requests, accepts, refuses or wakes a lane group's low-power state (R402). -/
def execLpiFlit (port : Fin 26) (flit : BitVec 256) (s : State) : Host.Outcome State Fault Refusal :=
  actLive s (fun s => s.typedFlit port 6 (leBytes 32 flit.toNat))

/-- A replay that has not begun within 2 µs makes the receiver send RETRY again (R395). -/
def execRetryRepeatTimer (port : Fin 26) (s : State) : Host.Outcome State Fault Refusal :=
  actLive s (fun s => s.retryRepeat port)

/-- CREDIT flits are sent at least every 256 ns while a count has changed (R392). -/
def execCreditFlitTimer (port : Fin 26) (s : State) : Host.Outcome State Fault Refusal :=
  actLive s (fun s => s.creditTimer port)

/-- A lane loses signal or markers for two frames and is removed from its port (R513). -/
def execLaneLost (lane : Fin 512) (s : State) : Host.Outcome State Fault Refusal :=
  actLive s (fun s => s.laneLost lane)

/-- Port training ends; the port enters MGMT or goes HELD with cause LANES (R397). -/
def execTrainingDone (port : Fin 26) (lanes : BitVec 32) (s : State) : Host.Outcome State Fault Refusal :=
  actLive s (fun s => s.trainingDone port lanes.toNat)

/-- A write of LANE_PRBS.SELFTEST requests a self-test of an active lane (R400). -/
def execLaneSelftest (lane : Fin 512) (s : State) : Host.Outcome State Fault Refusal :=
  actLive s (fun s => s.cmdWrite .lanePrbs [lane] (setFieldOf (s.rawReg .lanePrbs [lane]) 4 1 1))

/-- After DURATION_MS the lane retrains alone and rejoins its port (R400). -/
def execLaneSelftestDone (lane : Fin 512) (errors : Word) (s : State) : Host.Outcome State Fault Refusal :=
  actLive s (fun s => s.selfTestDone lane errors.toNat)

/-- A write of LINK_PORT_CFG.RETRAIN retrains the port (R414). -/
def execLinkRetrainCmd (port : Fin 26) (s : State) : Host.Outcome State Fault Refusal :=
  actLive s (fun s => s.cmdWrite .linkPortCfg [port] (setFieldOf (s.rawReg .linkPortCfg [port]) 7 1 1))

/-- A change of LANE_CTRL.EN removes or admits the lane by WIDTH flits (R411). -/
def execLaneCtrlEnWrite (lane : Fin 512) (en : Bool) (s : State) : Host.Outcome State Fault Refusal :=
  actLive s (fun s => s.cmdWrite .laneCtrl [lane] (setFieldOf (s.rawReg .laneCtrl [lane]) 0 1 (b2n en)))

/-- A received Ethernet frame is checked and becomes a SERVE packet, PFC action or discard (R408). -/
def execEthFrameReceive (eth : Fin 4) (frame : List Byte) (s : State) : Host.Outcome State Fault Refusal :=
  actLive s (fun s => s.ethFrameIn eth frame)

/-- The pause quanta of a received PFC frame end and the priority may transmit again (R406). -/
def execPfcQuantaExpire (eth : Fin 4) (prio : Fin 8) (s : State) : Host.Outcome State Fault Refusal :=
  actLive s (fun s => s.pfcExpire eth prio)

/-- Clause 73 auto-negotiation ends, with AN_DONE or AN_FAIL (R417). -/
def execEthAnDone (eth : Fin 4) (common : Bool) (s : State) : Host.Outcome State Fault Refusal :=
  actLive s (fun s => s.ethAnDone eth common)

/-- After AN_FAIL, negotiation starts again every 1 s (R417). -/
def execEthAnRetry (eth : Fin 4) (s : State) : Host.Outcome State Fault Refusal :=
  actLive s (fun s => s.ethAnRetry eth)

/-- Ethernet link training ends and the port enters ALIGN (R417). -/
def execEthLtDone (eth : Fin 4) (s : State) : Host.Outcome State Fault Refusal :=
  actLive s (fun s => s.ethLtDone eth)

/-- PCS lock and FEC alignment hold, so the port enters UP (R417). -/
def execEthAlignLock (eth : Fin 4) (s : State) : Host.Outcome State Fault Refusal :=
  actLive s (fun s => s.ethLock eth)

/-- An UP port without lock or alignment for 10 µs enters FAULT (R417). -/
def execEthLockLoss (eth : Fin 4) (s : State) : Host.Outcome State Fault Refusal :=
  actLive s (fun s => s.ethLoss eth)

/-- 1 ms after FAULT, the port restarts from auto-negotiation (R417). -/
def execEthFaultRestart (eth : Fin 4) (s : State) : Host.Outcome State Fault Refusal :=
  actLive s (fun s => s.ethRestart eth)

end Sys2Proof.Machine
end

