-- ==== Sys2Proof/Machine/MemCmds.lean ====
section
/-! DEFINITION. Datamovers, buffer pools and memories (R419 to R463, R367). -/
namespace Sys2Proof.Machine

/-- A write of DM_CH_CTRL.GO starts a channel's descriptor chain (R445). -/
def execDmGo (die : Fin 4) (chan : Fin 56) (s : State) : Host.Outcome State Fault Refusal :=
  actLive s (fun s => s.cmdWrite .dmChCtrl [die, chan] (setFieldOf (s.rawReg .dmChCtrl [die, chan]) 0 2 1))

/-- A write of DM_CH_CTRL.ABORT stops a running channel at its current burst (R452). -/
def execDmAbort (die : Fin 4) (chan : Fin 56) (s : State) : Host.Outcome State Fault Refusal :=
  actLive s (fun s => s.cmdWrite .dmChCtrl [die, chan] (setFieldOf (s.rawReg .dmChCtrl [die, chan]) 0 2 2))

/-- A write of DM_CTRL.RESUME clears HALTED (R454). -/
def execDmResume (die : Fin 4) (s : State) : Host.Outcome State Fault Refusal :=
  actLive s (fun s => s.cmdWrite .dmCtrl [die] 1)

/-- A fetched descriptor is checked whole before any byte moves (R446). -/
def execDmDescFetch (die : Fin 4) (chan : Fin 56) (ecc : Ecc) (s : State) : Host.Outcome State Fault Refusal :=
  actLive s (fun s => s.dmStep die (fun s => s.dmFetch die chan ecc))

/-- A channel issues its next burst read once its rate interval and a buffer slot allow (R448). -/
def execDmBurstIssue (die : Fin 4) (chan : Fin 56) (ecc : Ecc) (s : State) : Host.Outcome State Fault Refusal :=
  actLive s (fun s => s.dmIssue die chan ecc)

/-- A burst's data has been written to its destination (R447). -/
def execDmBurstWritten (die : Fin 4) (chan : Fin 56) (s : State) : Host.Outcome State Fault Refusal :=
  actLive s (fun s => s.dmWritten die chan)

/-- The read-backs of a descriptor return; write-back fields are written and the descriptor completes (R449). -/
def execDmReadbackDone (die : Fin 4) (chan : Fin 56) (ecc : Ecc) (s : State) : Host.Outcome State Fault Refusal :=
  actLive s (fun s => s.dmReadback die chan ecc)

/-- An error response to a datamover access stops every channel of the datamover (R453). -/
def execDmBusError (die : Fin 4) (addr : Word) (kind : BitVec 2) (lost : BitVec 64)
    (s : State) : Host.Outcome State Fault Refusal :=
  actLive s (fun s => s.dmStep die (fun s => s.dmBusError die addr.toNat kind.toNat lost.toNat))

/-- A read of BP_ALLOC requests a buffer from pool k or a larger pool (R440). -/
def execBpAlloc (port : Fin 2) (tag : BitVec 16) (pool : Fin 4) (s : State) : Host.Outcome State Fault Refusal :=
  actLive s (fun s =>
    s.stylusIn port (Txn.encode ⟨1, 0, tag.toNat, 8, regAddr .bpAlloc [pool], []⟩) (fun x => x.ty == 1)
    Ecc.clean)

/-- A write of BP_FREE returns a buffer pointer after checking it (R442). -/
def execBpFree (ptr : Word) (s : State) : Host.Outcome State Fault Refusal :=
  actLive s (fun s => s.cmdWrite .bpFree [] ptr.toNat)

/-- A write of BP_POOL_CFG.INIT starts filling a pool's free ring (R443). -/
def execBpPoolInit (pool : Fin 4) (s : State) : Host.Outcome State Fault Refusal :=
  actLive s (fun s => s.cmdWrite .bpPoolCfg [pool] (setFieldOf (s.rawReg .bpPoolCfg [pool]) 25 1 1))

/-- The pool's free ring is filled and READY sets (R443). -/
def execBpInitDone (pool : Fin 4) (s : State) : Host.Outcome State Fault Refusal :=
  actLive s (fun s => s.bpInitDone pool)

/-- A pointer cache refill from the ring arrives and waiting requests are served (R441). -/
def execBpRefillDone (pool : Fin 4) (n : Nat) (ecc : Ecc) (s : State) : Host.Outcome State Fault Refusal :=
  actLive s (fun s => s.bpRefillDone pool n ecc)

/-- Every PLATE_SCRUB.PERIOD cycles, the scrub reads and checks the next line of a plate (R425). -/
def execPlateScrubRead (plate : Fin 64) (ecc : Ecc) (s : State) : Host.Outcome State Fault Refusal :=
  actLive s (fun s => s.plateScrub plate ecc)

/-- A write of PLATE_OWNER starts a hand-over, pending until admitted accesses complete (R115). -/
def execPlateOwnerWrite (plate : Fin 64) (kind : BitVec 2) (tile : Fin 16)
    (s : State) : Host.Outcome State Fault Refusal :=
  actLive s (fun s => s.cmdWrite .plateOwner [plate] (kind.toNat + 4 * tile))

/-- A write of HBM_CTRL.INIT initialises every stack with the selected mapping (R432). -/
def execHbmInit (map : Bool) (s : State) : Host.Outcome State Fault Refusal :=
  actLive s (fun s => s.fwWrite .hbmCtrl [] (b2n map + 2))

/-- HBM initialisation ends; READY sets, or a failed stack leaves the module out of service (R435). -/
def execHbmInitDone (ok : BitVec 8) (s : State) : Host.Outcome State Fault Refusal :=
  actLive s (fun s => s.hbmInitDone ok.toNat)

/-- The patrol scrub reads HBM at idle priority, covering every stack every 12 hours (R434). -/
def execHbmPatrolScrub (line : Nat) (ecc : Ecc) (s : State) : Host.Outcome State Fault Refusal :=
  actLive s (fun s =>
    if s.pwrState (192 + s.stackOf (64 * line)) = 0 then s.hbmPatrol line ecc else s)

/-- A write of DDR_CTRL.INIT reads SPD and trains every populated channel (R438). -/
def execDdrInit (speed : BitVec 2) (s : State) : Host.Outcome State Fault Refusal :=
  actLive s (fun s => s.fwWrite .ddrCtrl [] (1 + 2 * speed.toNat))

/-- DDR training ends; each channel is TRAINED or FAILED (R438). -/
def execDdrInitDone (modules : List DdrModule) (s : State) : Host.Outcome State Fault Refusal :=
  actLive s (fun s => s.ddrInitDone modules)

/-- The patrol scrub reads DDR5, covering every channel every 24 hours (R438). -/
def execDdrPatrolScrub (chan : Fin 8) (line : Nat) (ecc : Ecc) (s : State) : Host.Outcome State Fault Refusal :=
  actLive s (fun s => s.ddrPatrol chan line ecc)

/-- Every PERIOD_US a tile audits its output buffer for leaked and doubly referenced cells (R367). -/
def execAuditPass (tile : Fin 64) (strays : List Nat) (double : Bool) (s : State) : Host.Outcome State Fault Refusal :=
  actLive s (fun s => s.auditPass tile strays double)

end Sys2Proof.Machine
end

