-- ==== Sys2Proof/Machine/PacketCmds.lean ====
section
/-! DEFINITION. Packets (R293 to R305, R340 to R362, R427). -/
namespace Sys2Proof.Machine

/-- A fabric packet arrives at a switch and is checked, routed, admitted or resequenced (R293). -/
def execPacketArrive (port : Fin 26) (got : Received) (s : State) : Host.Outcome State Fault Refusal :=
  actLive s (fun s => s.arrive port got.bytes got.fault)

/-- A refused non-BE packet waiting in a receive buffer is offered for admission again (R347). -/
def execPacketAdmitRetry (source : Fin 30) (place : Nat) (s : State) : Host.Outcome State Fault Refusal :=
  actLive s (fun s => s.admitRetry source place)

/-- The state of a non-resident queue arrives from HBM and waiting packets join the queue (R354). -/
def execQueueStateFill (tile : Fin 64) (queue : BitVec 14) (s : State) : Host.Outcome State Fault Refusal :=
  actLive s (fun s => (s.queueFilled tile queue.toNat).drainOut)

/-- The port scheduler selects the next eligible packet and transmits it (R357). -/
def execPacketTransmit (port : Fin 26) (err : BufErr) (s : State) : Host.Outcome State Fault Refusal :=
  actLive s (fun s => (s.transmit port err).drainOut)

/-- A held packet's hold reaches HOLD_US and the packet is discarded (R349). -/
def execHoldExpire (tile : Fin 64) (place : Nat) (s : State) : Host.Outcome State Fault Refusal :=
  actLive s (fun s => s.holdExpire tile place)

/-- PUT_DATA to a plates endpoint is admitted by ownership and written, or refused (R427). -/
def execPutDataReceive (bytes : List Byte) (s : State) : Host.Outcome State Fault Refusal :=
  actLive s (fun s => s.recv kPUT bytes (fun t p s => s.performPut t p))

/-- GET_REQ to a plates endpoint is admitted and answered with GET_DATA, or refused (R427). -/
def execGetReqReceive (bytes : List Byte) (ecc : Ecc) (s : State) : Host.Outcome State Fault Refusal :=
  actLive s (fun s => s.recv kGETREQ bytes (fun t p s => s.performGetReq t p ecc))

/-- Returned GET_DATA is written locally for a GET (R185). -/
def execGetDataReceive (bytes : List Byte) (s : State) : Host.Outcome State Fault Refusal :=
  actLive s (fun s => s.recv kGETDATA bytes (fun t p s => s.performGetData t p))

/-- An acknowledgement ends retention of the packets it covers and releases what waited on them (R300). -/
def execAckReceive (bytes : List Byte) (s : State) : Host.Outcome State Fault Refusal :=
  actLive s (fun s => s.recv kACK bytes (fun _ p s => s.performAck p))

/-- A NACK makes the source act on its reason: re-send, restart or stop (R302). -/
def execNackReceive (bytes : List Byte) (s : State) : Host.Outcome State Fault Refusal :=
  actLive s (fun s => s.recv kNACK bytes (fun _ p s => s.performNack p))

/-- A stream's re-send timer expires; every retained packet is sent again (R303). -/
def execRetxTimerExpire (src dst : BitVec 16) (cls : Fin 8) (comm : BitVec 20)
    (s : State) : Host.Outcome State Fault Refusal :=
  actLive s (fun s => s.retxExpire ⟨src.toNat, dst.toNat, cls, comm.toNat⟩)

/-- The acknowledgement delay limit of a stream expires and an ACK is sent (R300). -/
def execAckTimerExpire (tile : Fin 64) (src dst : BitVec 16) (cls : Fin 8) (comm : BitVec 20)
    (s : State) : Host.Outcome State Fault Refusal :=
  actLive s (fun s => s.ackExpire tile ⟨src.toNat, dst.toNat, cls, comm.toNat⟩)

/-- A stream context without packets ages out after IDLE_MS without arrivals (R297). -/
def execContextAgeOut (tile : Fin 64) (src dst : BitVec 16) (cls : Fin 8) (comm : BitVec 20)
    (s : State) : Host.Outcome State Fault Refusal :=
  actLive s (fun s => s.ageOut tile ⟨src.toNat, dst.toNat, cls, comm.toNat⟩)

end Sys2Proof.Machine
end

