-- ==== Sys2Proof/Machine/PauseCmds.lean ====
section
/-! DEFINITION. Pause and resume (R538 to R547, R556). -/
namespace Sys2Proof.Machine

/-- GO with OP none on GLB_PAUSE_CMD performs nothing (R607). -/
def execPauseCmdNone (comm : BitVec 20) (s : State) : Host.Outcome State Fault Refusal :=
  actLive s (fun s =>
    s.cmdWrite .glbPauseCmd []
    (comm.toNat + 2 ^ 22 + 2 ^ 32 * s.rd F.GLB_PAUSE_CMD_QUIET_US []))

/-- Arms the pause of a communicator at count AT (R541). -/
def execPause (comm : BitVec 20) (quiet : BitVec 16) (s : State) : Host.Outcome State Fault Refusal :=
  actLive s (fun s => s.cmdWrite .glbPauseCmd [] (comm.toNat + 2 ^ 20 + 2 ^ 22 + 2 ^ 32 * quiet.toNat))

/-- The count reaches AT; the communicator stops returning credits and starting steps (R542). -/
def execPauseAt (comm : BitVec 20) (s : State) : Host.Outcome State Fault Refusal :=
  actLive s (fun s => s.pauseAt comm.toNat)

/-- Retained packets are acknowledged and AT + QUIET_US has passed, so the save record starts to be written (R542). -/
def execPauseSaveStart (comm : BitVec 20) (s : State) : Host.Outcome State Fault Refusal :=
  actLive s (fun s => s.pauseSaveStart comm.toNat)

/-- The save record is confirmed; accepted collectives complete with PAUSED (R542). -/
def execPauseSaveDone (comm : BitVec 20) (s : State) : Host.Outcome State Fault Refusal :=
  actLive s (fun s => s.pauseSaveDone comm.toNat)

/-- Checks a save record against the communicator and starts loading it (R546). -/
def execResume (comm : BitVec 20) (s : State) : Host.Outcome State Fault Refusal :=
  actLive s (fun s =>
    s.cmdWrite .glbPauseCmd []
    (comm.toNat + 2 * 2 ^ 20 + 2 ^ 22 + 2 ^ 32 * s.rd F.GLB_PAUSE_CMD_QUIET_US []))

/-- The staged state is loaded; NEXT_SEQ is set and credits are brought to WINDOW (R546). -/
def execResumeLoadDone (ecc : Ecc) (s : State) : Host.Outcome State Fault Refusal :=
  actLive s (fun s => s.resumeLoadDone ecc)

end Sys2Proof.Machine
end

