-- ==== Sys2Proof/Machine/RegCmds.lean ====
section
/-! DEFINITION. Writes and reads of registers that have a row, and of every other register (R6, R34, R35, R359 to R382, R495, R496, R555). -/
namespace Sys2Proof.Machine

/-- A write of X, Y or XY_VALID, accepted only while torus ports are down, lets X and Y rings form (R34). -/
def execGlbCoordXyWrite (x y : BitVec 3) (valid : Bool) (s : State) : Host.Outcome State Fault Refusal :=
  actLive s (fun s =>
    s.cmdWrite .glbCoord [] (setFieldOf (s.rawReg .glbCoord []) 4 7
    (x.toNat + 8 * y.toNat + 64 * b2n valid)))

/-- A change of GLB_COORD.ROLE wakes or drains and idles the data ports (R35). -/
def execRoleChange (role : BitVec 2) (s : State) : Host.Outcome State Fault Refusal :=
  actLive s (fun s => s.cmdWrite .glbCoord [] (setFieldOf (s.rawReg .glbCoord []) 12 2 role.toNat))

/-- A write of GLB_MODE.DETERM, refused while a DETERM_REQUIRED image runs (R555). -/
def execGlbModeWrite (v : Word) (s : State) : Host.Outcome State Fault Refusal :=
  actLive s (fun s => s.cmdWrite .glbMode [] v.toNat)

/-- A write of TM_POLICER sets Tc to CBS and Te to EBS (R363). -/
def execTmPolicerWrite (tile : Fin 64) (policer : Fin 4096) (v : Word) (s : State) : Host.Outcome State Fault Refusal :=
  actLive s (fun s => s.cmdWrite .tmPolicer [tile, policer] v.toNat)

/-- A write that changes SH_EN, RATE or BURST sets the shaper's tokens to zero (R359). -/
def execShaperWrite (addr v : Word) (s : State) : Host.Outcome State Fault Refusal :=
  actLive s (fun s => s.shaperCmd addr.toNat v.toNat)

/-- A write of TM_SAMPLE.N restarts the sampler's counter (R365). -/
def execTmSampleWrite (tile : Fin 64) (cls : Fin 8) (v : Word) (s : State) : Host.Outcome State Fault Refusal :=
  actLive s (fun s => s.cmdWrite .tmSample [tile, cls] v.toNat)

/-- A write of TM_SRING_CFG resets the ring's HEAD and TAIL (R377). -/
def execTmSringCfgWrite (tile : Fin 64) (ring : Fin 2) (v : Word) (s : State) : Host.Outcome State Fault Refusal :=
  actLive s (fun s => s.cmdWrite .tmSringCfg [tile, ring] v.toNat)

/-- A read of TM_QCFG for a non-resident queue fetches its state (R382). -/
def execTmQcfgRead (tile : Fin 64) (queue : Fin 16384) (s : State) : Host.Outcome State Fault Refusal :=
  actLive s (fun s => s.cmdRead .tmQcfg [tile, queue])

/-- A read of LANE_PRBS_ERR returns the checker error count and clears it (R413). -/
def execLanePrbsErrRead (lane : Fin 512) (s : State) : Host.Outcome State Fault Refusal :=
  actLive s (fun s => s.cmdRead .lanePrbsErr [lane])

/-- A write of GLB_SQ_CFG, where a change of EN from 0 to 1 zeroes HEAD and TAIL (R495). -/
def execGlbSqCfgWrite (ring : BitVec 12) (v : Word) (s : State) : Host.Outcome State Fault Refusal :=
  actLive s (fun s => s.cmdWrite .glbSqCfg [ring.toNat] v.toNat)

/-- A write of GLB_CQ_CFG, where a change of EN from 0 to 1 zeroes HEAD and TAIL (R496). -/
def execGlbCqCfgWrite (ring : BitVec 12) (v : Word) (s : State) : Host.Outcome State Fault Refusal :=
  actLive s (fun s => s.cmdWrite .glbCqCfg [ring.toNat] v.toNat)

/-- A write of any register without a row of its own takes effect by its access code, or is refused with the global
error status (R6). -/
def execRegisterWrite (addr v : Word) (s : State) : Host.Outcome State Fault Refusal :=
  actLive s (fun s => if (regWindow addr.toNat 8).isSome then (s.writeAt addr.toNat (leBytes 8 v.toNat)).2 else s)

end Sys2Proof.Machine
end

