-- ==== Sys2Proof/Machine/RouteCmds.lean ====
section
/-! DEFINITION. Routing, bring-up and time on the fabric (R312 to R338, R486 to R488, R532 to R536). -/
namespace Sys2Proof.Machine

/-- GO with OP none on RT_CMD performs nothing (R607). -/
def execRtCmdNone (group : Fin 16) (s : State) : Host.Outcome State Fault Refusal :=
  actLive s (fun s => s.cmdWrite .rtCmd [] (group + 0 * 2 ^ 4 + 2 ^ 7))

/-- Holds new ingress packets of a drain group (R319). -/
def execRtHold (group : Fin 16) (s : State) : Host.Outcome State Fault Refusal :=
  actLive s (fun s => s.cmdWrite .rtCmd [] (group + 1 * 2 ^ 4 + 2 ^ 7))

/-- Releases a held drain group (R318). -/
def execRtRelease (group : Fin 16) (s : State) : Host.Outcome State Fault Refusal :=
  actLive s (fun s => s.cmdWrite .rtCmd [] (group + 2 * 2 ^ 4 + 2 ^ 7))

/-- Loads a route table image into all four copies (R329). -/
def execRtLoad (group : Fin 16) (s : State) : Host.Outcome State Fault Refusal :=
  actLive s (fun s => s.cmdWrite .rtCmd [] (group + 3 * 2 ^ 4 + 2 ^ 7))

/-- Opens the switch for data service (R325). -/
def execRtOpen (group : Fin 16) (s : State) : Host.Outcome State Fault Refusal :=
  actLive s (fun s => s.cmdWrite .rtCmd [] (group + 4 * 2 ^ 4 + 2 ^ 7))

/-- Writes a route entry into all four copies, refusing forbidden changes on a live fabric (R317). -/
def execRtEntryWrite (dst : BitVec 16) (v : Word) (s : State) : Host.Outcome State Fault Refusal :=
  actLive s (fun s => s.cmdWrite .rtEntry [dst.toNat] v.toNat)

/-- A DISCOVER payload updates the neighbour view, wiring checks, Z ring and port state (R325). -/
def execDiscoverReceive (port : Fin 26) (bytes : List Byte) (s : State) : Host.Outcome State Fault Refusal :=
  actLive s (fun s => s.recvLink kDISCOVER port bytes)

/-- Every 10 ms a port in MGMT or UP sends DISCOVER (R321). -/
def execDiscoverTimer (s : State) : Host.Outcome State Fault Refusal :=
  actLive s (fun s => s.discoverTick)

/-- A Z position silent for 1.5 s after training is marked absent (R323). -/
def execZAbsenceTimeout (z : Fin 9) (s : State) : Host.Outcome State Fault Refusal :=
  actLive s (fun s => (s.zAbsence z).owe .ringView)

/-- A forwarded management request is performed at its target and answered with MGT_RSP (R486). -/
def execMgtReqReceive (bytes : List Byte) (ecc : Ecc) (s : State) : Host.Outcome State Fault Refusal :=
  actLive s (fun s => s.recv kMGTREQ bytes (fun _ p s => s.mgtReqIn p ecc))

/-- A management response returns to the control node as RDCPL or WRACK (R486). -/
def execMgtRspReceive (bytes : List Byte) (s : State) : Host.Outcome State Fault Refusal :=
  actLive s (fun s => s.recv kMGTRSP bytes (fun _ p s => s.mgtRspIn p))

/-- An unanswered MGT_REQ is repeated every 50 µs, ending with TIMEOUT after four repeats (R487). -/
def execMgtReqRepeat (port : Fin 2) (tag : BitVec 16) (s : State) : Host.Outcome State Fault Refusal :=
  actLive s (fun s => s.mgtRepeat port tag.toNat)

/-- Every millisecond a TIME request is sent on every port in MGMT or UP (R532). -/
def execTimeExchangeTimer (s : State) : Host.Outcome State Fault Refusal :=
  actLive s (fun s => s.timeExchange)

/-- A TIME request is answered at once with a stamped response (R532). -/
def execTimeRequestReceive (port : Fin 26) (bytes : List Byte) (s : State) : Host.Outcome State Fault Refusal :=
  actLive s (fun s => s.recvTime 1 port bytes)

/-- A TIME response yields offset and delay; the parent choice, rate and SYNCED are updated (R534). -/
def execTimeResponseReceive (port : Fin 26) (bytes : List Byte) (s : State) : Host.Outcome State Fault Refusal :=
  actLive s (fun s => s.recvTime 2 port bytes)

/-- No parent exchange has succeeded for HOLDOVER_MS, so SYNCED clears (R536). -/
def execHoldoverExpire (s : State) : Host.Outcome State Fault Refusal :=
  actLive s (fun s => s.holdover)

/-- Reading the 262,144-byte route table image ends; all four copies are written, LOADED sets, or the load ends with
SRC_ERROR or BAD_TABLE, and BUSY clears (R331). -/
def execRtLoadDone (ecc : Ecc) (s : State) : Host.Outcome State Fault Refusal :=
  actLive s (fun s => s.rtLoadDone ecc)

end Sys2Proof.Machine
end

