-- ==== Sys2Proof/Machine/Scalar.lean ====
section
/-! DEFINITION. Scalar instructions of the burin cores (R137 to R141). -/
namespace Sys2Proof.Machine

/-- Scalar instruction that does nothing (R138). -/
def execNop (tile : Fin 64) (thread : Fin 128) (w : BitVec 119) (s : State) : Host.Outcome State Fault Refusal :=
  actTile s tile (fun s => s.issue tile thread 0 0x00 w (fun s => s.stepThread tile thread id))

/-- Scalar instruction that writes op2 to S[D] (R138). -/
def execMov (tile : Fin 64) (thread : Fin 128) (w : BitVec 119) (s : State) : Host.Outcome State Fault Refusal :=
  actTile s tile (fun s => s.issueAlu tile thread 0x01 w (fun _ b => b))

/-- Scalar instruction that writes S[A] + op2, modulo 2^64, to S[D] (R138). -/
def execAdd (tile : Fin 64) (thread : Fin 128) (w : BitVec 119) (s : State) : Host.Outcome State Fault Refusal :=
  actTile s tile (fun s => s.issueAlu tile thread 0x02 w (fun a b => (a + b) % 2 ^ 64))

/-- Scalar instruction that writes S[A] − op2, modulo 2^64, to S[D] (R138). -/
def execSub (tile : Fin 64) (thread : Fin 128) (w : BitVec 119) (s : State) : Host.Outcome State Fault Refusal :=
  actTile s tile (fun s => s.issueAlu tile thread 0x03 w (fun a b => (a + 2 ^ 64 - b) % 2 ^ 64))

/-- Scalar instruction that writes the low 64 bits of S[A] × op2 to S[D] (R138). -/
def execMul (tile : Fin 64) (thread : Fin 128) (w : BitVec 119) (s : State) : Host.Outcome State Fault Refusal :=
  actTile s tile (fun s => s.issueAlu tile thread 0x04 w (fun a b => a * b % 2 ^ 64))

/-- Scalar instruction that writes the high 64 bits of the unsigned 128-bit product to S[D] (R138). -/
def execMulhu (tile : Fin 64) (thread : Fin 128) (w : BitVec 119) (s : State) : Host.Outcome State Fault Refusal :=
  actTile s tile (fun s => s.issueAlu tile thread 0x05 w (fun a b => a * b / 2 ^ 64))

/-- Scalar instruction that writes the high 64 bits of the signed 128-bit product to S[D] (R138). -/
def execMulhs (tile : Fin 64) (thread : Fin 128) (w : BitVec 119) (s : State) : Host.Outcome State Fault Refusal :=
  actTile s tile (fun s => s.issueAlu tile thread 0x06 w (fun a b => wrapInt (sextOf a 64 * sextOf b 64 / 2 ^ 64) 64))

/-- Scalar instruction that writes the bitwise AND of S[A] and op2 to S[D] (R138). -/
def execAnd (tile : Fin 64) (thread : Fin 128) (w : BitVec 119) (s : State) : Host.Outcome State Fault Refusal :=
  actTile s tile (fun s => s.issueAlu tile thread 0x07 w (fun a b => a &&& b))

/-- Scalar instruction that writes the bitwise OR of S[A] and op2 to S[D] (R138). -/
def execOr (tile : Fin 64) (thread : Fin 128) (w : BitVec 119) (s : State) : Host.Outcome State Fault Refusal :=
  actTile s tile (fun s => s.issueAlu tile thread 0x08 w (fun a b => a ||| b))

/-- Scalar instruction that writes the bitwise XOR of S[A] and op2 to S[D] (R138). -/
def execXor (tile : Fin 64) (thread : Fin 128) (w : BitVec 119) (s : State) : Host.Outcome State Fault Refusal :=
  actTile s tile (fun s => s.issueAlu tile thread 0x09 w (fun a b => a ^^^ b))

/-- Scalar instruction that shifts S[A] left by op2[5:0] and writes the result to S[D] (R138). -/
def execShl (tile : Fin 64) (thread : Fin 128) (w : BitVec 119) (s : State) : Host.Outcome State Fault Refusal :=
  actTile s tile (fun s => s.issueAlu tile thread 0x0A w (fun a b => a * 2 ^ (b % 64) % 2 ^ 64))

/-- Scalar instruction that shifts S[A] right by op2[5:0], with zeros entering, and writes the result to S[D] (R138).
-/
def execShr (tile : Fin 64) (thread : Fin 128) (w : BitVec 119) (s : State) : Host.Outcome State Fault Refusal :=
  actTile s tile (fun s => s.issueAlu tile thread 0x0B w (fun a b => a / 2 ^ (b % 64)))

/-- Scalar instruction that shifts S[A] right by op2[5:0], with the sign entering, and writes the result to S[D]
(R138). -/
def execSar (tile : Fin 64) (thread : Fin 128) (w : BitVec 119) (s : State) : Host.Outcome State Fault Refusal :=
  actTile s tile (fun s => s.issueAlu tile thread 0x0C w (fun a b => wrapInt (sextOf a 64 / 2 ^ (b % 64)) 64))

/-- Scalar instruction that writes the signed minimum of S[A] and op2 to S[D] (R138). -/
def execMins (tile : Fin 64) (thread : Fin 128) (w : BitVec 119) (s : State) : Host.Outcome State Fault Refusal :=
  actTile s tile (fun s => s.issueAlu tile thread 0x0D w (fun a b => if sextOf a 64 ≤ sextOf b 64 then a else b))

/-- Scalar instruction that writes the signed maximum of S[A] and op2 to S[D] (R138). -/
def execMaxs (tile : Fin 64) (thread : Fin 128) (w : BitVec 119) (s : State) : Host.Outcome State Fault Refusal :=
  actTile s tile (fun s => s.issueAlu tile thread 0x0E w (fun a b => if sextOf b 64 ≤ sextOf a 64 then a else b))

/-- Scalar instruction that writes the unsigned minimum of S[A] and op2 to S[D] (R138). -/
def execMinu (tile : Fin 64) (thread : Fin 128) (w : BitVec 119) (s : State) : Host.Outcome State Fault Refusal :=
  actTile s tile (fun s => s.issueAlu tile thread 0x0F w (fun a b => min a b))

/-- Scalar instruction that writes the unsigned maximum of S[A] and op2 to S[D] (R138). -/
def execMaxu (tile : Fin 64) (thread : Fin 128) (w : BitVec 119) (s : State) : Host.Outcome State Fault Refusal :=
  actTile s tile (fun s => s.issueAlu tile thread 0x10 w (fun a b => max a b))

/-- Scalar instruction that writes 1 to S[D] if S[A] equals op2, and 0 otherwise (R138). -/
def execSeq (tile : Fin 64) (thread : Fin 128) (w : BitVec 119) (s : State) : Host.Outcome State Fault Refusal :=
  actTile s tile (fun s => s.issueAlu tile thread 0x11 w (fun a b => b2n (a == b)))

/-- Scalar instruction that writes 1 to S[D] if S[A] < op2 in signed order, and 0 otherwise (R138). -/
def execSlt (tile : Fin 64) (thread : Fin 128) (w : BitVec 119) (s : State) : Host.Outcome State Fault Refusal :=
  actTile s tile (fun s => s.issueAlu tile thread 0x12 w (fun a b => b2n (decide (sextOf a 64 < sextOf b 64))))

/-- Scalar instruction that writes 1 to S[D] if S[A] < op2 in unsigned order, and 0 otherwise (R138). -/
def execSltu (tile : Fin 64) (thread : Fin 128) (w : BitVec 119) (s : State) : Host.Outcome State Fault Refusal :=
  actTile s tile (fun s => s.issueAlu tile thread 0x13 w (fun a b => b2n (decide (a < b))))

/-- Scalar instruction that reads the hatch and crosshatch sticky flags into S[D] (R140). -/
def execRdflag (tile : Fin 64) (thread : Fin 128) (w : BitVec 119) (s : State) : Host.Outcome State Fault Refusal :=
  actTile s tile (fun s => s.issueRead tile thread 0x14 w (fun s => s.flagWord tile))

/-- Scalar instruction that clears the sticky flags selected by op2[7:0] (R140). -/
def execClrflag (tile : Fin 64) (thread : Fin 128) (w : BitVec 119) (s : State) : Host.Outcome State Fault Refusal :=
  actTile s tile (fun s =>
    s.issue tile thread 0 0x15 w (fun s =>
    (s.clearFlags tile (op2 ((s.tile tile).thread thread) w)).stepThread tile thread id))

/-- Scalar instruction that reads the local global count into S[D] (R138). -/
def execRdcnt (tile : Fin 64) (thread : Fin 128) (w : BitVec 119) (s : State) : Host.Outcome State Fault Refusal :=
  actTile s tile (fun s => s.issueRead tile thread 0x16 w State.now)

/-- Unconditional branch to IMM[13:0] (R139). -/
def execBr (tile : Fin 64) (thread : Fin 128) (w : BitVec 119) (s : State) : Host.Outcome State Fault Refusal :=
  actTile s tile (fun s => s.issueBranch tile thread 0x20 w)

/-- Branch to IMM[13:0] if S[A] equals S[B] (R139). -/
def execBeq (tile : Fin 64) (thread : Fin 128) (w : BitVec 119) (s : State) : Host.Outcome State Fault Refusal :=
  actTile s tile (fun s => s.issueBranch tile thread 0x21 w)

/-- Branch to IMM[13:0] if S[A] differs from S[B] (R139). -/
def execBne (tile : Fin 64) (thread : Fin 128) (w : BitVec 119) (s : State) : Host.Outcome State Fault Refusal :=
  actTile s tile (fun s => s.issueBranch tile thread 0x22 w)

/-- Branch to IMM[13:0] if S[A] < S[B] in signed order (R139). -/
def execBlt (tile : Fin 64) (thread : Fin 128) (w : BitVec 119) (s : State) : Host.Outcome State Fault Refusal :=
  actTile s tile (fun s => s.issueBranch tile thread 0x23 w)

/-- Branch to IMM[13:0] if S[A] < S[B] in unsigned order (R139). -/
def execBltu (tile : Fin 64) (thread : Fin 128) (w : BitVec 119) (s : State) : Host.Outcome State Fault Refusal :=
  actTile s tile (fun s => s.issueBranch tile thread 0x24 w)

/-- Branch to IMM[13:0] if S[A] ≥ S[B] in signed order (R139). -/
def execBge (tile : Fin 64) (thread : Fin 128) (w : BitVec 119) (s : State) : Host.Outcome State Fault Refusal :=
  actTile s tile (fun s => s.issueBranch tile thread 0x25 w)

/-- Branch to IMM[13:0] if S[A] ≥ S[B] in unsigned order (R139). -/
def execBgeu (tile : Fin 64) (thread : Fin 128) (w : BitVec 119) (s : State) : Host.Outcome State Fault Refusal :=
  actTile s tile (fun s => s.issueBranch tile thread 0x26 w)

/-- Writes PC + 1 to S[D], then branches to IMM[13:0] (R139). -/
def execBrl (tile : Fin 64) (thread : Fin 128) (w : BitVec 119) (s : State) : Host.Outcome State Fault Refusal :=
  actTile s tile (fun s => s.issueBranch tile thread 0x27 w)

/-- Branch to the target held in S[A][13:0] (R139). -/
def execJr (tile : Fin 64) (thread : Fin 128) (w : BitVec 119) (s : State) : Host.Outcome State Fault Refusal :=
  actTile s tile (fun s => s.issueBranch tile thread 0x28 w)

end Sys2Proof.Machine
end

