-- ==== Sys2Proof/Machine/StylusCmds.lean ====
section
/-! DEFINITION. The stylus ports, rings, management entries and I3C (R464 to R497). -/
namespace Sys2Proof.Machine

/-- A stylus memory read is checked and performed, and RDCPL is returned (R468). -/
def execMrd (port : Fin 2) (bytes : List Byte) (ecc : Ecc) (s : State) : Host.Outcome State Fault Refusal :=
  actLive s (fun s => s.stylusIn port bytes (fun x => x.ty == 1) ecc)

/-- A stylus memory write is checked and performed, with WRACK if requested (R468). -/
def execMwr (port : Fin 2) (bytes : List Byte) (s : State) : Host.Outcome State Fault Refusal :=
  actLive s (fun s => s.stylusIn port bytes (fun x => x.ty == 3) Ecc.clean)

/-- A submission doorbell sets a ring's TAIL and, for a TILE ring, writes the mailbox (R483). -/
def execDbSubmission (port : Fin 2) (bytes : List Byte) (s : State) : Host.Outcome State Fault Refusal :=
  actLive s (fun s => s.stylusIn port bytes (fun x => x.ty == 5 && !bitOf (leNat x.data) 12) Ecc.clean)

/-- A completion doorbell moves HEAD, may arm the interrupt, and lets held records post (R483). -/
def execDbCompletion (port : Fin 2) (bytes : List Byte) (s : State) : Host.Outcome State Fault Refusal :=
  actLive s (fun s => s.stylusIn port bytes (fun x => x.ty == 5 && bitOf (leNat x.data) 12) Ecc.clean)

/-- A WRACK confirms a device write; records count as written and the shadow may advance (R480). -/
def execWrackReceive (port : Fin 2) (bytes : List Byte) (s : State) : Host.Outcome State Fault Refusal :=
  actLive s (fun s => s.stylusIn port bytes (fun x => x.ty == 4) Ecc.clean)

/-- MOD_US has passed since the oldest uncovered record, so an MSI is sent (R484). -/
def execModUsExpire (ring : BitVec 12) (s : State) : Host.Outcome State Fault Refusal :=
  actLive s (fun s => s.modExpire ring.toNat)

/-- An MWR without WRACK within ACK_US is re-sent; after 8 sends the ring goes STALLED (R473). -/
def execMwrResendTimer (port : Fin 2) (tag : BitVec 16) (s : State) : Host.Outcome State Fault Refusal :=
  actLive s (fun s => s.mwrResend port tag.toNat)

/-- A stylus link finishes training and its port is UP (R464). -/
def execStylusLinkUp (port : Fin 2) (s : State) : Host.Outcome State Fault Refusal :=
  actLive s (fun s => s.stylusLinkUp port)

/-- A stylus port goes down; requests in flight on it are lost (R474). -/
def execStylusLinkDown (port : Fin 2) (s : State) : Host.Outcome State Fault Refusal :=
  actLive s (fun s => s.stylusLinkDown port)

/-- A write of RETRAIN0 or RETRAIN1 retrains a stylus port (R493). -/
def execStylusRetrain (port : Fin 2) (s : State) : Host.Outcome State Fault Refusal :=
  actLive s (fun s => s.cmdWrite .glbStylusCfg [] (setFieldOf (s.rawReg .glbStylusCfg []) (32 + port) 1 1))

/-- Management entry that does nothing (R477). -/
def execMgmtNop (ecc : Ecc) (s : State) : Host.Outcome State Fault Refusal :=
  actLive s (fun s => s.mgmtStep 0 ecc)

/-- Management entry that writes a register (R477). -/
def execMgmtWrite (ecc : Ecc) (s : State) : Host.Outcome State Fault Refusal :=
  actLive s (fun s => s.mgmtStep 1 ecc)

/-- Management entry that reads a register and reports the value (R479). -/
def execMgmtRead (ecc : Ecc) (s : State) : Host.Outcome State Fault Refusal :=
  actLive s (fun s => s.mgmtStep 2 ecc)

/-- Management entry that polls a register until a masked value matches (R478). -/
def execMgmtPoll (ecc : Ecc) (s : State) : Host.Outcome State Fault Refusal :=
  actLive s (fun s => s.mgmtStep 3 ecc)

/-- Every 1 µs a POLL entry reads its register again (R478). -/
def execPollRetryTimer (ring : BitVec 12) (ecc : Ecc) (s : State) : Host.Outcome State Fault Refusal :=
  actLive s (fun s => s.pollRetry ring.toNat ecc)

/-- A POLL unmatched after POLL_US ends with TIMEOUT (R478). -/
def execPollTimeout (ring : BitVec 12) (s : State) : Host.Outcome State Fault Refusal :=
  actLive s (fun s => s.pollTimeout ring.toNat)

/-- I3C command that assigns a dynamic address (R491). -/
def execEntdaa (addr : BitVec 7) (s : State) : Host.Outcome State Fault Refusal :=
  actLive s (fun s => s.entdaa addr.toNat)

/-- I3C command that sets the dynamic address from the static address (R491). -/
def execSetdasa (static addr : BitVec 7) (s : State) : Host.Outcome State Fault Refusal :=
  actLive s (fun s => s.setdasa static.toNat addr.toNat)

/-- I3C command that changes the dynamic address (R491). -/
def execSetnewda (addr new : BitVec 7) (s : State) : Host.Outcome State Fault Refusal :=
  actLive s (fun s => s.setnewda addr.toNat new.toNat)

/-- I3C command that resets the dynamic address (R491). -/
def execRstdaa (s : State) : Host.Outcome State Fault Refusal :=
  actLive s (fun s => s.i3cSet (fun x => { x with dynAddr := none }))

/-- I3C command that returns the provisioned ID (R491). -/
def execGetpid (addr : BitVec 7) (s : State) : Host.Outcome State Fault Refusal :=
  actLive s (fun s => s.i3cAnswer addr.toNat Config.i3cPid)

/-- I3C command that returns the bus characteristics register (R491). -/
def execGetbcr (addr : BitVec 7) (s : State) : Host.Outcome State Fault Refusal :=
  actLive s (fun s => s.i3cAnswer addr.toNat [Config.i3cBcr])

/-- I3C command that returns the device characteristics register (R491). -/
def execGetdcr (addr : BitVec 7) (s : State) : Host.Outcome State Fault Refusal :=
  actLive s (fun s => s.i3cAnswer addr.toNat [Config.i3cDcr])

/-- I3C command that returns the target status (R491). -/
def execGetstatus (addr : BitVec 7) (s : State) : Host.Outcome State Fault Refusal :=
  actLive s (fun s => s.getStatus addr.toNat)

/-- I3C command that returns the maximum write length (R491). -/
def execGetmwl (addr : BitVec 7) (s : State) : Host.Outcome State Fault Refusal :=
  actLive s (fun s => s.i3cAnswer addr.toNat (beBytes 2 s.i3c.mwl))

/-- I3C command that returns the maximum read length (R491). -/
def execGetmrl (addr : BitVec 7) (s : State) : Host.Outcome State Fault Refusal :=
  actLive s (fun s => s.i3cAnswer addr.toNat (beBytes 2 s.i3c.mrl ++ [0]))

/-- I3C command that enables in-band interrupts (R491). -/
def execEnec (addr : Option (BitVec 7)) (s : State) : Host.Outcome State Fault Refusal :=
  actLive s (fun s => s.ibiEnable (addr.map BitVec.toNat) true)

/-- I3C command that disables in-band interrupts (R491). -/
def execDisec (addr : Option (BitVec 7)) (s : State) : Host.Outcome State Fault Refusal :=
  actLive s (fun s => s.ibiEnable (addr.map BitVec.toNat) false)

/-- A one-byte private write sets the board view index (R492). -/
def execI3cPrivateWrite (addr : BitVec 7) (bytes : List Byte) (s : State) : Host.Outcome State Fault Refusal :=
  actLive s (fun s => s.i3cWrite addr.toNat bytes)

/-- A private read returns board view bytes from the index and advances the index (R492). -/
def execI3cPrivateRead (addr : BitVec 7) (len : Nat) (s : State) : Host.Outcome State Fault Refusal :=
  actLive s (fun s => s.i3cRead addr.toNat len)

/-- A stylus link replay request naming a flit arrives, and the device replays from its 256 KiB replay buffer (R464).
-/
def execStylusReplayRequest (port : Fin 2) (flit : Nat) (s : State) : Host.Outcome State Fault Refusal :=
  actLive s (fun s => s.stylusReplay port flit)

end Sys2Proof.Machine
end

