-- ==== Sys2Proof/Machine/Sync.lean ====
section
/-! DEFINITION. Synchronise instructions (R98 to R103, R112, R113, R121). -/
namespace Sys2Proof.Machine

/-- Blocks the thread until the named ticket completes, then writes the status word and retires the ticket (R98). -/
def execWait (tile : Fin 64) (thread : Fin 128) (w : BitVec 119) (s : State) : Host.Outcome State Fault Refusal :=
  actTile s tile (fun s => s.issueSync tile thread 0 w (syncWait thread w))

/-- Blocks until any held ticket has completed, then retires the completed ticket with the lowest ENTRY (R99). -/
def execWaitany (tile : Fin 64) (thread : Fin 128) (w : BitVec 119) (s : State) : Host.Outcome State Fault Refusal :=
  actTile s tile (fun s => s.issueSync tile thread 1 w (syncWaitAny thread w))

/-- Writes the named ticket's status word, or PENDING, without blocking and without retiring the ticket (R100). -/
def execTest (tile : Fin 64) (thread : Fin 128) (w : BitVec 119) (s : State) : Host.Outcome State Fault Refusal :=
  actTile s tile (fun s => s.issueSync tile thread 2 w (syncTest thread w))

/-- Blocks the thread until every earlier ticket of the thread has completed (R103). -/
def execFence (tile : Fin 64) (thread : Fin 128) (w : BitVec 119) (s : State) : Host.Outcome State Fault Refusal :=
  actTile s tile (fun s => s.issueSync tile thread 3 w (syncFence thread))

/-- Blocks the thread until the local global count reaches a target count (R112). -/
def execLaunchat (tile : Fin 64) (thread : Fin 128) (w : BitVec 119) (s : State) : Host.Outcome State Fault Refusal :=
  actTile s tile (fun s => s.issueSync tile thread 4 w (s.syncLaunch thread w))

/-- The global count reaches a LAUNCHAT target; the thread becomes ready and receives the release count with its
UNSYNC and LATE bits (R113). -/
def execLaunchatRelease (tile : Fin 64) (thread : Fin 128) (s : State) : Host.Outcome State Fault Refusal :=
  actTile s tile (fun s => s.launchRelease tile thread)

/-- Ends the issuing thread, which drains and then becomes FREE (R121). -/
def execHalt (tile : Fin 64) (thread : Fin 128) (w : BitVec 119) (s : State) : Host.Outcome State Fault Refusal :=
  actTile s tile (fun s => s.issueSync tile thread 5 w (syncHalt thread))

end Sys2Proof.Machine
end

