-- ==== Sys2Proof/Machine/SystemCmds.lean ====
section
/-! DEFINITION. Resets, boot, security and JTAG (R559 to R592, R601 to R604). -/
namespace Sys2Proof.Machine

/-- Internal power good rises, which is a power-on reset and starts boot (R592). -/
def execPowerGoodRise (samples : List Nat) (s : State) : Host.Outcome State Fault Refusal :=
  act s (fun s => s.powerRise (strapCode samples))

/-- VIN below 51.0 V for 100 µs, or above 64.0 V, drops power good and stops the converters (R592). -/
def execPowerGoodFall (s : State) : Host.Outcome State Fault Refusal :=
  act s (fun s => s.powerFall)

/-- RESET_N held low for at least 10 µs starts a cold reset (R559). -/
def execResetNAssert (s : State) : Host.Outcome State Fault Refusal :=
  act s (fun s => s.resetAssert)

/-- RESET_N rises and boot starts (R598). -/
def execResetNRelease (samples : List Nat) (s : State) : Host.Outcome State Fault Refusal :=
  act s (fun s => s.resetRelease (strapCode samples))

/-- WRESET_N held low for at least 1 µs performs a warm reset (R559). -/
def execWresetNPulse (s : State) : Host.Outcome State Fault Refusal :=
  actLive s (fun s => s.warmReset 2)

/-- A write of GLB_RESET_CMD.WARM with the key performs a warm reset (R583). -/
def execWarmResetCmd (s : State) : Host.Outcome State Fault Refusal :=
  actLive s (fun s => s.cmdWrite .glbResetCmd [] (0x5752 + 2 ^ 16))

/-- A write of KICK restarts the management watchdog period (R584). -/
def execMgmtWdogKick (s : State) : Host.Outcome State Fault Refusal :=
  actLive s (fun s => s.cmdWrite .glbMgmtWdog [] (setFieldOf (s.rawReg .glbMgmtWdog []) 16 1 1))

/-- The management watchdog expires and performs a warm reset (R584). -/
def execMgmtWdogExpire (s : State) : Host.Outcome State Fault Refusal :=
  actLive s (fun s => s.wdogExpire)

/-- 10 ms after a UF with UF_ACTION 1, a warm reset is performed (R504). -/
def execEscalationReset (s : State) : Host.Outcome State Fault Refusal :=
  actLive s (fun s => s.escalationReset)

/-- 10 ms after a confirmed life-cycle transition, a warm reset is performed (R580). -/
def execLcChangeReset (s : State) : Host.Outcome State Fault Refusal :=
  actLive s (fun s => s.lcReset)

/-- The ROM has read and checked a firmware slot and accepts it, tries the next, or enters recovery (R568). -/
def execBootSlotChecked (found : Option (List Byte)) (fails : Bool) (s : State) : Host.Outcome State Fault Refusal :=
  actLive s (fun s => s.bootSlot found fails)

/-- Boot reaches READY and the fault pair may return to normal (R569). -/
def execBootReady (s : State) : Host.Outcome State Fault Refusal :=
  actLive s (fun s => s.bootReady)

/-- A supply, clock, temperature or test-access tamper is detected and recorded (R581). -/
def execTamperDetect (kind : Fin 4) (s : State) : Host.Outcome State Fault Refusal :=
  actLive s (fun s => s.tamper kind)

/-- GO with OP none on SEC_CMD performs nothing (R607). -/
def execSecCmdNone (s : State) : Host.Outcome State Fault Refusal :=
  actLive s (fun s => s.cmdWrite .secCmd [] (0 + 2 ^ 3))

/-- Writes an attestation report signed by the alias key over a nonce (R575). -/
def execAttest (s : State) : Host.Outcome State Fault Refusal :=
  actLive s (fun s => s.cmdWrite .secCmd [] (1 + 2 ^ 3))

/-- Writes the DER device and alias certificates (R587). -/
def execGetCerts (s : State) : Host.Outcome State Fault Refusal :=
  actLive s (fun s => s.cmdWrite .secCmd [] (2 + 2 ^ 3))

/-- Checks a new program-signing key list and stores it in flash (R574). -/
def execKeylist (s : State) : Host.Outcome State Fault Refusal :=
  actLive s (fun s => s.cmdWrite .secCmd [] (3 + 2 ^ 3))

/-- Checks a signed request and advances the life-cycle state (R579). -/
def execLcAdvance (s : State) : Host.Outcome State Fault Refusal :=
  actLive s (fun s => s.cmdWrite .secCmd [] (4 + 2 ^ 3))

/-- Raises the fused SVN counter to the running firmware's SVN (R587). -/
def execSvnAdvance (s : State) : Host.Outcome State Fault Refusal :=
  actLive s (fun s => s.cmdWrite .secCmd [] (5 + 2 ^ 3))

/-- Checks a firmware image in plate memory, writes it to slot A and warm-resets (R570). -/
def execRecoverBoot (s : State) : Host.Outcome State Fault Refusal :=
  actLive s (fun s => s.cmdWrite .secCmd [] (6 + 2 ^ 3))

/-- JTAG boundary-scan external test, active only while RESET_N is low (R601). -/
def execExtest (s : State) : Host.Outcome State Fault Refusal :=
  actPowered s (fun s => s.jtagTest 0x000)

/-- JTAG instruction that selects the 32-bit IDCODE register (R602). -/
def execIdcode (s : State) : Host.Outcome State Fault Refusal :=
  actPowered s (fun s => s.jtagLoad 1 idcode)

/-- JTAG instruction that samples or preloads the boundary register (R601). -/
def execSamplePreload (preload : Nat) (s : State) : Host.Outcome State Fault Refusal :=
  actPowered s (fun s => s.jtagSample preload)

/-- IEEE 1149.6 AC test instruction, active only while RESET_N is low (R601). -/
def execExtestPulse (s : State) : Host.Outcome State Fault Refusal :=
  actPowered s (fun s => s.jtagTest 0x003)

/-- IEEE 1149.6 AC test instruction, active only while RESET_N is low (R601). -/
def execExtestTrain (s : State) : Host.Outcome State Fault Refusal :=
  actPowered s (fun s => s.jtagTest 0x004)

/-- JTAG instruction that puts outputs at high impedance while RESET_N is low (R601). -/
def execHighz (s : State) : Host.Outcome State Fault Refusal :=
  actPowered s (fun s => s.jtagTest 0x005)

/-- JTAG instruction that selects the one-bit bypass register (R601). -/
def execBypass (s : State) : Host.Outcome State Fault Refusal :=
  actPowered s (fun s => s.jtagLoad 0x3FF 0)

/-- Filavo test access opcode, open only as the life cycle allows and otherwise tamper (R603). -/
def execFilavoTestAccess (opcode : Fin 511) (s : State) : Host.Outcome State Fault Refusal :=
  actPowered s (fun s => s.jtagAccess (0x200 + opcode))

/-- TRST_N low, or five TCK cycles with TMS high, resets the TAP to Test-Logic-Reset (R601). -/
def execJtagTapReset (s : State) : Host.Outcome State Fault Refusal :=
  actPowered s (fun s => s.jtagReset)

/-- A security command that takes time (ATTEST, GET_CERTS, KEYLIST, LC_ADVANCE, SVN_ADVANCE, RECOVER_BOOT) finishes,
writes its result and LENGTH, and clears BUSY (R587). -/
def execSecCmdDone (ecc : Ecc) (s : State) : Host.Outcome State Fault Refusal :=
  actLive s (fun s => s.secDone ecc)

end Sys2Proof.Machine
end

