-- ==== Sys2Proof/Machine/TileMem.lean ====
section
/-! DEFINITION. Crosshatch and memory instructions when they issue (R165 to R181), the engines of a tile starting and ending work (R90,
R106, R167, R187), and the watchdog (R123). -/
namespace Sys2Proof.Machine

/-- Crosshatch instruction that multiplies rows of a T register by a matrix held in a plate (R165). -/
def execXmm (tile : Fin 64) (thread : Fin 128) (w : BitVec 119) (s : State) : Host.Outcome State Fault Refusal :=
  actTile s tile (fun s => s.issueTicketed tile thread 3 0 w (fun s _ => s))

/-- Loads 256 elements from memory into a V register in lane form (R174). -/
def execLdv (tile : Fin 64) (thread : Fin 128) (w : BitVec 119) (s : State) : Host.Outcome State Fault Refusal :=
  actTile s tile (fun s => s.issueTicketed tile thread 4 0 w (fun s _ => s))

/-- Stores the active lanes of a V register to memory in plane form (R175). -/
def execStv (tile : Fin 64) (thread : Fin 128) (w : BitVec 119) (s : State) : Host.Outcome State Fault Refusal :=
  actTile s tile (fun s => s.issueTicketed tile thread 4 1 w (fun s _ => s))

/-- Loads rows of a T register from strided memory (R176). -/
def execLdt (tile : Fin 64) (thread : Fin 128) (w : BitVec 119) (s : State) : Host.Outcome State Fault Refusal :=
  actTile s tile (fun s => s.issueTicketed tile thread 4 2 w (fun s _ => s))

/-- Stores rows of a T register to strided memory (R176). -/
def execStt (tile : Fin 64) (thread : Fin 128) (w : BitVec 119) (s : State) : Host.Outcome State Fault Refusal :=
  actTile s tile (fun s => s.issueTicketed tile thread 4 3 w (fun s _ => s))

/-- Loads an 8-byte word into a scalar register (R177). -/
def execLds (tile : Fin 64) (thread : Fin 128) (w : BitVec 119) (s : State) : Host.Outcome State Fault Refusal :=
  actTile s tile (fun s => s.issueTicketed tile thread 4 4 w (fun s _ => s))

/-- Stores a scalar register as an 8-byte word (R177). -/
def execSts (tile : Fin 64) (thread : Fin 128) (w : BitVec 119) (s : State) : Host.Outcome State Fault Refusal :=
  actTile s tile (fun s => s.issueTicketed tile thread 4 5 w (fun s _ => s))

/-- Atomically adds a 32-bit value to a plate word, optionally returning the old value (R178). -/
def execAadd (tile : Fin 64) (thread : Fin 128) (w : BitVec 119) (s : State) : Host.Outcome State Fault Refusal :=
  actTile s tile (fun s => s.issueTicketed tile thread 4 6 w (fun s _ => s))

/-- Atomically swaps a 32-bit value with a plate word and returns the old value (R178). -/
def execAswp (tile : Fin 64) (thread : Fin 128) (w : BitVec 119) (s : State) : Host.Outcome State Fault Refusal :=
  actTile s tile (fun s => s.issueTicketed tile thread 4 7 w (fun s _ => s))

/-- An engine starts a queued instruction once the scoreboard no longer holds it (R90). -/
def execEngineStart (tile : Fin 64) (engine : Fin 3) (ecc : Ecc) (s : State) : Host.Outcome State Fault Refusal :=
  actTile s tile (fun s => s.engineStart tile engine ecc)

/-- A hatch or chain instruction finishes; its result is written and its ticket completes, with any residue check
outcome (R187). -/
def execHatchComplete (tile : Fin 64) (entry : Fin 512) (residue : Nat)
    (s : State) : Host.Outcome State Fault Refusal :=
  actTile s tile (fun s => s.hatchEnd tile entry residue)

/-- An XMM finishes, or ends on refusal or a poisoned line, and its ticket completes (R169). -/
def execXmmComplete (tile : Fin 64) (entry : Fin 512) (ecc : Ecc) (residue : Nat)
    (s : State) : Host.Outcome State Fault Refusal :=
  actTile s tile (fun s => s.xmmEnd tile entry ecc residue)

/-- A memory operation's data is known to have arrived, or the operation has failed, and its ticket completes (R106).
-/
def execMemoryComplete (tile : Fin 64) (entry : Fin 512) (ecc : Ecc) (fail : MemFail)
    (s : State) : Host.Outcome State Fault Refusal :=
  actTile s tile (fun s => s.memoryEnd tile entry ecc fail)

/-- The burin core has issued nothing for TILE_WDOG.PERIOD while a thread was ready, so the core is isolated and reset
(R123). -/
def execTileWatchdogFire (tile : Fin 64) (s : State) : Host.Outcome State Fault Refusal :=
  actTile s tile (fun s => s.tileWatchdog tile)

end Sys2Proof.Machine
end

