-- ==== Sys2Proof/Machine/Dispatch.lean ====
section
/-! DEFINITION. Every command of the table and its meaning. -/
namespace Sys2Proof.Machine

/-- A command's effect on everything but the queue of waiting commands. -/
def exec (i : Instr) (s : State) : Host.Outcome State Fault Refusal :=
  match i with
  | .nop tile thread w => Sys2Proof.Machine.execNop tile thread w s
  | .mov tile thread w => Sys2Proof.Machine.execMov tile thread w s
  | .add tile thread w => Sys2Proof.Machine.execAdd tile thread w s
  | .sub tile thread w => Sys2Proof.Machine.execSub tile thread w s
  | .mul tile thread w => Sys2Proof.Machine.execMul tile thread w s
  | .mulhu tile thread w => Sys2Proof.Machine.execMulhu tile thread w s
  | .mulhs tile thread w => Sys2Proof.Machine.execMulhs tile thread w s
  | .and tile thread w => Sys2Proof.Machine.execAnd tile thread w s
  | .or tile thread w => Sys2Proof.Machine.execOr tile thread w s
  | .xor tile thread w => Sys2Proof.Machine.execXor tile thread w s
  | .shl tile thread w => Sys2Proof.Machine.execShl tile thread w s
  | .shr tile thread w => Sys2Proof.Machine.execShr tile thread w s
  | .sar tile thread w => Sys2Proof.Machine.execSar tile thread w s
  | .mins tile thread w => Sys2Proof.Machine.execMins tile thread w s
  | .maxs tile thread w => Sys2Proof.Machine.execMaxs tile thread w s
  | .minu tile thread w => Sys2Proof.Machine.execMinu tile thread w s
  | .maxu tile thread w => Sys2Proof.Machine.execMaxu tile thread w s
  | .seq tile thread w => Sys2Proof.Machine.execSeq tile thread w s
  | .slt tile thread w => Sys2Proof.Machine.execSlt tile thread w s
  | .sltu tile thread w => Sys2Proof.Machine.execSltu tile thread w s
  | .rdflag tile thread w => Sys2Proof.Machine.execRdflag tile thread w s
  | .clrflag tile thread w => Sys2Proof.Machine.execClrflag tile thread w s
  | .rdcnt tile thread w => Sys2Proof.Machine.execRdcnt tile thread w s
  | .br tile thread w => Sys2Proof.Machine.execBr tile thread w s
  | .beq tile thread w => Sys2Proof.Machine.execBeq tile thread w s
  | .bne tile thread w => Sys2Proof.Machine.execBne tile thread w s
  | .blt tile thread w => Sys2Proof.Machine.execBlt tile thread w s
  | .bltu tile thread w => Sys2Proof.Machine.execBltu tile thread w s
  | .bge tile thread w => Sys2Proof.Machine.execBge tile thread w s
  | .bgeu tile thread w => Sys2Proof.Machine.execBgeu tile thread w s
  | .brl tile thread w => Sys2Proof.Machine.execBrl tile thread w s
  | .jr tile thread w => Sys2Proof.Machine.execJr tile thread w s
  | .wait tile thread w => Sys2Proof.Machine.execWait tile thread w s
  | .waitany tile thread w => Sys2Proof.Machine.execWaitany tile thread w s
  | .test tile thread w => Sys2Proof.Machine.execTest tile thread w s
  | .fence tile thread w => Sys2Proof.Machine.execFence tile thread w s
  | .launchat tile thread w => Sys2Proof.Machine.execLaunchat tile thread w s
  | .launchatRelease tile thread => Sys2Proof.Machine.execLaunchatRelease tile thread s
  | .halt tile thread w => Sys2Proof.Machine.execHalt tile thread w s
  | .vadd tile thread w => Sys2Proof.Machine.execVadd tile thread w s
  | .vsub tile thread w => Sys2Proof.Machine.execVsub tile thread w s
  | .vmul tile thread w => Sys2Proof.Machine.execVmul tile thread w s
  | .vmad tile thread w => Sys2Proof.Machine.execVmad tile thread w s
  | .vmax tile thread w => Sys2Proof.Machine.execVmax tile thread w s
  | .vmin tile thread w => Sys2Proof.Machine.execVmin tile thread w s
  | .vand tile thread w => Sys2Proof.Machine.execVand tile thread w s
  | .vor tile thread w => Sys2Proof.Machine.execVor tile thread w s
  | .vxor tile thread w => Sys2Proof.Machine.execVxor tile thread w s
  | .vabs tile thread w => Sys2Proof.Machine.execVabs tile thread w s
  | .vneg tile thread w => Sys2Proof.Machine.execVneg tile thread w s
  | .vrcp tile thread w => Sys2Proof.Machine.execVrcp tile thread w s
  | .vrsq tile thread w => Sys2Proof.Machine.execVrsq tile thread w s
  | .vcvt tile thread w => Sys2Proof.Machine.execVcvt tile thread w s
  | .vcmp tile thread w => Sys2Proof.Machine.execVcmp tile thread w s
  | .vsel tile thread w => Sys2Proof.Machine.execVsel tile thread w s
  | .vbcst tile thread w => Sys2Proof.Machine.execVbcst tile thread w s
  | .vext tile thread w => Sys2Proof.Machine.execVext tile thread w s
  | .vidx tile thread w => Sys2Proof.Machine.execVidx tile thread w s
  | .vred tile thread w => Sys2Proof.Machine.execVred tile thread w s
  | .tred tile thread w => Sys2Proof.Machine.execTred tile thread w s
  | .trow tile thread w => Sys2Proof.Machine.execTrow tile thread w s
  | .tput tile thread w => Sys2Proof.Machine.execTput tile thread w s
  | .vtopk tile thread w => Sys2Proof.Machine.execVtopk tile thread w s
  | .mand tile thread w => Sys2Proof.Machine.execMand tile thread w s
  | .mor tile thread w => Sys2Proof.Machine.execMor tile thread w s
  | .mxor tile thread w => Sys2Proof.Machine.execMxor tile thread w s
  | .mnot tile thread w => Sys2Proof.Machine.execMnot tile thread w s
  | .msetp tile thread w => Sys2Proof.Machine.execMsetp tile thread w s
  | .mpop tile thread w => Sys2Proof.Machine.execMpop tile thread w s
  | .chain tile thread w => Sys2Proof.Machine.execChain tile thread w s
  | .chaint tile thread w => Sys2Proof.Machine.execChaint tile thread w s
  | .xmm tile thread w => Sys2Proof.Machine.execXmm tile thread w s
  | .ldv tile thread w => Sys2Proof.Machine.execLdv tile thread w s
  | .stv tile thread w => Sys2Proof.Machine.execStv tile thread w s
  | .ldt tile thread w => Sys2Proof.Machine.execLdt tile thread w s
  | .stt tile thread w => Sys2Proof.Machine.execStt tile thread w s
  | .lds tile thread w => Sys2Proof.Machine.execLds tile thread w s
  | .sts tile thread w => Sys2Proof.Machine.execSts tile thread w s
  | .aadd tile thread w => Sys2Proof.Machine.execAadd tile thread w s
  | .aswp tile thread w => Sys2Proof.Machine.execAswp tile thread w s
  | .ared tile thread w => Sys2Proof.Machine.execAred tile thread w s
  | .rsct tile thread w => Sys2Proof.Machine.execRsct tile thread w s
  | .agth tile thread w => Sys2Proof.Machine.execAgth tile thread w s
  | .bcst tile thread w => Sys2Proof.Machine.execBcst tile thread w s
  | .redu tile thread w => Sys2Proof.Machine.execRedu tile thread w s
  | .a2av tile thread w => Sys2Proof.Machine.execA2av tile thread w s
  | .agmm tile thread w => Sys2Proof.Machine.execAgmm tile thread w s
  | .arap tile thread w => Sys2Proof.Machine.execArap tile thread w s
  | .disp tile thread w => Sys2Proof.Machine.execDisp tile thread w s
  | .comb tile thread w => Sys2Proof.Machine.execComb tile thread w s
  | .put tile thread w => Sys2Proof.Machine.execPut tile thread w s
  | .get tile thread w => Sys2Proof.Machine.execGet tile thread w s
  | .notify tile thread w => Sys2Proof.Machine.execNotify tile thread w s
  | .engineStart tile engine ecc => Sys2Proof.Machine.execEngineStart tile engine ecc s
  | .hatchComplete tile entry residue => Sys2Proof.Machine.execHatchComplete tile entry residue s
  | .xmmComplete tile entry ecc residue => Sys2Proof.Machine.execXmmComplete tile entry ecc residue s
  | .memoryComplete tile entry ecc fail => Sys2Proof.Machine.execMemoryComplete tile entry ecc fail s
  | .tileWatchdogFire tile => Sys2Proof.Machine.execTileWatchdogFire tile s
  | .imgCmdNone tile slot => Sys2Proof.Machine.execImgCmdNone tile slot s
  | .imgLoad tile slot => Sys2Proof.Machine.execImgLoad tile slot s
  | .imgLoadDone tile ecc => Sys2Proof.Machine.execImgLoadDone tile ecc s
  | .imgStart tile slot => Sys2Proof.Machine.execImgStart tile slot s
  | .imgStop tile slot => Sys2Proof.Machine.execImgStop tile slot s
  | .imgUnload tile slot => Sys2Proof.Machine.execImgUnload tile slot s
  | .commCmdNone comm => Sys2Proof.Machine.execCommCmdNone comm s
  | .commCreate comm => Sys2Proof.Machine.execCommCreate comm s
  | .commArm comm => Sys2Proof.Machine.execCommArm comm s
  | .commDestroy comm => Sys2Proof.Machine.execCommDestroy comm s
  | .commReset comm => Sys2Proof.Machine.execCommReset comm s
  | .commQuery comm => Sys2Proof.Machine.execCommQuery comm s
  | .digestReceive bytes => Sys2Proof.Machine.execDigestReceive bytes s
  | .armTimeout comm => Sys2Proof.Machine.execArmTimeout comm s
  | .contribReceive bytes => Sys2Proof.Machine.execContribReceive bytes s
  | .partialReceive bytes agree => Sys2Proof.Machine.execPartialReceive bytes agree s
  | .resultReceive bytes agree => Sys2Proof.Machine.execResultReceive bytes agree s
  | .creditReceive bytes => Sys2Proof.Machine.execCreditReceive bytes s
  | .chunkCombine comm seq chunk ecc residue => Sys2Proof.Machine.execChunkCombine comm seq chunk ecc residue s
  | .collectiveTimeout comm seq => Sys2Proof.Machine.execCollectiveTimeout comm seq s
  | .agmmPieceMultiply comm seq rank found => Sys2Proof.Machine.execAgmmPieceMultiply comm seq rank found s
  | .tokenReceive bytes => Sys2Proof.Machine.execTokenReceive bytes s
  | .gatingGroupStart comm seq group => Sys2Proof.Machine.execGatingGroupStart comm seq group s
  | .gatingGroupDone comm seq group ecc residue => Sys2Proof.Machine.execGatingGroupDone comm seq group ecc residue s
  | .answerReceive got => Sys2Proof.Machine.execAnswerReceive got s
  | .gateCmdNone slot => Sys2Proof.Machine.execGateCmdNone slot s
  | .gateLoad slot => Sys2Proof.Machine.execGateLoad slot s
  | .gateEvict slot => Sys2Proof.Machine.execGateEvict slot s
  | .gatePin slot => Sys2Proof.Machine.execGatePin slot s
  | .gateUnpin slot => Sys2Proof.Machine.execGateUnpin slot s
  | .pageInDone slot ecc => Sys2Proof.Machine.execPageInDone slot ecc s
  | .pauseCmdNone comm => Sys2Proof.Machine.execPauseCmdNone comm s
  | .pause comm quiet => Sys2Proof.Machine.execPause comm quiet s
  | .pauseAt comm => Sys2Proof.Machine.execPauseAt comm s
  | .pauseSaveStart comm => Sys2Proof.Machine.execPauseSaveStart comm s
  | .pauseSaveDone comm => Sys2Proof.Machine.execPauseSaveDone comm s
  | .resume comm => Sys2Proof.Machine.execResume comm s
  | .resumeLoadDone ecc => Sys2Proof.Machine.execResumeLoadDone ecc s
  | .packetArrive port got => Sys2Proof.Machine.execPacketArrive port got s
  | .packetAdmitRetry source place => Sys2Proof.Machine.execPacketAdmitRetry source place s
  | .queueStateFill tile queue => Sys2Proof.Machine.execQueueStateFill tile queue s
  | .packetTransmit port err => Sys2Proof.Machine.execPacketTransmit port err s
  | .holdExpire tile place => Sys2Proof.Machine.execHoldExpire tile place s
  | .putDataReceive bytes => Sys2Proof.Machine.execPutDataReceive bytes s
  | .getReqReceive bytes ecc => Sys2Proof.Machine.execGetReqReceive bytes ecc s
  | .getDataReceive bytes => Sys2Proof.Machine.execGetDataReceive bytes s
  | .ackReceive bytes => Sys2Proof.Machine.execAckReceive bytes s
  | .nackReceive bytes => Sys2Proof.Machine.execNackReceive bytes s
  | .retxTimerExpire src dst cls comm => Sys2Proof.Machine.execRetxTimerExpire src dst cls comm s
  | .ackTimerExpire tile src dst cls comm => Sys2Proof.Machine.execAckTimerExpire tile src dst cls comm s
  | .contextAgeOut tile src dst cls comm => Sys2Proof.Machine.execContextAgeOut tile src dst cls comm s
  | .rtCmdNone group => Sys2Proof.Machine.execRtCmdNone group s
  | .rtHold group => Sys2Proof.Machine.execRtHold group s
  | .rtRelease group => Sys2Proof.Machine.execRtRelease group s
  | .rtLoad group => Sys2Proof.Machine.execRtLoad group s
  | .rtOpen group => Sys2Proof.Machine.execRtOpen group s
  | .rtEntryWrite dst v => Sys2Proof.Machine.execRtEntryWrite dst v s
  | .discoverReceive port bytes => Sys2Proof.Machine.execDiscoverReceive port bytes s
  | .discoverTimer => Sys2Proof.Machine.execDiscoverTimer s
  | .zAbsenceTimeout z => Sys2Proof.Machine.execZAbsenceTimeout z s
  | .mgtReqReceive bytes ecc => Sys2Proof.Machine.execMgtReqReceive bytes ecc s
  | .mgtRspReceive bytes => Sys2Proof.Machine.execMgtRspReceive bytes s
  | .mgtReqRepeat port tag => Sys2Proof.Machine.execMgtReqRepeat port tag s
  | .timeExchangeTimer => Sys2Proof.Machine.execTimeExchangeTimer s
  | .timeRequestReceive port bytes => Sys2Proof.Machine.execTimeRequestReceive port bytes s
  | .timeResponseReceive port bytes => Sys2Proof.Machine.execTimeResponseReceive port bytes s
  | .holdoverExpire => Sys2Proof.Machine.execHoldoverExpire s
  | .portFrameReceive port frames => Sys2Proof.Machine.execPortFrameReceive port frames s
  | .idleFlit port flit => Sys2Proof.Machine.execIdleFlit port flit s
  | .creditLo port flit => Sys2Proof.Machine.execCreditLo port flit s
  | .creditHi port flit => Sys2Proof.Machine.execCreditHi port flit s
  | .retryFlit port flit => Sys2Proof.Machine.execRetryFlit port flit s
  | .widthFlit port flit => Sys2Proof.Machine.execWidthFlit port flit s
  | .testFlit port flit => Sys2Proof.Machine.execTestFlit port flit s
  | .lpiFlit port flit => Sys2Proof.Machine.execLpiFlit port flit s
  | .retryRepeatTimer port => Sys2Proof.Machine.execRetryRepeatTimer port s
  | .creditFlitTimer port => Sys2Proof.Machine.execCreditFlitTimer port s
  | .laneLost lane => Sys2Proof.Machine.execLaneLost lane s
  | .trainingDone port lanes => Sys2Proof.Machine.execTrainingDone port lanes s
  | .laneSelftest lane => Sys2Proof.Machine.execLaneSelftest lane s
  | .laneSelftestDone lane errors => Sys2Proof.Machine.execLaneSelftestDone lane errors s
  | .linkRetrainCmd port => Sys2Proof.Machine.execLinkRetrainCmd port s
  | .laneCtrlEnWrite lane en => Sys2Proof.Machine.execLaneCtrlEnWrite lane en s
  | .ethFrameReceive eth frame => Sys2Proof.Machine.execEthFrameReceive eth frame s
  | .pfcQuantaExpire eth prio => Sys2Proof.Machine.execPfcQuantaExpire eth prio s
  | .ethAnDone eth common => Sys2Proof.Machine.execEthAnDone eth common s
  | .ethAnRetry eth => Sys2Proof.Machine.execEthAnRetry eth s
  | .ethLtDone eth => Sys2Proof.Machine.execEthLtDone eth s
  | .ethAlignLock eth => Sys2Proof.Machine.execEthAlignLock eth s
  | .ethLockLoss eth => Sys2Proof.Machine.execEthLockLoss eth s
  | .ethFaultRestart eth => Sys2Proof.Machine.execEthFaultRestart eth s
  | .mrd port bytes ecc => Sys2Proof.Machine.execMrd port bytes ecc s
  | .mwr port bytes => Sys2Proof.Machine.execMwr port bytes s
  | .dbSubmission port bytes => Sys2Proof.Machine.execDbSubmission port bytes s
  | .dbCompletion port bytes => Sys2Proof.Machine.execDbCompletion port bytes s
  | .wrackReceive port bytes => Sys2Proof.Machine.execWrackReceive port bytes s
  | .modUsExpire ring => Sys2Proof.Machine.execModUsExpire ring s
  | .mwrResendTimer port tag => Sys2Proof.Machine.execMwrResendTimer port tag s
  | .stylusLinkUp port => Sys2Proof.Machine.execStylusLinkUp port s
  | .stylusLinkDown port => Sys2Proof.Machine.execStylusLinkDown port s
  | .stylusRetrain port => Sys2Proof.Machine.execStylusRetrain port s
  | .mgmtNop ecc => Sys2Proof.Machine.execMgmtNop ecc s
  | .mgmtWrite ecc => Sys2Proof.Machine.execMgmtWrite ecc s
  | .mgmtRead ecc => Sys2Proof.Machine.execMgmtRead ecc s
  | .mgmtPoll ecc => Sys2Proof.Machine.execMgmtPoll ecc s
  | .pollRetryTimer ring ecc => Sys2Proof.Machine.execPollRetryTimer ring ecc s
  | .pollTimeout ring => Sys2Proof.Machine.execPollTimeout ring s
  | .entdaa addr => Sys2Proof.Machine.execEntdaa addr s
  | .setdasa static addr => Sys2Proof.Machine.execSetdasa static addr s
  | .setnewda addr new => Sys2Proof.Machine.execSetnewda addr new s
  | .rstdaa => Sys2Proof.Machine.execRstdaa s
  | .getpid addr => Sys2Proof.Machine.execGetpid addr s
  | .getbcr addr => Sys2Proof.Machine.execGetbcr addr s
  | .getdcr addr => Sys2Proof.Machine.execGetdcr addr s
  | .getstatus addr => Sys2Proof.Machine.execGetstatus addr s
  | .getmwl addr => Sys2Proof.Machine.execGetmwl addr s
  | .getmrl addr => Sys2Proof.Machine.execGetmrl addr s
  | .enec addr => Sys2Proof.Machine.execEnec addr s
  | .disec addr => Sys2Proof.Machine.execDisec addr s
  | .i3cPrivateWrite addr bytes => Sys2Proof.Machine.execI3cPrivateWrite addr bytes s
  | .i3cPrivateRead addr len => Sys2Proof.Machine.execI3cPrivateRead addr len s
  | .dmGo die chan => Sys2Proof.Machine.execDmGo die chan s
  | .dmAbort die chan => Sys2Proof.Machine.execDmAbort die chan s
  | .dmResume die => Sys2Proof.Machine.execDmResume die s
  | .dmDescFetch die chan ecc => Sys2Proof.Machine.execDmDescFetch die chan ecc s
  | .dmBurstIssue die chan ecc => Sys2Proof.Machine.execDmBurstIssue die chan ecc s
  | .dmBurstWritten die chan => Sys2Proof.Machine.execDmBurstWritten die chan s
  | .dmReadbackDone die chan ecc => Sys2Proof.Machine.execDmReadbackDone die chan ecc s
  | .dmBusError die addr kind lost => Sys2Proof.Machine.execDmBusError die addr kind lost s
  | .bpAlloc port tag pool => Sys2Proof.Machine.execBpAlloc port tag pool s
  | .bpFree ptr => Sys2Proof.Machine.execBpFree ptr s
  | .bpPoolInit pool => Sys2Proof.Machine.execBpPoolInit pool s
  | .bpInitDone pool => Sys2Proof.Machine.execBpInitDone pool s
  | .bpRefillDone pool n ecc => Sys2Proof.Machine.execBpRefillDone pool n ecc s
  | .plateScrubRead plate ecc => Sys2Proof.Machine.execPlateScrubRead plate ecc s
  | .plateOwnerWrite plate kind tile => Sys2Proof.Machine.execPlateOwnerWrite plate kind tile s
  | .hbmInit map => Sys2Proof.Machine.execHbmInit map s
  | .hbmInitDone ok => Sys2Proof.Machine.execHbmInitDone ok s
  | .hbmPatrolScrub line ecc => Sys2Proof.Machine.execHbmPatrolScrub line ecc s
  | .ddrInit speed => Sys2Proof.Machine.execDdrInit speed s
  | .ddrInitDone modules => Sys2Proof.Machine.execDdrInitDone modules s
  | .ddrPatrolScrub chan line ecc => Sys2Proof.Machine.execDdrPatrolScrub chan line ecc s
  | .auditPass tile strays double => Sys2Proof.Machine.execAuditPass tile strays double s
  | .faultReport die checker cls tile detail index thread injected => Sys2Proof.Machine.execFaultReport die checker cls tile detail index thread injected s
  | .escWindowExpire => Sys2Proof.Machine.execEscWindowExpire s
  | .quietPeriodEnd => Sys2Proof.Machine.execQuietPeriodEnd s
  | .pairForce => Sys2Proof.Machine.execPairForce s
  | .pairSenseMismatch => Sys2Proof.Machine.execPairSenseMismatch s
  | .fltInjectGo v => Sys2Proof.Machine.execFltInjectGo v s
  | .blockResetRequest domain instance_ => Sys2Proof.Machine.execBlockResetRequest domain instance_ s
  | .blockResetRelease domain instance_ => Sys2Proof.Machine.execBlockResetRelease domain instance_ s
  | .blockResetStuck domain instance_ => Sys2Proof.Machine.execBlockResetStuck domain instance_ s
  | .aselftestRequest tile => Sys2Proof.Machine.execAselftestRequest tile s
  | .aselftestRun tile => Sys2Proof.Machine.execAselftestRun tile s
  | .aselftestWaitExpire tile => Sys2Proof.Machine.execAselftestWaitExpire tile s
  | .aselftestEnd tile pass crosshatch => Sys2Proof.Machine.execAselftestEnd tile pass crosshatch s
  | .gcSetWrite v => Sys2Proof.Machine.execGcSetWrite v s
  | .crefLoss => Sys2Proof.Machine.execCrefLoss s
  | .crefReturn => Sys2Proof.Machine.execCrefReturn s
  | .pwrDomainWrite domain tol => Sys2Proof.Machine.execPwrDomainWrite domain tol s
  | .powerStateEnter domain deep => Sys2Proof.Machine.execPowerStateEnter domain deep s
  | .powerStateExit domain => Sys2Proof.Machine.execPowerStateExit domain s
  | .thermalSample temp => Sys2Proof.Machine.execThermalSample temp s
  | .throttleStep => Sys2Proof.Machine.execThrottleStep s
  | .powerGoodRise samples => Sys2Proof.Machine.execPowerGoodRise samples s
  | .powerGoodFall => Sys2Proof.Machine.execPowerGoodFall s
  | .resetNAssert => Sys2Proof.Machine.execResetNAssert s
  | .resetNRelease samples => Sys2Proof.Machine.execResetNRelease samples s
  | .wresetNPulse => Sys2Proof.Machine.execWresetNPulse s
  | .warmResetCmd => Sys2Proof.Machine.execWarmResetCmd s
  | .mgmtWdogKick => Sys2Proof.Machine.execMgmtWdogKick s
  | .mgmtWdogExpire => Sys2Proof.Machine.execMgmtWdogExpire s
  | .escalationReset => Sys2Proof.Machine.execEscalationReset s
  | .lcChangeReset => Sys2Proof.Machine.execLcChangeReset s
  | .bootSlotChecked found fails => Sys2Proof.Machine.execBootSlotChecked found fails s
  | .bootReady => Sys2Proof.Machine.execBootReady s
  | .tamperDetect kind => Sys2Proof.Machine.execTamperDetect kind s
  | .secCmdNone => Sys2Proof.Machine.execSecCmdNone s
  | .attest => Sys2Proof.Machine.execAttest s
  | .getCerts => Sys2Proof.Machine.execGetCerts s
  | .keylist => Sys2Proof.Machine.execKeylist s
  | .lcAdvance => Sys2Proof.Machine.execLcAdvance s
  | .svnAdvance => Sys2Proof.Machine.execSvnAdvance s
  | .recoverBoot => Sys2Proof.Machine.execRecoverBoot s
  | .extest => Sys2Proof.Machine.execExtest s
  | .idcode => Sys2Proof.Machine.execIdcode s
  | .samplePreload preload => Sys2Proof.Machine.execSamplePreload preload s
  | .extestPulse => Sys2Proof.Machine.execExtestPulse s
  | .extestTrain => Sys2Proof.Machine.execExtestTrain s
  | .highz => Sys2Proof.Machine.execHighz s
  | .bypass => Sys2Proof.Machine.execBypass s
  | .filavoTestAccess opcode => Sys2Proof.Machine.execFilavoTestAccess opcode s
  | .jtagTapReset => Sys2Proof.Machine.execJtagTapReset s
  | .glbCoordXyWrite x y valid => Sys2Proof.Machine.execGlbCoordXyWrite x y valid s
  | .roleChange role => Sys2Proof.Machine.execRoleChange role s
  | .glbModeWrite v => Sys2Proof.Machine.execGlbModeWrite v s
  | .tmPolicerWrite tile policer v => Sys2Proof.Machine.execTmPolicerWrite tile policer v s
  | .shaperWrite addr v => Sys2Proof.Machine.execShaperWrite addr v s
  | .tmSampleWrite tile cls v => Sys2Proof.Machine.execTmSampleWrite tile cls v s
  | .tmSringCfgWrite tile ring v => Sys2Proof.Machine.execTmSringCfgWrite tile ring v s
  | .tmQcfgRead tile queue => Sys2Proof.Machine.execTmQcfgRead tile queue s
  | .lanePrbsErrRead lane => Sys2Proof.Machine.execLanePrbsErrRead lane s
  | .glbSqCfgWrite ring v => Sys2Proof.Machine.execGlbSqCfgWrite ring v s
  | .glbCqCfgWrite ring v => Sys2Proof.Machine.execGlbCqCfgWrite ring v s
  | .registerWrite addr v => Sys2Proof.Machine.execRegisterWrite addr v s
  | .rtLoadDone ecc => Sys2Proof.Machine.execRtLoadDone ecc s
  | .commCreateDone ecc => Sys2Proof.Machine.execCommCreateDone ecc s
  | .secCmdDone ecc => Sys2Proof.Machine.execSecCmdDone ecc s
  | .powerCapSample vin ms1 ms10 ms1000 => Sys2Proof.Machine.execPowerCapSample vin ms1 ms10 ms1000 s
  | .stylusReplayRequest port flit => Sys2Proof.Machine.execStylusReplayRequest port flit s
  | .digestRepeat comm => Sys2Proof.Machine.execDigestRepeat comm s

end Sys2Proof.Machine
end

