-- ==== Sys2Proof/Safety.lean ====
section
/-! DEFINITION. The words in which claims are stated: a safe step, what a command does, states between commands, and what a
command leaves alone. -/
namespace Sys2Proof

/-- A step that neither faults nor is refused. -/
def safeStep (s : Machine.State) : Bool :=
  match Machine.step s with
  | .next _ => true
  | .fault _ => false
  | .refused _ => false

/-- A command that changes the state `s` to `t`. -/
def Does (c : Instr) (s t : Machine.State) : Prop := Machine.exec c s = .next t

/-- A state between commands: powered, out of cold reset, nothing owed. -/
def Machine.State.ready (s : Machine.State) : Prop := s.live = true ∧ s.todo = []

/-- A state between commands in which a tile is awake (R552). -/
def Machine.State.tileReady (s : Machine.State) (tile : Nat) : Prop := s.ready ∧ s.pwrState (64 + tile) = 0

/-- An instruction that passes every check at its issue (R608). -/
def Machine.State.issues (s : Machine.State) (tile thread cls opc : Nat) (w : BitVec 119) : Prop :=
  s.tileReady tile ∧ s.issueCheck tile thread cls opc w = .go

/-- The state after a command of `s` whose own effect is `u`: what it owes is carried out, and the queue of waiting
commands is what it was. -/
def Machine.State.after (s u : Machine.State) : Machine.State := { u.settle with pending := s.pending }

/-- `t` differs from `s` in registers alone. -/
def Machine.State.onlyRegs (s t : Machine.State) : Prop := t = { s with regs := t.regs }

/-- `t` differs from `s` in registers alone, and only in the copy of one register. -/
def Machine.State.onlyReg (s t : Machine.State) (r : Machine.RegName) (idx : List Nat) : Prop :=
  s.onlyRegs t ∧ ∀ r' idx', Machine.regAddr r' idx' ≠ Machine.regAddr r idx → t.rawReg r' idx' = s.rawReg r' idx'

/-- `t` differs from `s` in the working state of one tile alone. -/
def Machine.State.onlyTile (s t : Machine.State) (tile : Nat) : Prop :=
  t = { s with tiles := t.tiles } ∧ ∀ k, k ≠ tile → t.tile k = s.tile k

/-- An access of the stylus port reaches this register: its block is not in reset and its window not closed (R489, R490,
R577). -/
def Machine.State.reaches (s : Machine.State) (r : Machine.RegName) (idx : List Nat) : Prop :=
  s.reach (Machine.regAddr r idx) 8 = .reg r idx

/-- A packet for an internal endpoint that the resequencer lets pass at once and that fits its message (R296 to R298): it is on
no stream, starts one for which there is room, or is the next of one whose state reads well and that holds nothing ahead of
order. -/
def Machine.State.inTurn (s : Machine.State) (p : Machine.Pkt) : Prop :=
  let t := Machine.ctxTile p
  p.ordered = false ∨
  (p.syn = true ∧ p.seq = 0 ∧ p.pktIdx = 0 ∧ (s.tm t).ctxs.length < Machine.ctxLimit) ∨
  (p.syn = false ∧ ∃ c, s.ctx t p.key = some c ∧ c.poisoned = false ∧ c.e = p.seq ∧ c.held = [] ∧
    (Machine.msgStep c.msg p).isSome)

/-- Bytes that are a packet of a kind at an internal endpoint of this switch, its checks passed, in its turn, the path to it not in reset
(R293, R301, R508). -/
def Machine.State.hears (s : Machine.State) (k : Nat) (bytes : List Byte) (p : Machine.Pkt) : Prop :=
  Machine.Pkt.parse bytes = .ok p ∧ p.kind = k ∧ p.trailerOk = true ∧ p.dst / 64 = s.switchId ∧ 32 ≤ p.dst % 64 ∧
  Machine.reservedEndpoint (p.dst % 64) = false ∧ s.pathShut p = false ∧ s.inTurn p

/-- A table whose keys rise strictly, as every operation on tables keeps it. -/
def Machine.Tbl.sorted {α : Type} (t : Machine.Tbl α) : Prop := (t.map (·.1)).Pairwise (· < ·)

/-- A tile's data other than its threads, its tickets and its slots' states. -/
def Machine.Tile.body (tl : Machine.Tile) : Machine.Tile := { tl with threads := [], tickets := [], slots := [] }

/-- A thread that waits for nothing: neither blocked nor draining. -/
def Machine.Thread.still (th : Machine.Thread) : Prop := th.st ≠ .blocked ∧ th.st ≠ .draining

/-- Between two states of a tile no thread but one changed that waited for nothing. -/
def Machine.Tile.otherThreads (a b : Machine.Tile) (thread : Nat) : Prop :=
  ∀ k, k ≠ thread → (a.thread k).still → b.thread k = a.thread k

namespace Claim
open Machine

/-- What a scalar instruction of thread `n` leaves alone beside its own thread: all the rest of the switch, the tile's
registers, queues and engines, and every thread that waits for nothing. -/
def scalarFrame (s t : State) (tile n : Nat) : Prop :=
  s.onlyTile t tile ∧ (t.tile tile).body = (s.tile tile).body ∧ (s.tile tile).otherThreads (t.tile tile) n

/-- A tile on which no thread but one waits, and whose slots at work have threads. -/
def calm (a : Tile) (n : Nat) : Prop :=
  (∀ k, k ≠ n → (a.thread k).still) ∧
  ∀ k < 4, (a.slot k).st = .running ∨ (a.slot k).st = .stopping → a.threadsOf k ≠ []

/-- What a scalar instruction of thread `n` that neither waits nor ends leaves alone: as above; and on a calm tile every ticket,
every slot and every other thread, too. -/
def scalarOnly (s t : State) (tile n : Nat) : Prop :=
  scalarFrame s t tile n ∧
  (calm (s.tile tile) n → (∀ e, (t.tile tile).ticket e = (s.tile tile).ticket e) ∧
    (∀ k, (t.tile tile).slot k = (s.tile tile).slot k) ∧ ∀ k, k ≠ n → (t.tile tile).thread k = (s.tile tile).thread k)

/-- The thread after a scalar instruction that writes `v` to register `d`: its other registers, and everything else but its
program counter and that register's poison, are as before. -/
def wroteS (a b : Thread) (d : Nat) (v : Word) (bad : Bool) : Prop :=
  b.sReg d = v.toNat ∧ (∀ k, k ≠ d → b.sReg k = a.sReg k) ∧
  b.poisoned d = bad ∧ (∀ k, k ≠ d → k < 32 → b.poisoned k = a.poisoned k) ∧
  b = { a with pc := a.pc + 1, s := b.s, poison := b.poison }

end Claim
end Sys2Proof
end

