-- ==== Sys2Proof/Certificates/Slice0/Obligations.lean ====
section
/-! DEFINITION. The statements for the provers. A statement of several parts is their conjunction; the parts and the words that they
share stand before it. Rules R<n> are those of spec/; "log <n>" marks what is the model's choice. -/
set_option autoImplicit false
open Sys2Proof Sys2Proof.Machine Sys2Proof.Claim

namespace Sys2Proof.Claim

/-- The scalar operations of R138 that write D from S[A] and op2: the command, OP, and what the manual writes. -/
def aluRows : List ((Fin 64 → Fin 128 → BitVec 119 → Instr) × Nat × (Word → Word → Word)) :=
  [(Instr.mov, 0x01, fun _ b => b), (Instr.add, 0x02, fun a b => a + b), (Instr.sub, 0x03, fun a b => a - b),
   (Instr.mul, 0x04, fun a b => a * b),
   (Instr.mulhu, 0x05, fun a b => (a.zeroExtend 128 * b.zeroExtend 128).extractLsb' 64 64),
   (Instr.mulhs, 0x06, fun a b => (a.signExtend 128 * b.signExtend 128).extractLsb' 64 64),
   (Instr.and, 0x07, fun a b => a &&& b), (Instr.or, 0x08, fun a b => a ||| b), (Instr.xor, 0x09, fun a b => a ^^^ b),
   (Instr.shl, 0x0A, fun a b => a <<< (b.toNat % 64)), (Instr.shr, 0x0B, fun a b => a >>> (b.toNat % 64)),
   (Instr.sar, 0x0C, fun a b => a.sshiftRight (b.toNat % 64)),
   (Instr.mins, 0x0D, fun a b => if a.sle b then a else b), (Instr.maxs, 0x0E, fun a b => if b.sle a then a else b),
   (Instr.minu, 0x0F, fun a b => if a.ule b then a else b), (Instr.maxu, 0x10, fun a b => if b.ule a then a else b),
   (Instr.seq, 0x11, fun a b => if a = b then 1 else 0), (Instr.slt, 0x12, fun a b => if a.slt b then 1 else 0),
   (Instr.sltu, 0x13, fun a b => if a.ult b then 1 else 0)]

/-- The branches of R139: the command, OP, whether it is taken by S[A] and S[B], and whether its target is S[A]. -/
def branchRows : List ((Fin 64 → Fin 128 → BitVec 119 → Instr) × Nat × (Word → Word → Bool)) :=
  [(Instr.br, 0x20, fun _ _ => true), (Instr.beq, 0x21, fun a b => a == b), (Instr.bne, 0x22, fun a b => a != b),
   (Instr.blt, 0x23, fun a b => a.slt b), (Instr.bltu, 0x24, fun a b => a.ult b),
   (Instr.bge, 0x25, fun a b => b.sle a), (Instr.bgeu, 0x26, fun a b => b.ule a), (Instr.brl, 0x27, fun _ _ => true),
   (Instr.jr, 0x28, fun _ _ => true)]

end Sys2Proof.Claim

/-- A step with a command in front performs that command on the rest. -/
def Obligations.StepRunsFront : Prop :=
  ∀ (c : Instr) (s : State), step { s with pending := c :: s.pending } = exec c s

/-- R138, R137, R93: MOV to SLTU write the manual's function of S[A] and op2 to S[D]; poison of a source passes on.
Nothing else changes: no ticket, no slot and no other thread, where none of them waits. Completion: on these premises
Sys2Proof.Machine.exec answers a next state for mov, add, sub, mul, mulhu, mulhs, and, or, xor, shl, shr, sar, mins, maxs,
minu, maxu, seq, slt, sltu. -/
def Obligations.ScalarArithmetic : Prop :=
  ∀ row ∈ aluRows, ∀ (tile : Fin 64) (n : Fin 128) (w : BitVec 119) (s : State),
    s.issues tile n 0 row.2.1 w →
    let a := (s.tile tile).thread n
    ∃ t, Does (row.1 tile n w) s t ∧
      wroteS a ((t.tile tile).thread n) (wD w)
        (row.2.2 (BitVec.ofNat 64 (a.sReg (wA w))) (BitVec.ofNat 64 (op2 a w)))
        ((scalarReads 0 row.2.1 w).any a.poisoned) ∧
      scalarOnly s t tile n

/-- R139: a branch that is taken goes to IMM[13:0], JR to S[A]; one that is not goes on; BRL writes PC + 1 to S[D]. -/
def Sys2Proof.Claim.Branches : Prop :=
  ∀ row ∈ branchRows, ∀ (tile : Fin 64) (n : Fin 128) (w : BitVec 119) (s : State),
    s.issues tile n 0 row.2.1 w →
    let a := (s.tile tile).thread n
    ∃ t, Does (row.1 tile n w) s t ∧
      ((t.tile tile).thread n).pc =
        (if row.2.2 (BitVec.ofNat 64 (a.sReg (wA w))) (BitVec.ofNat 64 (a.sReg (wB w))) then
          (if row.2.1 = 0x28 then a.sReg (wA w) else wField w 0 14) else a.pc + 1) ∧
      (if row.2.1 = 0x27 then
        wroteS a { (t.tile tile).thread n with pc := a.pc + 1 } (wD w) (BitVec.ofNat 64 (a.pc + 1)) false
       else (t.tile tile).thread n = { a with pc := ((t.tile tile).thread n).pc }) ∧
      scalarOnly s t tile n

/-- R138, R140: NOP does nothing, RDFLAG and RDCNT write D, CLRFLAG clears the named sticky flags and no other. -/
def Sys2Proof.Claim.ScalarDeviceAccess : Prop :=
  ∀ (tile : Fin 64) (n : Fin 128) (w : BitVec 119) (s : State),
    let a := (s.tile tile).thread n
    (s.issues tile n 0 0x00 w → ∃ t, Does (.nop tile n w) s t ∧
      (t.tile tile).thread n = { a with pc := a.pc + 1 } ∧ scalarOnly s t tile n) ∧
    (s.issues tile n 0 0x14 w → ∃ t, Does (.rdflag tile n w) s t ∧
      wroteS a ((t.tile tile).thread n) (wD w)
        (BitVec.ofNat 64 (fieldOf (s.rawReg .tileHatchFlags [tile]) 0 4 + 16 * fieldOf (s.rawReg .tileXhFlags [tile]) 0 4))
        false ∧ scalarOnly s t tile n) ∧
    (s.issues tile n 0 0x16 w → ∃ t, Does (.rdcnt tile n w) s t ∧
      wroteS a ((t.tile tile).thread n) (wD w) s.count false ∧ scalarOnly s t tile n) ∧
    (s.issues tile n 0 0x15 w → ∃ t, Does (.clrflag tile n w) s t ∧
      (t.tile tile).thread n = { a with pc := a.pc + 1 } ∧
      (∀ i < 64, (t.rawReg .tileHatchFlags [tile.val]).testBit i =
        ((s.rawReg .tileHatchFlags [tile.val]).testBit i && !(decide (i < 4) && (op2 a w).testBit i))) ∧
      (∀ i < 64, (t.rawReg .tileXhFlags [tile.val]).testBit i =
        ((s.rawReg .tileXhFlags [tile.val]).testBit i && !(decide (i < 4) && (op2 a w).testBit (4 + i)))) ∧
      (∀ r idx, regAddr r idx ≠ regAddr .tileHatchFlags [tile.val] → regAddr r idx ≠ regAddr .tileXhFlags [tile.val] →
        t.rawReg r idx = s.rawReg r idx) ∧
      t = { s with regs := t.regs, tiles := t.tiles } ∧ (∀ k, k ≠ tile → t.tile k = s.tile k) ∧
      (t.tile tile).body = (s.tile tile).body ∧ (s.tile tile).otherThreads (t.tile tile) n ∧
      (calm (s.tile tile) n → (∀ e, (t.tile tile).ticket e = (s.tile tile).ticket e) ∧
        (∀ k, (t.tile tile).slot k = (s.tile tile).slot k) ∧ ∀ k, k ≠ n.val → (t.tile tile).thread k = (s.tile tile).thread k))

/-- R98, R99, R101: WAIT and WAITANY. A name of no ticket that the thread holds gives BAD_TICKET; a completed ticket gives
its status word and is retired; otherwise the thread blocks. No other thread waits for the ticket (R95, R101: it is not
theirs). -/
def Sys2Proof.Claim.WaitAndWaitAny : Prop :=
  ∀ (tile : Fin 64) (n : Fin 128) (w : BitVec 119) (s : State),
    let tl := s.tile tile
    let a := tl.thread n
    (s.issues tile n 6 0 w →
      (tl.namedTicket n (a.sReg (wA w)) = none → ∃ t, Does (.wait tile n w) s t ∧ scalarFrame s t tile n ∧
        wroteS a ((t.tile tile).thread n) (wD w) (BitVec.ofNat 64 (0x0F + 6 * 2 ^ 8)) false) ∧
      (∀ e, tl.namedTicket n (a.sReg (wA w)) = some e → (tl.ticket e).result = none →
        ∃ t, Does (.wait tile n w) s t ∧ scalarFrame s t tile n ∧
          (t.tile tile).thread n = { a with pc := a.pc + 1, st := .blocked, waiting := .wait (wD w) e } ∧
          (t.tile tile).ticket e = tl.ticket e) ∧
      (∀ e st d, tl.namedTicket n (a.sReg (wA w)) = some e → (tl.ticket e).result = some (st, d) →
        (∀ k, k ≠ n → ∀ r, (tl.thread k).waiting ≠ .wait r e) →
        ∃ t, Does (.wait tile n w) s t ∧ scalarFrame s t tile n ∧
          wroteS a ((t.tile tile).thread n) (wD w) (BitVec.ofNat 64 (st + (tl.ticket e).cls * 2 ^ 8 + d * 2 ^ 16)) false ∧
          (t.tile tile).ticket e = { tl.ticket e with held := false, result := none })) ∧
    (s.issues tile n 6 1 w →
      (tl.heldBy n = [] → ∃ t, Does (.waitany tile n w) s t ∧ scalarFrame s t tile n ∧
        wroteS a ((t.tile tile).thread n) (wD w) (BitVec.ofNat 64 (0x0F + 6 * 2 ^ 8)) false) ∧
      (tl.heldBy n ≠ [] → (∀ e ∈ tl.heldBy n, (tl.ticket e).result = none) →
        ∃ t, Does (.waitany tile n w) s t ∧ scalarFrame s t tile n ∧
          (t.tile tile).thread n = { a with pc := a.pc + 1, st := .blocked, waiting := .waitAny (wD w) }) ∧
      (∀ e st d, e ∈ tl.heldBy n → (tl.ticket e).result = some (st, d) →
        (∀ f ∈ tl.heldBy n, (tl.ticket f).result.isSome → e ≤ f) →
        (∀ k, k ≠ n → ∀ r f, f ∈ tl.heldBy n → (tl.thread k).waiting ≠ .wait r f) →
        ∃ t, Does (.waitany tile n w) s t ∧ scalarFrame s t tile n ∧
          wroteS a ((t.tile tile).thread n) (wD w)
            (BitVec.ofNat 64 (st + (tl.ticket e).cls * 2 ^ 8 +
              (ticketValue e n (tl.ticket e).gen + d % 2 ^ 16 * 2 ^ 32) * 2 ^ 16)) false ∧
          (t.tile tile).ticket e = { tl.ticket e with held := false, result := none }))

/-- R100, R101: TEST writes the status word of the named ticket, status PENDING while it is outstanding, or BAD_TICKET; it
neither blocks nor retires: the ticket, outstanding or completed, is held as before, unless another thread waits for it. -/
def Sys2Proof.Claim.TestTicket : Prop :=
  ∀ (tile : Fin 64) (n : Fin 128) (w : BitVec 119) (s : State),
    let tl := s.tile tile
    let a := tl.thread n
    s.issues tile n 6 2 w → ∃ t, Does (.test tile n w) s t ∧ scalarFrame s t tile n ∧
      wroteS a ((t.tile tile).thread n) (wD w)
        (BitVec.ofNat 64 (match tl.namedTicket n (a.sReg (wA w)) with
          | none => 0x0F + 6 * 2 ^ 8
          | some e => (match (tl.ticket e).result with
            | none => 0x7F + (tl.ticket e).cls * 2 ^ 8
            | some r => r.1 + (tl.ticket e).cls * 2 ^ 8 + r.2 * 2 ^ 16))) false ∧
      (∀ e, tl.namedTicket n (a.sReg (wA w)) = some e →
        (∀ k, k ≠ n.val → (∀ r, (tl.thread k).waiting ≠ .wait r e) ∧ (∀ f, (tl.thread k).waiting = .fence f → e ∉ f)) →
        (t.tile tile).ticket e = tl.ticket e)

/-- R103, R112, R113, R121: FENCE blocks for the tickets held, LAUNCHAT until its target with the release count in D, HALT
ends the thread, which is FREE at once when it holds no outstanding ticket. -/
def Sys2Proof.Claim.FenceLaunchatHalt : Prop :=
  ∀ (tile : Fin 64) (n : Fin 128) (w : BitVec 119) (s : State),
    let tl := s.tile tile
    let a := tl.thread n
    (s.issues tile n 6 3 w →
      ((∃ e ∈ tl.heldBy n, (tl.ticket e).result = none) → ∃ t, Does (.fence tile n w) s t ∧ scalarFrame s t tile n ∧
        (t.tile tile).thread n = { a with pc := a.pc + 1, st := .blocked, waiting := .fence (tl.heldBy n) }) ∧
      ((∀ e ∈ tl.heldBy n, (tl.ticket e).result.isSome) →
        (∀ k, k ≠ n → ∀ r f, f ∈ tl.heldBy n → (tl.thread k).waiting ≠ .wait r f) →
        ∃ t, Does (.fence tile n w) s t ∧ scalarFrame s t tile n ∧
        (t.tile tile).thread n = { a with pc := a.pc + 1, st := .ready, waiting := .nothing })) ∧
    (s.issues tile n 6 4 w →
      (s.now < a.sReg (wA w) → ∃ t, Does (.launchat tile n w) s t ∧ scalarFrame s t tile n ∧
        (t.tile tile).thread n =
          { a with pc := a.pc + 1, st := .blocked, waiting := .launch (wD w) (a.sReg (wA w)) }) ∧
      (a.sReg (wA w) ≤ s.now → ∃ t, Does (.launchat tile n w) s t ∧ scalarFrame s t tile n ∧
        wroteS a ((t.tile tile).thread n) (wD w)
          (BitVec.ofNat 64 (s.now % 2 ^ 62 + b2n (!s.on F.GC_STATUS_SYNCED []) * 2 ^ 62 + 2 ^ 63)) false)) ∧
    (s.tileReady tile → ∀ d target, a.st = .blocked → a.waiting = .launch d target → target ≤ s.now → d < 32 →
      ∃ t, Does (.launchatRelease tile n) s t ∧ scalarFrame s t tile n ∧
        wroteS { a with st := .ready, waiting := .nothing } { (t.tile tile).thread n with pc := a.pc + 1 } d
          (BitVec.ofNat 64 (s.now % 2 ^ 62 + b2n (!s.on F.GC_STATUS_SYNCED []) * 2 ^ 62)) false ∧
        ((t.tile tile).thread n).pc = a.pc) ∧
    (s.issues tile n 6 5 w →
      ((∀ e ∈ tl.heldBy n, (tl.ticket e).result.isSome) →
        (∀ k, k ≠ n → ∀ r f, f ∈ tl.heldBy n → (tl.thread k).waiting ≠ .wait r f) →
        ∃ t, Does (.halt tile n w) s t ∧ scalarFrame s t tile n ∧ (t.tile tile).thread n = Thread.fresh) ∧
      ((∃ e ∈ tl.heldBy n, (tl.ticket e).result = none) → ∃ t, Does (.halt tile n w) s t ∧ scalarFrame s t tile n ∧
        (t.tile tile).thread n = { a with pc := a.pc + 1, st := .draining, waiting := .nothing, toFree := true }))

namespace Sys2Proof.Claim
/-- The ticketed instructions that issue does not yet perform: the command, CLASS and OP (R132, R146, R157, R164, R170,
R182). -/
def ticketRows : List ((Fin 64 → Fin 128 → BitVec 119 → Instr) × Nat × Nat) :=
  [(Instr.vadd, 1, 0x00), (Instr.vsub, 1, 0x01), (Instr.vmul, 1, 0x02), (Instr.vmad, 1, 0x03), (Instr.vmax, 1, 0x04),
   (Instr.vmin, 1, 0x05), (Instr.vand, 1, 0x06), (Instr.vor, 1, 0x07), (Instr.vxor, 1, 0x08), (Instr.vabs, 1, 0x09),
   (Instr.vneg, 1, 0x0A), (Instr.vrcp, 1, 0x0B), (Instr.vrsq, 1, 0x0C), (Instr.vcvt, 1, 0x0D), (Instr.vcmp, 1, 0x0E),
   (Instr.vsel, 1, 0x0F), (Instr.vbcst, 1, 0x10), (Instr.vext, 1, 0x11), (Instr.vidx, 1, 0x12), (Instr.vred, 1, 0x13),
   (Instr.tred, 1, 0x14), (Instr.trow, 1, 0x15), (Instr.tput, 1, 0x16), (Instr.vtopk, 1, 0x17), (Instr.mand, 1, 0x18),
   (Instr.mor, 1, 0x19), (Instr.mxor, 1, 0x1A), (Instr.mnot, 1, 0x1B), (Instr.msetp, 1, 0x1C), (Instr.mpop, 1, 0x1D),
   (Instr.chain, 2, 0), (Instr.chaint, 2, 1), (Instr.xmm, 3, 0),
   (Instr.ldv, 4, 0), (Instr.stv, 4, 1), (Instr.ldt, 4, 2), (Instr.stt, 4, 3), (Instr.lds, 4, 4), (Instr.sts, 4, 5),
   (Instr.aadd, 4, 6), (Instr.aswp, 4, 7), (Instr.put, 5, 0x20), (Instr.get, 5, 0x21), (Instr.notify, 5, 0x24)]

/-- The launches of R182: the command and OP. -/
def launchRows : List ((Fin 64 → Fin 128 → BitVec 119 → Instr) × Nat) :=
  [(Instr.ared, 0x00), (Instr.rsct, 0x01), (Instr.agth, 0x02), (Instr.bcst, 0x03), (Instr.redu, 0x04), (Instr.a2av, 0x05),
   (Instr.agmm, 0x06), (Instr.arap, 0x07), (Instr.disp, 0x10), (Instr.comb, 0x11)]

/-- The ticket that an issue of thread `n` allocates in entry `e` (R95): held, its generation one up, no result. -/
def openTicket (a : Machine.Ticket) (n cls : Nat) : Machine.Ticket := ⟨true, n, (a.gen + 1) % 2 ^ 16, cls, none⟩
end Sys2Proof.Claim

/-- R92, R94, R95, R132: a ticketed instruction allocates the lowest free entry of its thread, writes the ticket value to
D, marks its scalar result pending and joins the end of its class's queue with its operands; memory and every V, M and T
register are as before. (That the entry is the lowest free one is log 7.) Completion: on these premises
Sys2Proof.Machine.exec answers a next state for vadd, vsub, vmul, vmad, vmax, vmin, vand, vor, vxor, vabs, vneg, vrcp,
vrsq, vcvt, vcmp, vsel, vbcst, vext, vidx, vred, tred, trow, tput, vtopk, mand, mor, mxor, mnot, msetp, mpop, chain,
chaint, xmm, ldv, stv, ldt, stt, lds, sts, aadd, aswp, put, get, notify. -/
def Obligations.TicketedIssue : Prop :=
  ∀ row ∈ ticketRows, ∀ (tile : Fin 64) (n : Fin 128) (w : BitVec 119) (s : State),
    s.issues tile n row.2.1 row.2.2 w →
    let tl := s.tile tile
    let a := tl.thread n
    ∃ (t : State) (e : Nat) (op : EngOp), Does (row.1 tile n w) s t ∧ s.onlyTile t tile ∧ tl.freeEntry n = some e ∧
      (t.tile tile).ticket e = openTicket (tl.ticket e) n row.2.1 ∧
      ((t.tile tile).thread n).sReg (wD w) = e + 512 * n + 2 ^ 16 * (((tl.ticket e).gen + 1) % 2 ^ 16) ∧
      (∀ k, k ≠ wD w → ((t.tile tile).thread n).sReg k = a.sReg k) ∧
      ((t.tile tile).thread n).pend =
        (match opScalarDest row.2.1 row.2.2 w with | some r => setBit a.pend r true | none => a.pend) ∧
      ((t.tile tile).thread n).pc = a.pc + 1 ∧ ((t.tile tile).thread n).st = .ready ∧
      op.entry = e ∧ op.thread = n ∧ op.cls = row.2.1 ∧ op.opc = row.2.2 ∧ op.w = w ∧
      op.sc = scalars a row.2.1 row.2.2 w ∧
      (t.tile tile).body = { tl.body with
        hatchQ := tl.hatchQ ++ (if row.2.1 = 1 ∨ row.2.1 = 2 then [op] else []),
        xhQ := tl.xhQ ++ (if row.2.1 = 3 then [op] else []),
        memQ := tl.memQ ++ (if row.2.1 = 4 ∨ row.2.1 = 5 then [op] else []), nextOrd := tl.nextOrd + 1 } ∧
      tl.otherThreads (t.tile tile) n

/-- R183, R207, R208, R95: a launch whose communicator is ACTIVE and whose sequence number is in the window and new takes
its place: the communicator gains the collective with the operands of the instruction, and D holds the ticket. No message
of that number has come before it and no saved state waits for it. -/
def Sys2Proof.Claim.CollectiveLaunch : Prop :=
  ∀ row ∈ launchRows, ∀ (tile : Fin 64) (n : Fin 128) (w : BitVec 119) (s : State) (c : Comm),
    s.issues tile n 5 row.2 w →
    let a := (s.tile tile).thread n
    let sc := scalars a 5 row.2 w
    let seq := fieldOf sc.sa 20 32
    sc.bad = false → (sc.sbBad && s.hasLocal (fieldOf sc.sa 0 20)) = false → s.inReset 5 (tileDie tile) = false →
    s.comm (fieldOf sc.sa 0 20) = some c → c.desc.id = fieldOf sc.sa 0 20 → c.st = 2 →
    (seq + 2 ^ 32 - c.next) % 2 ^ 32 < 8 → c.coll seq = none → seq ∉ c.barred →
    (∀ st ∈ c.early, st.seq ≠ seq) → (∀ p ∈ c.saved, p.1.seq ≠ seq) →
    ∃ u c' x e, Does (row.1 tile n w) s (s.after u) ∧ u.mem = s.mem ∧
      (s.tile tile).freeEntry n = some e ∧ (u.tile tile).ticket e = openTicket ((s.tile tile).ticket e) n 5 ∧
      ((u.tile tile).thread n).sReg (wD w) = e + 512 * n + 2 ^ 16 * ((((s.tile tile).ticket e).gen + 1) % 2 ^ 16) ∧
      ((u.tile tile).thread n).pc = a.pc + 1 ∧
      u.comm c.desc.id = some c' ∧ c'.coll seq = some x ∧ x.op = row.2 ∧ x.home = tile ∧ x.entry = e ∧
      x.count = sc.se ∧ x.red = wRED w ∧ x.rm = wRM w ∧ x.sb = sc.sb ∧ x.sc = sc.sc

/-- R93, R207, R208, R229: a launch that is turned away completes its ticket at once: with SOURCE_POISONED where an
operand that it reads was poisoned, with NO_COMMUNICATOR where its communicator is EMPTY or RESERVED, with COMM_FAULTED
where it is FAULTED, with SEQ_ERROR where its number is outside the window or taken; with ISOLATED while the communicate
path of its die is in reset (R508; that it then takes no place is log 64). -/
def Sys2Proof.Claim.LaunchRefused : Prop :=
  ∀ row ∈ launchRows, ∀ (tile : Fin 64) (n : Fin 128) (w : BitVec 119) (s : State),
    s.issues tile n 5 row.2 w →
    let sc := scalars ((s.tile tile).thread n) 5 row.2 w
    let seq := fieldOf sc.sa 20 32
    let poisoned := sc.bad || (sc.sbBad && s.hasLocal (fieldOf sc.sa 0 20))
    ∀ status, (if s.inReset 5 (tileDie tile) then status = 0x04
      else if poisoned then status = 0x01
      else match s.comm (fieldOf sc.sa 0 20) with
        | none => status = 0x20
        | some c => (c.st = 3 ∧ status = 0x29) ∨ (c.st ≠ 2 ∧ c.st ≠ 3 ∧ status = 0x20) ∨
          (c.st = 2 ∧ (8 ≤ (seq + 2 ^ 32 - c.next) % 2 ^ 32 ∨ (c.coll seq).isSome ∨ seq ∈ c.barred) ∧ status = 0x21)) →
    (∀ k, k ≠ n.val → ((s.tile tile).thread k).still) →
    ∃ t e, Does (row.1 tile n w) s t ∧ t.mem = s.mem ∧ t.cs = s.cs ∧ (s.tile tile).freeEntry n = some e ∧
      (t.tile tile).ticket e =
        { openTicket ((s.tile tile).ticket e) n 5 with result := some (status, if status = 0x01 then 0 else seq % 8) }

namespace Sys2Proof.Claim
/-- The mask operations of R147 that write M[VD]: OP, and each bit of the result from the bits of M[VA] and M[VB] and
whether its number is below IMM32. -/
def maskRows : List (Nat × (Bool → Bool → Bool → Bool)) :=
  [(0x18, fun a b _ => a && b), (0x19, fun a b _ => a || b), (0x1A, fun a b _ => a != b), (0x1B, fun a _ _ => !a),
   (0x1C, fun _ _ lt => lt)]

/-- Lane arithmetic on 32-bit integers (R63, R64, R146): OP, whether it is taken as unsigned too, and a lane's result from
the lanes of VA, the second operand and VC. -/
def intRows : List (Nat × Nat × (BitVec 32 → BitVec 32 → BitVec 32 → BitVec 32)) :=
  [(0x00, 0xA, fun a b _ => a + b), (0x00, 0xE, fun a b _ => a + b), (0x01, 0xA, fun a b _ => a - b),
   (0x01, 0xE, fun a b _ => a - b), (0x02, 0xA, fun a b _ => a * b), (0x02, 0xE, fun a b _ => a * b),
   (0x03, 0xA, fun a b c => a * b + c), (0x03, 0xE, fun a b c => a * b + c),
   (0x04, 0xA, fun a b _ => if a.slt b then b else a), (0x04, 0xE, fun a b _ => if a.ult b then b else a),
   (0x05, 0xA, fun a b _ => if b.slt a then b else a), (0x05, 0xE, fun a b _ => if b.ult a then b else a),
   (0x06, 0xA, fun a b _ => a &&& b), (0x06, 0xE, fun a b _ => a &&& b), (0x07, 0xA, fun a b _ => a ||| b),
   (0x07, 0xE, fun a b _ => a ||| b), (0x08, 0xA, fun a b _ => a ^^^ b), (0x08, 0xE, fun a b _ => a ^^^ b),
   (0x09, 0xA, fun a _ _ => if a.slt 0 then -a else a), (0x0A, 0xA, fun a _ _ => -a)]

/-- An operation at work in the hatch engine, its sources good, its ticket outstanding; no thread of the tile waits. -/
def hatchAt (s : State) (tile entry : Nat) (op : EngOp) : Prop :=
  s.tileReady tile ∧ opAt (s.tile tile).hatchRun entry = some op ∧ op.verdict = none ∧
  ((s.tile tile).ticket entry).held = true ∧ ((s.tile tile).ticket entry).result = none ∧
  (∀ k, ((s.tile tile).thread k).still)

/-- A tile before and after the end of an operation with no error: the operation is gone from queues and engines, its
ticket is complete with OK, and nothing else of the tile changed but V, M and T registers, their poison, and slots. -/
def endsOk (a b : Tile) (entry : Nat) : Prop :=
  b.ticket entry = { a.ticket entry with result := some (0, 0) } ∧ (∀ e, e ≠ entry → b.ticket e = a.ticket e) ∧
  b = { a.dropOp entry with threads := b.threads, tickets := b.tickets, slots := b.slots, v := b.v, m := b.m, t := b.t,
                            vBad := b.vBad, mBad := b.mBad, tBad := b.tBad, vUc := b.vUc, mUc := b.mUc, tUc := b.tUc }

/-- Lane `i` is active (R143). -/
def lane (tl : Tile) (w : BitVec 119) (i : Nat) : Bool := wUM w || (tl.mReg (wMK w)).getLsbD i
end Sys2Proof.Claim

/-- R146, R147, R187, R93: a mask operation ends: bit by bit M[VD] is the manual's function, its poison is gone, and no
other register changed; MPOP gives S[SS] the number of ones of M[VA] and ends its being pending. No residue check is made,
so none can fail. -/
def Sys2Proof.Claim.MaskOperations : Prop :=
  ∀ (tile : Fin 64) (e : Fin 512) (residue : Nat) (s : State) (op : EngOp),
    hatchAt s tile e op → op.cls = 1 →
    let a := s.tile tile
    (∀ row ∈ maskRows, op.opc = row.1 → ∃ t, Does (.hatchComplete tile e residue) s t ∧ s.onlyTile t tile ∧
      endsOk a (t.tile tile) e ∧
      (∀ i < 256, ((t.tile tile).mReg (wA op.w % 8)).getLsbD i =
        row.2 ((a.mReg (wB op.w % 8)).getLsbD i) ((a.mReg (wC op.w % 8)).getLsbD i) (decide (i < wImm32 op.w))) ∧
      (t.tile tile).mBad.getLsbD (wA op.w % 8) = false ∧
      (∀ k, k ≠ wA op.w % 8 → (t.tile tile).mReg k = a.mReg k) ∧
      (t.tile tile).v = a.v ∧ (t.tile tile).t = a.t ∧ (t.tile tile).threads = a.threads) ∧
    (op.opc = 0x1D → (a.thread op.thread).st ≠ .free → ∃ t, Does (.hatchComplete tile e residue) s t ∧ s.onlyTile t tile ∧
      endsOk a (t.tile tile) e ∧
      ((t.tile tile).thread op.thread).sReg (wSS op.w) =
        ((List.range 256).filter (fun i => (a.mReg (wB op.w % 8)).getLsbD i)).length ∧
      ((t.tile tile).thread op.thread).pending (wSS op.w) = false ∧
      ((t.tile tile).thread op.thread).pc = (a.thread op.thread).pc ∧
      (∀ k, k ≠ wSS op.w → ((t.tile tile).thread op.thread).sReg k = (a.thread op.thread).sReg k) ∧
      (∀ k, k ≠ op.thread → (t.tile tile).thread k = a.thread k) ∧
      (t.tile tile).v = a.v ∧ (t.tile tile).m = a.m ∧ (t.tile tile).t = a.t)

/-- R143, R146, R147: VSEL, VBCST, VIDX, TROW and TPUT move lanes raw: an active lane takes the manual's value, an
inactive one zero under MZ and else what it held; VEXT gives S[SS] a lane. -/
def Sys2Proof.Claim.RawLaneOperations : Prop :=
  ∀ (tile : Fin 64) (e : Fin 512) (residue : Nat) (s : State) (op : EngOp),
    hatchAt s tile e op → op.cls = 1 →
    let a := s.tile tile
    let row := if wAUX op.w % 2 = 1 then op.sc.ss % 16 else wImm32 op.w % 16
    let at_ (v : Tile → BitVec 8192) (value old : Nat → Nat) (mz : Bool) (act : Nat → Bool) : Prop :=
      ∃ t, Does (.hatchComplete tile e residue) s t ∧ s.onlyTile t tile ∧ endsOk a (t.tile tile) e ∧
        (∀ i < 256, laneOf (v (t.tile tile)) i = if act i then value i else if mz then 0 else old i) ∧
        (t.tile tile).m = a.m ∧ (t.tile tile).threads = a.threads ∧
        (op.opc = 0x16 → (t.tile tile).v = a.v ∧ ∀ k r, k < 8 → r < 16 → (k ≠ wA op.w % 8 ∨ r ≠ row) →
          (t.tile tile).tRow k r = a.tRow k r) ∧
        (op.opc ≠ 0x16 → (t.tile tile).t = a.t ∧ ∀ k, k ≠ wA op.w → (t.tile tile).vReg k = a.vReg k)
    (op.opc = 0x0F → at_ (fun b => b.vReg (wA op.w)) (laneOf (a.vReg (wB op.w))) (laneOf (a.vReg (wC op.w))) false
      (fun i => (a.mReg (wMK op.w)).getLsbD i)) ∧
    (op.opc = 0x10 → at_ (fun b => b.vReg (wA op.w))
      (fun _ => if wAUX op.w % 2 = 1 then wImm32 op.w else op.sc.ss % 2 ^ 32) (laneOf (a.vReg (wA op.w))) (wMZ op.w)
      (lane a op.w)) ∧
    (op.opc = 0x12 → at_ (fun b => b.vReg (wA op.w)) id (laneOf (a.vReg (wA op.w))) (wMZ op.w) (lane a op.w)) ∧
    (op.opc = 0x15 → at_ (fun b => b.vReg (wA op.w)) (laneOf (a.tRow (wB op.w % 8) row)) (laneOf (a.vReg (wA op.w)))
      (wMZ op.w) (lane a op.w)) ∧
    (op.opc = 0x16 → at_ (fun b => b.tRow (wA op.w % 8) row) (laneOf (a.vReg (wB op.w)))
      (laneOf (a.tRow (wA op.w % 8) row)) (wMZ op.w) (lane a op.w)) ∧
    (op.opc = 0x11 → (a.thread op.thread).st ≠ .free → ∃ t, Does (.hatchComplete tile e residue) s t ∧
      s.onlyTile t tile ∧ endsOk a (t.tile tile) e ∧
      ((t.tile tile).thread op.thread).sReg (wSS op.w) = laneOf (a.vReg (wB op.w)) (wImm32 op.w % 256) ∧
      ((t.tile tile).thread op.thread).pending (wSS op.w) = false ∧
      (t.tile tile).v = a.v ∧ (t.tile tile).m = a.m ∧ (t.tile tile).t = a.t)

/-- R63, R64, R143, R144, R146: lane arithmetic where source and destination format are one 32-bit integer format: an
active lane takes the manual's result modulo 2^32, an inactive one zero under MZ and else what it held; no flag is set. No
residue mismatch is found and none injected. Completion: on these premises Sys2Proof.Machine.exec answers a next state for
hatchComplete. -/
def Obligations.IntegerLaneArithmetic : Prop :=
  ∀ row ∈ intRows, ∀ (tile : Fin 64) (e : Fin 512) (s : State) (op : EngOp),
    hatchAt s tile e op → op.cls = 1 → op.opc = row.1 → wFA op.w = row.2.1 → wFD op.w = row.2.1 → wRM op.w < 3 →
    s.faults.inject = none →
    let a := s.tile tile
    let y (i : Nat) : Nat := if wBSEL op.w = 1 then op.sc.ss % 2 ^ 32 else if wBSEL op.w = 2 then wImm32 op.w
      else laneOf (a.vReg (wC op.w)) i
    ∃ t, Does (.hatchComplete tile e 0) s t ∧ s.onlyTile t tile ∧ endsOk a (t.tile tile) e ∧
      (∀ i < 256, laneOf ((t.tile tile).vReg (wA op.w)) i =
        if lane a op.w i then
          (row.2.2 (BitVec.ofNat 32 (laneOf (a.vReg (wB op.w)) i)) (BitVec.ofNat 32 (y i))
            (BitVec.ofNat 32 (laneOf (a.vReg (wE op.w)) i))).toNat
        else if wMZ op.w then 0 else laneOf (a.vReg (wA op.w)) i) ∧
      (∀ k, k ≠ wA op.w → (t.tile tile).vReg k = a.vReg k) ∧
      (t.tile tile).m = a.m ∧ (t.tile tile).t = a.t ∧ (t.tile tile).threads = a.threads

/-- R73, R93, R136, R143, R187: every hatch and chain instruction whose checks find no mismatch ends: with OK it changes
no register but its destinations, whose poison goes, and the hatch engine's sticky flags gain what it set; with an error
no register changes and the destinations are poisoned. -/
def Sys2Proof.Claim.HatchCompletes : Prop :=
  ∀ (tile : Fin 64) (e : Fin 512) (s : State) (op : EngOp),
    hatchAt s tile e op → (op.cls = 1 ∨ (op.cls = 2 ∧ op.opc ≤ 1)) → s.faults.inject = none →
    ((s.tile tile).thread op.thread).st ≠ .free →
    let a := s.tile tile
    let out := if op.cls = 2 then chainOut a op else hatchOut a op
    ∃ t, Does (.hatchComplete tile e 0) s t ∧ t = { s with regs := t.regs, tiles := t.tiles } ∧
      (∀ k, k ≠ tile.val → t.tile k = s.tile k) ∧
      (t.tile tile).ticket e = { a.ticket e with result := some (out.status, out.detail % 2 ^ 48) } ∧
      (∀ i < 4, (t.rawReg .tileHatchFlags [tile.val]).testBit i =
        ((s.rawReg .tileHatchFlags [tile.val]).testBit i || (out.flags.toNat).testBit i)) ∧
      (∀ r idx, regAddr r idx ≠ regAddr .tileHatchFlags [tile.val] → t.rawReg r idx = s.rawReg r idx) ∧
      (∀ k, RegRef.v k ∉ opWrites op.cls op.opc op.w → (t.tile tile).vReg k = a.vReg k) ∧
      (∀ k, RegRef.m k ∉ opWrites op.cls op.opc op.w → (t.tile tile).mReg k = a.mReg k) ∧
      (∀ k < 8, RegRef.t k ∉ opWrites op.cls op.opc op.w → ∀ r < 16, (t.tile tile).tRow k r = a.tRow k r) ∧
      (∀ k, k ≠ op.thread → (t.tile tile).thread k = a.thread k) ∧
      (out.status = 0 → ∀ r ∈ opWrites op.cls op.opc op.w, (t.tile tile).isBad r = false) ∧
      (out.status ≠ 0 → (t.tile tile).v = a.v ∧ (t.tile tile).m = a.m ∧ (t.tile tile).t = a.t ∧
        ∀ r ∈ vmt (opWrites op.cls op.opc op.w), (t.tile tile).isBad r = true)

/-- R77, R78, R93, R136: a hatch or chain instruction in whose checks mismatches are found ends with RESIDUE: its
destination keeps its content and is poisoned, every mismatch is counted and reported by the tile's die. -/
def Sys2Proof.Claim.ResidueMismatch : Prop :=
  ∀ (tile : Fin 64) (e : Fin 512) (n : Nat) (s : State) (op : EngOp),
    hatchAt s tile e op → 0 < n → ((op.cls = 1 ∧ op.opc ≤ 0x0D) ∨ op.cls = 2) →
    s.faults.inject = none → (Fmt.ofCode (wFA op.w)).isSome → (Fmt.ofCode (wFD op.w)).isSome → wRM op.w < 3 →
    (if op.cls = 2 then chainOut (s.tile tile) op else hatchOut (s.tile tile) op).status = 0 →
    ∃ u, Does (.hatchComplete tile e n) s (s.after u) ∧
      (u.tile tile).ticket e = { (s.tile tile).ticket e with result := some (0x02, 0) } ∧
      (u.tile tile).v = (s.tile tile).v ∧ (u.tile tile).m = (s.tile tile).m ∧ (u.tile tile).t = (s.tile tile).t ∧
      (∀ r ∈ opWrites op.cls op.opc op.w, (u.tile tile).isBad r = true) ∧
      u.rd F.TILE_RESIDUE_STATUS_HATCH_ERR [tile] = 1 ∧
      u.rd F.TILE_RESIDUE_CNT_COUNT [tile] = satAdd 64 (s.rd F.TILE_RESIDUE_CNT_COUNT [tile]) n ∧
      u.rd F.FLT_DIE_CNT_COUNT [tileDie tile, 2] = satAdd 64 (s.rd F.FLT_DIE_CNT_COUNT [tileDie tile, 2]) n ∧
      u.mem = s.mem ∧ ∀ k, k ≠ tile.val → u.tile k = s.tile k

/-- R90, R93: an engine takes the operation at the head of its queue once nothing earlier stands in its way: the operation
leaves the queue and is at work, or, where a source register is poisoned, SOURCE_POISONED is what it will end with. A
memory operation whose access is admitted is at work with the plates that admitted it. Completion: on these premises
Sys2Proof.Machine.exec answers a next state for engineStart. -/
def Obligations.EngineStart : Prop :=
  ∀ (tile : Fin 64) (ecc : Ecc) (s : State) (op : EngOp) (rest : List EngOp),
    s.tileReady tile → s.faults.inReset = [] → (s.tile tile).holds op = false →
    (∀ o ∈ rest ++ (s.tile tile).hatchRun ++ (s.tile tile).xhRun ++ (s.tile tile).memRun ++ (s.tile tile).commRun,
      o.entry ≠ op.entry) →
    let a := s.tile tile
    (a.hatchQ = op :: rest → (op.cls = 1 ∨ op.cls = 2) → ∃ t, Does (.engineStart tile 0 ecc) s t ∧ s.onlyTile t tile ∧
      (t.tile tile).hatchQ = rest ∧ (t.tile tile).hatchRun = a.hatchRun ++ [{ op with verdict := a.sourceVerdict op }] ∧
      (t.tile tile).v = a.v ∧ (t.tile tile).m = a.m ∧ (t.tile tile).t = a.t) ∧
    (a.xhQ = op :: rest → op.cls = 3 → s.rd F.PWR_DOMAIN_STATE [128 + tile] = 0 →
      ∃ t x, Does (.engineStart tile 1 ecc) s t ∧ s.onlyTile t tile ∧
        (t.tile tile).xhQ = rest ∧ (t.tile tile).xhRun = a.xhRun ++ [x] ∧ x = { op with plates := x.plates, verdict := x.verdict } ∧
        (t.tile tile).t = a.t) ∧
    (a.memQ = op :: rest → op.cls = 4 → a.sourceVerdict op = none → storeVerdict a op (memMask a op) = none →
      s.accessVerdict (.burin tile) (opBytes op (memMask a op)) = none → (∀ k < 8, s.rd F.PWR_DOMAIN_STATE [192 + k] = 0) →
      ∃ t, Does (.engineStart tile 2 ecc) s t ∧ s.onlyTile t tile ∧ (t.tile tile).memQ = rest ∧
        (t.tile tile).memRun =
          a.memRun ++ [{ op with plates := platesTouched (piecesOf (opBytes op (memMask a op))) }])

namespace Sys2Proof.Claim
/-- A memory operation at work, its ticket outstanding; no thread of the tile waits and no plate changes hands. -/
def memAt (s : State) (tile entry : Nat) (op : EngOp) : Prop :=
  s.tileReady tile ∧ opAt (s.tile tile).memRun entry = some op ∧ op.cls = 4 ∧
  ((s.tile tile).ticket entry).held = true ∧ ((s.tile tile).ticket entry).result = none ∧
  (∀ k, ((s.tile tile).thread k).still) ∧ (∀ p, (s.tile p).handOver = none)

/-- Every byte outside a range reads as before. -/
def keepsOutside (s t : State) (a n : Nat) : Prop :=
  ∀ x, (x < a ∨ a + n ≤ x) → t.mem.readByte x = s.mem.readByte x

/-- `t` differs from `s` in memory, its poison and one tile's working state alone. -/
def onlyTileMem (s t : State) (tile : Nat) : Prop :=
  t = { s with tiles := t.tiles, mem := t.mem, memPoison := t.memPoison } ∧ ∀ k, k ≠ tile → t.tile k = s.tile k

/-- The 64-bit words that a memory operation reads hold neither poison nor an error, and no error is injected. -/
def cleanRead (s : State) (tile : Nat) (op : EngOp) : Prop :=
  s.faults.inject = none ∧ ∀ w ∈ opWords (opBytes op (memMask (s.tile tile) op)), w ∉ s.memPoison

/-- The address of a memory instruction of one word: S[SA] + OFS (R170). -/
def wordAddr (op : EngOp) : Nat := elemBase op.w op.sc.sa
end Sys2Proof.Claim

/-- R106, R177, R178: LDS gives S[REG] the 8 bytes at S[SA] + OFS; STS writes S[REG] there and nothing else; AADD and ASWP
on 32-bit integers replace the 4 bytes by the sum modulo 2^32 or by S[SE], and return the old value where they return one. -/
def Sys2Proof.Claim.WordMemoryOperations : Prop :=
  ∀ (tile : Fin 64) (e : Fin 512) (s : State) (op : EngOp), memAt s tile e op → s.mem.wf = true →
    let a := s.tile tile
    let adr := wordAddr op
    (op.opc = 4 → cleanRead s tile op → (a.thread op.thread).st ≠ .free →
      ∃ t, Does (.memoryComplete tile e Ecc.clean .nothing) s t ∧ s.onlyTile t tile ∧ endsOk a (t.tile tile) e ∧
        ((t.tile tile).thread op.thread).sReg (wA op.w) = leNat (s.mem.read adr 8) ∧
        ((t.tile tile).thread op.thread).pending (wA op.w) = false ∧
        (∀ k, k ≠ wA op.w → ((t.tile tile).thread op.thread).sReg k = (a.thread op.thread).sReg k) ∧
        (t.tile tile).v = a.v ∧ (t.tile tile).m = a.m ∧ (t.tile tile).t = a.t) ∧
    (op.opc = 5 → ∃ t, Does (.memoryComplete tile e Ecc.clean .nothing) s t ∧ onlyTileMem s t tile ∧
      endsOk a (t.tile tile) e ∧ t.mem.read adr 8 = leBytes 8 op.sc.reg ∧ keepsOutside s t adr 8 ∧
      (t.tile tile).threads = a.threads ∧ (t.tile tile).v = a.v ∧ (t.tile tile).m = a.m ∧ (t.tile tile).t = a.t) ∧
    ((op.opc = 6 ∨ op.opc = 7) → (wFA op.w = 10 ∨ wFA op.w = 14 ∨ wFA op.w = 5) → cleanRead s tile op →
      (a.thread op.thread).st ≠ .free →
      ∃ t, Does (.memoryComplete tile e Ecc.clean .nothing) s t ∧ onlyTileMem s t tile ∧ endsOk a (t.tile tile) e ∧
        leNat (t.mem.read adr 4) =
          (if op.opc = 7 then op.sc.ss % 2 ^ 32
           else if wFA op.w = 5 then (atomicOut 6 5 (leNat (s.mem.read adr 4)) (op.sc.ss % 2 ^ 32)).1
           else (leNat (s.mem.read adr 4) + op.sc.ss % 2 ^ 32) % 2 ^ 32) ∧
        keepsOutside s t adr 4 ∧
        (wBS op.w = 1 → ((t.tile tile).thread op.thread).sReg (wA op.w) =
          (if wFA op.w = 10 ∧ 2 ^ 31 ≤ leNat (s.mem.read adr 4) then leNat (s.mem.read adr 4) + (2 ^ 64 - 2 ^ 32)
           else leNat (s.mem.read adr 4))) ∧
        (op.opc = 6 → wBS op.w = 0 → (t.tile tile).threads = a.threads) ∧
        (t.tile tile).v = a.v ∧ (t.tile tile).m = a.m ∧ (t.tile tile).t = a.t)

/-- R174 to R176, R143: LDV and LDT complete on every format, change no memory and no register but V[REG] or the first
ROWS rows of T[REG]; with a 32-bit integer format lane `i` of a row takes the word at byte 4 i of the row's element plane
where it is active, else zero under MZ and what it held without. -/
def Sys2Proof.Claim.RegisterLoads : Prop :=
  ∀ (tile : Fin 64) (e : Fin 512) (s : State) (op : EngOp), memAt s tile e op → cleanRead s tile op →
    (Fmt.ofCode (wFA op.w)).isSome →
    let a := s.tile tile
    let loaded (r i old : Nat) : Nat :=
      if lane a op.w i then leNat (s.mem.read (rowElem op r + 4 * i) 4) else if wMZ op.w then 0 else old
    (op.opc = 0 → ∃ t, Does (.memoryComplete tile e Ecc.clean .nothing) s t ∧ s.onlyTile t tile ∧
      endsOk a (t.tile tile) e ∧
      ((wFA op.w = 10 ∨ wFA op.w = 14) → ∀ i < 256, laneOf ((t.tile tile).vReg (wA op.w)) i =
        loaded 0 i (laneOf (a.vReg (wA op.w)) i)) ∧
      (wMZ op.w = false → ∀ i < 256, lane a op.w i = false →
        laneOf ((t.tile tile).vReg (wA op.w)) i = laneOf (a.vReg (wA op.w)) i) ∧
      (∀ k, k ≠ wA op.w → (t.tile tile).vReg k = a.vReg k) ∧ (t.tile tile).m = a.m ∧ (t.tile tile).t = a.t ∧
      (t.tile tile).threads = a.threads) ∧
    (op.opc = 2 → ∃ t, Does (.memoryComplete tile e Ecc.clean .nothing) s t ∧ s.onlyTile t tile ∧
      endsOk a (t.tile tile) e ∧
      ((wFA op.w = 10 ∨ wFA op.w = 14) → ∀ r < wRows op.w, ∀ i < 256,
        laneOf ((t.tile tile).tRow (wA op.w % 8) r) i = loaded r i (laneOf (a.tRow (wA op.w % 8) r) i)) ∧
      (∀ k < 8, ∀ r < 16, (k ≠ wA op.w % 8 ∨ wRows op.w ≤ r) → (t.tile tile).tRow k r = a.tRow k r) ∧
      (t.tile tile).v = a.v ∧ (t.tile tile).m = a.m ∧ (t.tile tile).threads = a.threads)

/-- R175, R176: STV and STT complete on every format and write no byte outside the element and scale planes of their rows;
with a 32-bit integer format an active lane's word is stored and an inactive lane's bytes stay (rows that do not overlap). -/
def Sys2Proof.Claim.RegisterStores : Prop :=
  ∀ (tile : Fin 64) (e : Fin 512) (s : State) (op : EngOp) (f : Fmt), memAt s tile e op → (op.opc = 1 ∨ op.opc = 3) → s.mem.wf = true →
    Fmt.ofCode (wFA op.w) = some f →
    let a := s.tile tile
    let row (b : Tile) (r : Nat) : BitVec 8192 := if op.opc = 1 then b.vReg (wA op.w) else b.tRow (wA op.w % 8) r
    ∃ t, Does (.memoryComplete tile e Ecc.clean .nothing) s t ∧ onlyTileMem s t tile ∧ endsOk a (t.tile tile) e ∧
      (∀ x, (∀ r < opRows op, (x < rowElem op r ∨ rowElem op r + planeBytes f ≤ x) ∧
          (x < rowScale op r ∨ rowScale op r + scaleBytes f (blockSize (wBS op.w)) ≤ x)) →
        t.mem.readByte x = s.mem.readByte x) ∧
      ((wFA op.w = 10 ∨ wFA op.w = 14) →
        (∀ r < opRows op, ∀ q < opRows op, r ≠ q → rowElem op r + 1024 ≤ rowElem op q ∨ rowElem op q + 1024 ≤ rowElem op r) →
        ∀ r < opRows op, ∀ i < 256, t.mem.read (rowElem op r + 4 * i) 4 =
          if lane a op.w i then leBytes 4 (laneOf (row a r) i) else s.mem.read (rowElem op r + 4 * i) 4) ∧
      (t.tile tile).v = a.v ∧ (t.tile tile).m = a.m ∧ (t.tile tile).t = a.t ∧ (t.tile tile).threads = a.threads

/-- R106, R110, R136: a memory operation that a unit in reset or no answer ends gives ISOLATED or MEMORY_TIMEOUT with the
offset of the first byte not moved; the registers are as before and a destination is poisoned (R93). A read changes
nothing else; of a write every aligned piece of 64 bytes is as it was or as the whole write would leave it. -/
def Sys2Proof.Claim.FailedMemoryOperations : Prop :=
  ∀ (tile : Fin 64) (e : Fin 512) (off : Nat) (s : State) (op : EngOp), memAt s tile e op → off < 2 ^ 48 → s.mem.wf = true →
    ∀ f ∈ [(MemFail.isolated off, 0x04), (MemFail.timeout off, 0x05)],
      ∃ t, Does (.memoryComplete tile e Ecc.clean f.1) s t ∧
        t = { s with tiles := t.tiles, mem := t.mem, memPoison := t.memPoison, draws := t.draws } ∧
        (∀ k, k ≠ tile.val → t.tile k = s.tile k) ∧
        ((op.opc = 0 ∨ op.opc = 2 ∨ op.opc = 4) → t.mem = s.mem ∧ t.memPoison = s.memPoison ∧ t.draws = s.draws) ∧
        (∀ p, t.mem.read (64 * p) 64 = s.mem.read (64 * p) 64 ∨
          t.mem.read (64 * p) 64 = (s.memoryWrite (s.tile tile) op (memMask (s.tile tile) op)).1.mem.read (64 * p) 64) ∧
        (t.tile tile).ticket e = { (s.tile tile).ticket e with result := some (f.2, off) } ∧
        (t.tile tile).v = (s.tile tile).v ∧ (t.tile tile).m = (s.tile tile).m ∧ (t.tile tile).t = (s.tile tile).t ∧
        (op.opc = 0 → (t.tile tile).vBad.getLsbD (wA op.w) = true) ∧
        (op.opc = 2 → (t.tile tile).tBad.getLsbD (wA op.w % 8) = true)

/-- R165, R167 to R169, R187: a product ends with the verdict of its start, its T register then poisoned, or, where both
planes of the right operand read clean, with OK: the rows below ROWS change in their first N lanes alone, all other rows
and registers stay. Completion: on these premises Sys2Proof.Machine.exec answers a next state for xmmComplete. -/
def Obligations.CrosshatchComplete : Prop :=
  ∀ (tile : Fin 64) (e : Fin 512) (s : State) (op : EngOp),
    s.tileReady tile → opAt (s.tile tile).xhRun e = some op → op.cls = 3 → op.opc = 0 →
    ((s.tile tile).ticket e).held = true → ((s.tile tile).ticket e).result = none →
    (∀ k, ((s.tile tile).thread k).still) → (∀ p, (s.tile p).handOver = none) → s.faults.inject = none →
    let a := s.tile tile
    (∀ st d, op.verdict = some (st, d) → st ≠ 0 → d < 2 ^ 48 → ∃ t, Does (.xmmComplete tile e Ecc.clean 0) s t ∧
      s.onlyTile t tile ∧ (t.tile tile).ticket e = { a.ticket e with result := some (st, d) } ∧
      (t.tile tile).t = a.t ∧ (t.tile tile).v = a.v ∧ (t.tile tile).m = a.m ∧
      (t.tile tile).tBad.getLsbD (wTDST op.w) = true) ∧
    (op.verdict = none → (Fmt.ofCode (wFA op.w)).isSome → (Fmt.ofCode (wFB op.w)).isSome →
      (Fmt.ofCode (wFD op.w)).isSome → wRM op.w < 3 →
      (∀ w ∈ wordsOf op.sc.sb (xmmBytes op.w) ++ wordsOf op.sc.sc (xmmScaleBytes op.w), w ∉ s.memPoison) →
      ∃ t, Does (.xmmComplete tile e Ecc.clean 0) s t ∧ t = { s with regs := t.regs, tiles := t.tiles } ∧
        (∀ k, k ≠ tile.val → t.tile k = s.tile k) ∧ endsOk a (t.tile tile) e ∧
        (∀ k < 8, ∀ r < 16, (k ≠ wTDST op.w ∨ wXRows op.w ≤ r) → (t.tile tile).tRow k r = a.tRow k r) ∧
        (∀ r < wXRows op.w, ∀ i < 256, wN op.w ≤ i →
          laneOf ((t.tile tile).tRow (wTDST op.w) r) i = laneOf (a.tRow (wTDST op.w) r) i) ∧
        (t.tile tile).tBad.getLsbD (wTDST op.w) = false ∧
        (t.tile tile).v = a.v ∧ (t.tile tile).m = a.m ∧ (t.tile tile).threads = a.threads ∧
        (∀ r idx, regAddr r idx ≠ regAddr .tileXhFlags [tile.val] → t.rawReg r idx = s.rawReg r idx))

/-- R123: the watchdog of a core that has issued nothing for its period while a thread was ready sets WDOG_FIRED, raises a
fault record of class 3 and has the core isolated and reset. -/
def Sys2Proof.Claim.TileWatchdog : Prop :=
  ∀ (tile : Fin 64) (s : State), s.tileReady tile → s.inReset 0 tile = false →
    (∃ k, ((s.tile tile).thread k).st = .ready) → s.rd F.TILE_WDOG_PERIOD [tile] ≠ 0 →
    ∃ u, Does (.tileWatchdogFire tile) s (s.after u) ∧ u.rd F.TILE_CORE_STATUS_WDOG_FIRED [tile] = 1 ∧
      Due.isolate 0 tile true ∈ u.todo ∧ u.tiles = s.tiles ∧ u.mem = s.mem ∧
      u.rd F.FLT_DIE_CNT_COUNT [tileDie tile, 3] = satAdd 64 (s.rd F.FLT_DIE_CNT_COUNT [tileDie tile, 3]) 1

namespace Sys2Proof.Claim
/-- The registers that changed between two states are among those at these addresses. -/
def regsBut (s t : State) (as : List Nat) : Prop :=
  ∀ r idx, regAddr r idx ∉ as → t.rawReg r idx = s.rawReg r idx

/-- `t` differs from `s` in one tile and in registers, of those the ones at these addresses alone. -/
def onlyTileRegs (s t : State) (tile : Nat) (as : List Nat) : Prop :=
  t = { s with regs := t.regs, tiles := t.tiles } ∧ (∀ k, k ≠ tile → t.tile k = s.tile k) ∧ regsBut s t as

/-- The registers of image commands of a tile. -/
def imgRegs (tile : Nat) : List Nat := [regAddr .tileImgCmd [tile], regAddr .tileImgStatus [tile]]

/-- An image command has ended with a result (R126). -/
def imgSays (t : State) (tile slot result : Nat) : Prop :=
  t.rd F.TILE_IMG_STATUS_LAST_RESULT [tile] = result ∧ t.rd F.TILE_IMG_STATUS_LAST_SLOT [tile] = slot ∧
  t.rd F.TILE_IMG_STATUS_BUSY [tile] = 0

/-- The image commands and the slot state that each needs (R119 to R121). -/
def imgRows : List ((Fin 64 → Fin 4 → Instr) × SlotSt) :=
  [(Instr.imgLoad, .empty), (Instr.imgStart, .loaded), (Instr.imgStop, .running), (Instr.imgUnload, .loaded)]
end Sys2Proof.Claim

/-- R119, R124, R126, R607: GO with OP none does nothing but store TILE_IMG_CMD; a command on a slot that is not in its
state ends with SLOT_STATE and one on a busy tile is lost, both changing nothing else. -/
def Sys2Proof.Claim.ImageCommandsTurnedAway : Prop :=
  ∀ (tile : Fin 64) (slot : Fin 4) (s : State), s.ready → s.reaches .tileImgCmd [tile] →
    (s.rd F.TILE_IMG_STATUS_BUSY [tile] = 0 → ∃ t, Does (.imgCmdNone tile slot) s t ∧ s.onlyReg t .tileImgCmd [tile]) ∧
    (∀ row ∈ imgRows, s.rd F.TILE_IMG_STATUS_BUSY [tile] = 0 → ((s.tile tile).slot slot).st ≠ row.2 →
      ∃ t, Does (row.1 tile slot) s t ∧ s.onlyRegs t ∧ regsBut s t (imgRegs tile) ∧ imgSays t tile slot 0xA) ∧
    (∀ c ∈ [Instr.imgCmdNone tile slot, .imgLoad tile slot, .imgStart tile slot, .imgStop tile slot, .imgUnload tile slot],
      s.rd F.TILE_IMG_STATUS_BUSY [tile] = 1 →
      ∃ t, Does c s t ∧ s.onlyReg t .tileImgStatus [tile] ∧ t.rd F.TILE_IMG_STATUS_CMD_LOST [tile] = 1)

/-- R119: LOAD of an EMPTY slot from an aligned address begins: the slot is LOADING, the tile busy. -/
def Sys2Proof.Claim.ImageLoadBegins : Prop :=
  ∀ (tile : Fin 64) (slot : Fin 4) (s : State), s.ready → s.reaches .tileImgCmd [tile] →
    s.rd F.TILE_IMG_STATUS_BUSY [tile] = 0 → ((s.tile tile).slot slot).st = .empty →
    s.rd F.TILE_IMG_SRC_ADDR [tile] % 64 = 0 →
    ∃ t, Does (.imgLoad tile slot) s t ∧ onlyTileRegs s t tile (imgRegs tile) ∧
      t.rd F.TILE_IMG_STATUS_BUSY [tile] = 1 ∧ ((t.tile tile).slot slot).st = .loading ∧
      (t.tile tile).imgCmd = some (slot.val, s.rd F.TILE_IMG_SRC_ADDR [tile], 0) ∧
      (∀ k, k ≠ slot.val → (t.tile tile).slot k = (s.tile tile).slot k) ∧
      (t.tile tile).threads = (s.tile tile).threads ∧ (t.tile tile).istore = (s.tile tile).istore

/-- R120: START of a LOADED slot makes the lowest FREE threads READY at ENTRY, the i-th of them with S0 = i, S1 the tile,
S2 TILE_START_ARG, every other scalar register 0, and its own ticket range; a deterministic image needs GLB_MODE.DETERM.
(That they are the lowest FREE threads is log 7.) -/
def Sys2Proof.Claim.ImageStarts : Prop :=
  ∀ (tile : Fin 64) (slot : Fin 4) (s : State), s.ready → s.reaches .tileImgCmd [tile] →
    s.rd F.TILE_IMG_STATUS_BUSY [tile] = 0 →
    let a := s.tile tile
    let sl := a.slot slot
    let free := (List.range 128).filter (fun n => decide ((a.thread n).st = .free))
    sl.st = .loaded →
    ((sl.flags.testBit 0 = true ∧ s.on F.GLB_MODE_DETERM [] = false) →
      ∃ t, Does (.imgStart tile slot) s t ∧ s.onlyRegs t ∧ regsBut s t (imgRegs tile) ∧ imgSays t tile slot 0xC) ∧
    ((sl.flags.testBit 0 = true → s.on F.GLB_MODE_DETERM [] = true) → 0 < sl.threads → sl.threads ≤ free.length →
      ∃ t, Does (.imgStart tile slot) s t ∧ onlyTileRegs s t tile (imgRegs tile) ∧ imgSays t tile slot 0 ∧
        (t.tile tile).slot slot = { sl with st := .running } ∧
        (∀ i < sl.threads, ∃ n b, free[i]? = some n ∧ (t.tile tile).thread n = b ∧ b.st = .ready ∧ b.pc = sl.entry ∧
          b.slot = slot ∧ b.idx = i ∧ b.sReg 0 = i ∧ b.sReg 1 = tile ∧ b.sReg 2 = s.rd F.TILE_START_ARG_ARG [tile] ∧
          (∀ k, 3 ≤ k → b.sReg k = 0) ∧ b.poison = 0 ∧ b.pend = 0 ∧ b.tkBase = nth 0 sl.ranges i ∧
          b.tkCount = sl.perThread) ∧
        (∀ n, (a.thread n).still → (a.thread n).st ≠ .free → (t.tile tile).thread n = a.thread n) ∧
        (t.tile tile).body = a.body)

/-- R121: STOP tells every thread of a RUNNING slot to end: one with no outstanding ticket is FREE at once, one with some
drains; the slot is LOADED when no thread of it is left, else STOPPING. -/
def Sys2Proof.Claim.ImageStops : Prop :=
  ∀ (tile : Fin 64) (slot : Fin 4) (s : State), s.ready → s.reaches .tileImgCmd [tile] →
    s.rd F.TILE_IMG_STATUS_BUSY [tile] = 0 →
    let a := s.tile tile
    (a.slot slot).st = .running → a.threads.sorted →
    ∃ t, Does (.imgStop tile slot) s t ∧ onlyTileRegs s t tile (imgRegs tile) ∧ imgSays t tile slot 0 ∧
      (t.tile tile).slot slot =
        { a.slot slot with st := if ((t.tile tile).threadsOf slot).isEmpty then .loaded else .stopping } ∧
      (∀ n, ((a.thread n).st = .ready ∨ (a.thread n).st = .blocked) → (a.thread n).slot = slot →
        (∀ e ∈ a.heldBy n, (a.ticket e).result.isSome) → (t.tile tile).thread n = Thread.fresh) ∧
      (∀ n, ((a.thread n).st = .ready ∨ (a.thread n).st = .blocked) → (a.thread n).slot = slot →
        (∃ e ∈ a.heldBy n, (a.ticket e).result = none) →
        (t.tile tile).thread n = { a.thread n with st := .draining, waiting := .nothing, toFree := true }) ∧
      (∀ n, (a.thread n).still → (a.thread n).slot ≠ slot → (t.tile tile).thread n = a.thread n) ∧
      (t.tile tile).body = a.body

/-- R121: UNLOAD of a LOADED slot makes it EMPTY and zeroes the registers of its grant, no others. -/
def Sys2Proof.Claim.ImageUnloads : Prop :=
  ∀ (tile : Fin 64) (slot : Fin 4) (s : State), s.ready → s.reaches .tileImgCmd [tile] →
    s.rd F.TILE_IMG_STATUS_BUSY [tile] = 0 →
    let a := s.tile tile
    let sl := a.slot slot
    sl.st = .loaded →
    ∃ t, Does (.imgUnload tile slot) s t ∧ onlyTileRegs s t tile (imgRegs tile) ∧ imgSays t tile slot 0 ∧
      (t.tile tile).slot slot = ImageSlot.fresh ∧
      (∀ k, k ≠ slot.val → (t.tile tile).slot k = a.slot k) ∧
      (∀ k, (t.tile tile).vReg k = if sl.vGrant.testBit k then 0 else a.vReg k) ∧
      (∀ k, (t.tile tile).mReg k = if sl.mGrant.testBit k then 0 else a.mReg k) ∧
      (∀ k, ∀ r < 16, (t.tile tile).tRow k r = if sl.tGrant.testBit k then 0 else a.tRow k r) ∧
      (t.tile tile).threads = a.threads ∧ (t.tile tile).tickets = a.tickets

/-- R117 to R119, R576: the read of an image ends. An image whose header is good, whose signature no key verifies, ends
with SIGNATURE; one that passes every check is placed: its code, its data and its slot, the log extended; one that fails a
check changes nothing but the slot back to EMPTY. The image lies in HBM or DDR5 and every word of it reads without error. -/
def Sys2Proof.Claim.ImageLoadDone : Prop :=
  ∀ (tile : Fin 64) (s : State) (k src x : Nat), s.ready → (s.tile tile).imgCmd = some (k, src, x) → k < 4 →
    s.faults.inject = none → s.mem.wf = true →
    let hb := s.mem.read src 128
    let len := 128 + 16 * leAt hb 8 4 + leAt hb 0xC 4 + 96
    let img := s.mem.read src len
    (s.rangeWin src 128 = some .hbm ∨ s.rangeWin src 128 = some .ddr) →
    (s.rangeWin src len = some .hbm ∨ s.rangeWin src len = some .ddr) →
    (∀ w ∈ wordsOf src len, w ∉ s.memPoison) → headerOk hb = true →
    (∀ e, s.imgPlace tile img = .inl e → e < 16 → ∃ t, Does (.imgLoadDone tile Ecc.clean) s t ∧
      onlyTileRegs s t tile (imgRegs tile) ∧ imgSays t tile k e ∧ (t.tile tile).slot k = ImageSlot.fresh ∧
      (t.tile tile).istore = (s.tile tile).istore ∧ (t.tile tile).imgCmd = none) ∧
    ((∀ key ∈ s.programKeys, sigOk key (img.take (img.length - 96)) (img.drop (img.length - 96)) = false) →
      ∃ t, Does (.imgLoadDone tile Ecc.clean) s t ∧ imgSays t tile k 2 ∧ t.mem = s.mem) ∧
    (∀ sl, s.imgPlace tile img = .inr sl → ∃ t, Does (.imgLoadDone tile Ecc.clean) s t ∧ imgSays t tile k 0 ∧
      regsBut s t (imgRegs tile) ∧ (t.tile tile).slot k = sl ∧ sl.st = .loaded ∧ (t.tile tile).imgCmd = none ∧
      (∀ i < leAt hb 8 4, Tbl.look 0 (t.tile tile).istore (sl.base + i) = BitVec.ofNat 128 (leAt img (0x80 + 16 * i) 16)) ∧
      t.mem.read (plateBase + tile * plateSize + leAt hb 0x10 4) (leAt hb 0xC 4) =
        (img.drop (0x80 + 16 * leAt hb 8 4)).take (leAt hb 0xC 4) ∧
      keepsOutside s t (plateBase + tile * plateSize + leAt hb 0x10 4) (leAt hb 0xC 4) ∧
      t.sec.imageLoads = s.sec.imageLoads + 1 ∧ (t.tile tile).threads = (s.tile tile).threads)

namespace Sys2Proof.Claim
/-- The registers of communicator commands. -/
def commRegs : List Nat := [regAddr .glbCommCmd [], regAddr .glbCommStatus []]

/-- The communicator commands (R192, R235). -/
def commRows (id : BitVec 20) : List Instr :=
  [.commCmdNone id, .commCreate id, .commArm id, .commDestroy id, .commReset id, .commQuery id]

/-- A command of GLB_COMM_CMD has ended with a result, showing the communicator's state and next number (R237). -/
def commSays (t : State) (result st next : Nat) : Prop :=
  t.rd F.GLB_COMM_STATUS_LAST_RESULT [] = result ∧ t.rd F.GLB_COMM_STATUS_BUSY [] = 0 ∧
  t.rd F.GLB_COMM_STATUS_STATE [] = st ∧ t.rd F.GLB_COMM_STATUS_NEXT_SEQ [] = next

/-- GLB_COMM_CMD can be reached and no command is in progress. -/
def commIdle (s : State) : Prop := s.ready ∧ s.reaches .glbCommCmd [] ∧ s.rd F.GLB_COMM_STATUS_BUSY [] = 0

/-- A communicator held under its own ID, its fields in range. -/
def holdsComm (s : State) (id : Nat) (c : Comm) : Prop :=
  s.comm id = some c ∧ c.desc.id = id ∧ c.st < 4 ∧ c.next < 2 ^ 32

/-- `t` differs from `s` in one communicator, the plate quota and registers, of those the ones at these addresses alone. -/
def onlyComm (s t : State) (id : Nat) (as : List Nat) : Prop :=
  t = { s with regs := t.regs, cs := t.cs, plateQuota := t.plateQuota } ∧ regsBut s t as ∧
  t.cs = { s.cs with comms := t.cs.comms } ∧ ∀ k, k ≠ id → t.comm k = s.comm k
end Sys2Proof.Claim

/-- R192, R235, R237, R607: commands on GLB_COMM_CMD that do nothing but report: NONE; any command while BUSY, which is
lost; CREATE of an ID in use; ARM, DESTROY, RESET of an EMPTY one; ARM of one that is not RESERVED and RESET of one that
is not FAULTED; DESTROY and RESET while operations are outstanding; and QUERY, which shows state and next sequence number. -/
def Sys2Proof.Claim.CommunicatorReports : Prop :=
  ∀ (id : BitVec 20) (s : State),
    (s.ready → s.reaches .glbCommCmd [] → s.rd F.GLB_COMM_STATUS_BUSY [] = 1 → ∀ c ∈ commRows id,
      ∃ t, Does c s t ∧ s.onlyReg t .glbCommStatus [] ∧ t.rd F.GLB_COMM_STATUS_CMD_LOST [] = 1) ∧
    (commIdle s →
      let gives (i : Instr) (result st next : Nat) : Prop :=
        ∃ t, Does i s t ∧ s.onlyRegs t ∧ regsBut s t commRegs ∧ commSays t result st next
      (∃ t, Does (.commCmdNone id) s t ∧ s.onlyReg t .glbCommCmd []) ∧
      (s.comm id.toNat = none → gives (.commArm id) 3 0 0 ∧ gives (.commDestroy id) 3 0 0 ∧ gives (.commReset id) 3 0 0 ∧
        gives (.commQuery id) 0 0 0) ∧
      (∀ c, holdsComm s id.toNat c →
        gives (.commCreate id) 2 c.st c.next ∧ gives (.commQuery id) 0 c.st c.next ∧
        (c.st ≠ 1 → gives (.commArm id) 0xC c.st c.next) ∧ (c.st ≠ 3 → gives (.commReset id) 0xC c.st c.next) ∧
        (c.ops ≠ [] → gives (.commDestroy id) 9 c.st c.next) ∧
        (c.st = 3 → c.ops ≠ [] → gives (.commReset id) 9 c.st c.next)))

/-- R192: CREATE of an EMPTY ID begins to read the descriptor; DESTROY gives back the quota and leaves the ID EMPTY; RESET
makes a FAULTED communicator ACTIVE with the next number of GLB_COMM_SRC, its members' credits at WINDOW and nothing
staged. -/
def Sys2Proof.Claim.CommunicatorCommands : Prop :=
  ∀ (id : BitVec 20) (s : State), commIdle s →
    (s.comm id.toNat = none → ∃ t, Does (.commCreate id) s t ∧ t = { s with regs := t.regs, cs := t.cs } ∧
      t.cs = { s.cs with creating := some id.toNat } ∧ t.rd F.GLB_COMM_STATUS_BUSY [] = 1 ∧ regsBut s t commRegs) ∧
    (∀ c, holdsComm s id.toNat c → c.ops = [] → ∃ t, Does (.commDestroy id) s t ∧ onlyComm s t id.toNat commRegs ∧
      t.comm id.toNat = none ∧ t.plateQuota = s.plateQuota.filter (fun q => q.1 != id.toNat) ∧ commSays t 0 0 0) ∧
    (∀ c, holdsComm s id.toNat c → c.ops = [] → c.st = 3 →
      ∃ t c', Does (.commReset id) s t ∧ onlyComm s t id.toNat commRegs ∧ t.plateQuota = s.plateQuota ∧
        t.comm id.toNat = some c' ∧ c'.desc = c.desc ∧ c'.st = 2 ∧ c'.ops = [] ∧ c'.early = [] ∧ c'.outs = [] ∧
        c'.next = s.rd F.GLB_COMM_SRC_ARG [] % 2 ^ 32 ∧ c'.determ = c.determ ∧
        (∀ i m, c.desc.members[i]? = some m → m.ep ≠ 0xFF → Tbl.look 0 c'.memCred i = c.desc.window) ∧
        (∀ l ∈ c.rings, ∀ k < 4, Tbl.look 0 c'.cred (8 * l + k) = c.desc.window) ∧
        commSays t 0 2 (s.rd F.GLB_COMM_SRC_ARG [] % 2 ^ 32))

/-- R192, R198, R204, R237: CREATE of a descriptor that reads without error ends. A misaligned or unpopulated source and a
descriptor that breaks a rule end with BAD_DESCRIPTOR, and an ID the device has no room for with the results of the checks
that follow; one that passes is RESERVED and its quota is taken. -/
def Sys2Proof.Claim.CommunicatorCreated : Prop :=
  ∀ (s : State) (id : Nat), s.ready → s.cs.creating = some id → s.comm id = none → s.faults.inject = none →
    let src := s.rd F.GLB_COMM_SRC_ARG []
    let bs := s.mem.read src 512
    let d := parseDesc bs
    let fits : Prop := s.cs.comms.length < 4096 ∧
      (d.express = true → (s.cs.comms.filter (fun (e : Nat × Comm) => e.2.desc.express)).length < 8)
    let ends (result : Nat) : Prop := ∃ t, Does (.commCreateDone Ecc.clean) s t ∧
      t = { s with regs := t.regs, cs := { s.cs with creating := none } } ∧ regsBut s t commRegs ∧ commSays t result 0 0
    ((src % 64 ≠ 0 ∨ s.inDram src 512 = false) → ends 1) ∧
    (src % 64 = 0 → s.inDram src 512 = true → (∀ w ∈ wordsOf src 512, w ∉ s.memPoison) →
      (s.descOk id bs = false → ends 1) ∧
      (s.descOk id bs = true →
        let level := (s.rd F.GLB_NUMLEVEL_SUPPORTED []).testBit d.level
        (level = false → ends 6) ∧
        (level = true → ¬fits → ends 5) ∧
        (level = true → fits → s.rd F.GLB_STAGE_POOL_PLATE_KIB [] * 64 < s.plateKib + d.plate → ends 4) ∧
        (level = true → fits → s.plateKib + d.plate ≤ s.rd F.GLB_STAGE_POOL_PLATE_KIB [] * 64 →
          s.hbmQuota + (d.quota - d.plate) ≤ s.rd F.GLB_STAGE_POOL_HBM_MIB [] * 1024 →
          ∃ t c, Does (.commCreateDone Ecc.clean) s t ∧ regsBut s t commRegs ∧
            t = { s with regs := t.regs, cs := t.cs, plateQuota := t.plateQuota } ∧ t.plateKib = s.plateKib + d.plate ∧
            t.plateQuota.filter (fun q => q.1 != id) = s.plateQuota.filter (fun q => q.1 != id) ∧
            (∀ k, k ≠ id → t.comm k = s.comm k) ∧ t.cs.creating = none ∧
            t.comm id = some c ∧ c.desc = d ∧ c.st = 1 ∧ c.ops = [] ∧ c.arming = false ∧ commSays t 0 1 0)))

/-- R192, R194, R195, R200: ARM. A communicator with no other switch becomes ACTIVE at once, its next number 0, its
members' credits at WINDOW; with others it is arming, BUSY, and its digest is on its way to each of them. DETERM is that
of GLB_MODE. -/
def Sys2Proof.Claim.CommunicatorArms : Prop :=
  ∀ (id : BitVec 20) (s : State) (c : Comm), commIdle s → holdsComm s id.toNat c → c.st = 1 →
    (c.peers = [] → ∃ t c', Does (.commArm id) s t ∧ onlyComm s t id.toNat commRegs ∧ t.plateQuota = s.plateQuota ∧
      t.comm id.toNat = some c' ∧ c'.st = 2 ∧ c'.next = 0 ∧ c'.arming = false ∧ c'.desc = c.desc ∧
      c'.determ = s.on F.GLB_MODE_DETERM [] ∧
      (∀ i m, c.desc.members[i]? = some m → m.ep ≠ 0xFF → Tbl.look 0 c'.memCred i = c.desc.window) ∧
      commSays t 0 2 0) ∧
    (c.peers ≠ [] → c.digests = [] → ∃ u c', Does (.commArm id) s (s.after u) ∧ u.comm id.toNat = some c' ∧
      c' = { c with determ := s.on F.GLB_MODE_DETERM [], arming := true } ∧ u.rd F.GLB_COMM_STATUS_BUSY [] = 1 ∧
      u.todo.length = c.peers.length ∧
      (∀ q ∈ c.peers, ∃ p, Due.inject 0 p none ∈ u.todo ∧ p.kind = kDIGEST ∧ p.dst = q.2 * 64 + 39 ∧
        p.src = s.switchId * 64 + 39 ∧ p.comm = id.toNat ∧ p.payload = c'.digest (q.1 / 16)) ∧
      u.mem = s.mem ∧ u.tiles = s.tiles)

/-- R194, R298: while ARM waits, a digest of a group switch is kept; one that differs ends ARM with its own result, the
last that agrees makes the communicator ACTIVE; silence for GLB_COMM_TIMEOUT ends it with ARM_TIMEOUT; and the digest is
sent again to the switches that have not answered. An ACTIVE communicator answers a RESERVED one's digest (that it does is
log 24). -/
def Sys2Proof.Claim.CommunicatorAgrees : Prop :=
  ∀ (s : State) (c : Comm) (id : BitVec 20), s.ready → holdsComm s id.toNat c →
    (∀ bytes p q, s.hears kDIGEST bytes p → p.comm = id.toNat →
      c.peers.find? (fun q => q.2 == p.src / 64 && q.1 / 16 == digestLevel p.payload) = some q →
      let c1 : Comm := { c with digests := Tbl.put q.1 p.payload c.digests }
      (c.st = 1 → c.arming = false → ∃ t, Does (.digestReceive bytes) s t ∧ onlyComm s t id.toNat [] ∧
        t.comm id.toNat = some c1) ∧
      (c.st = 1 → c.arming = true → digestBody p.payload ≠ digestBody (c.digest (q.1 / 16)) →
        ∃ t c', Does (.digestReceive bytes) s t ∧ onlyComm s t id.toNat commRegs ∧ t.comm id.toNat = some c' ∧
          c'.st = 1 ∧ c'.arming = false ∧ commSays t 7 1 c.next) ∧
      (c.st = 1 → c.arming = true →
        (∀ q ∈ c.peers, ∃ b, Tbl.find q.1 c1.digests = some b ∧ digestBody b = digestBody (c.digest (q.1 / 16)) ∧
          digestStands b = true) →
        ∃ t c', Does (.digestReceive bytes) s t ∧ onlyComm s t id.toNat commRegs ∧ t.comm id.toNat = some c' ∧
          c'.st = 2 ∧ c'.next = 0 ∧ c'.arming = false ∧ commSays t 0 2 0) ∧
      (c.st = 2 → leAt p.payload (p.payload.length - 1) 1 = 1 → ∃ u p', Does (.digestReceive bytes) s (s.after u) ∧
        u.todo = [Due.inject 0 p' none] ∧ p'.kind = kDIGEST ∧ p'.dst = q.2 * 64 + 39 ∧ p'.payload = c.digest (q.1 / 16) ∧
        u.cs = s.cs)) ∧
    (c.arming = true → s.rd F.GLB_COMM_TIMEOUT_LIMIT [] ≠ 0 → ∃ t c', Does (.armTimeout id) s t ∧
      onlyComm s t id.toNat commRegs ∧ t.comm id.toNat = some c' ∧ c'.st = c.st ∧ c'.arming = false ∧
      commSays t 8 c.st c.next) ∧
    (c.arming = true → ∃ u, Does (.digestRepeat id) s (s.after u) ∧ u = { s with todo := u.todo } ∧
      u.todo.length = (c.peers.filter (fun q => !(Tbl.find q.1 c.digests).any digestStands)).length ∧
      (∀ q ∈ c.peers, (Tbl.find q.1 c.digests).any digestStands = false → ∃ p, Due.inject 0 p none ∈ u.todo ∧ p.kind = kDIGEST ∧
        p.dst = q.2 * 64 + 39 ∧ p.payload = c.digest (q.1 / 16)))

namespace Sys2Proof.Claim
/-- Messages of members and of group switches, with the kind of each (R289). -/
def messageRows (bytes : List Byte) (agree : Bool) : List (Instr × Nat × Bool) :=
  [(.contribReceive bytes, kCONTRIB, true), (.tokenReceive bytes, kTOKEN, true),
   (.partialReceive bytes agree, kPARTIAL, agree), (.resultReceive bytes agree, kRESULT, agree)]

/-- A kind that members send against credits of their own (R200, R276). -/
def fromMember (k : Nat) : Prop := k = kCONTRIB ∨ k = kTOKEN

/-- A collective of a communicator that still runs and is not held by a pause. -/
def running (s : State) (id seq : Nat) (c : Comm) (x : Coll) : Prop :=
  s.ready ∧ holdsComm s id c ∧ c.coll seq = some x ∧ x.live = true ∧ c.paused = false

/-- The staged contribution of a member to a chunk. -/
def contribOf (x : Coll) (m chunk : Nat) : Option Staged :=
  x.staged.find? (fun st => st.kind == kCONTRIB && st.who == m && st.chunk == chunk)

/-- Ranks and contributions are as intake keeps them: no rank twice, no member's chunk twice, none of a message restored. -/
def intakeOk (c : Comm) (x : Coll) (chunk : Nat) : Prop :=
  0 < c.desc.members.length ∧ c.desc.members.length ≤ 16 ∧ (c.desc.members.map (·.rank)).Nodup ∧
  (∀ st ∈ x.staged, st.src ≠ fromRecord) ∧
  (((x.staged.filter (fun st => st.kind == kCONTRIB && st.chunk == chunk)).map (·.who)).Nodup) ∧
  (∀ st ∈ x.staged, st.kind = kCONTRIB → st.who < c.desc.members.length)
end Sys2Proof.Claim

/-- R199 to R201, R206, R209, R305: a message of one packet that names a number of the window not yet launched is staged
for its launch, a member's against one of its credits; without a credit it is discarded and counted. -/
def Sys2Proof.Claim.MessagesAheadOfLaunch : Prop :=
  ∀ (bytes : List Byte) (agree : Bool) (s : State) (id : Nat) (c : Comm) (p : Pkt) (who : Nat), s.ready →
    holdsComm s id c → c.st = 2 → c.pause = none → p.comm = id → p.pktIdx = 0 → p.msgLast = 0 →
    c.coll p.opseq = none → (p.opseq + 2 ^ 32 - c.next) % 2 ^ 32 < 8 → s.senderOf c p = some who →
    ∀ row ∈ messageRows bytes agree, s.hears row.2.1 bytes p →
      ((fromMember row.2.1 → 0 < Tbl.look 0 c.memCred who) →
        ∃ (u : State) (c' : Comm) (st : Staged), Does row.1 s (s.after u) ∧ u.comm id = some c' ∧ c'.early = c.early ++ [st] ∧ st.seq = p.opseq ∧
          st.chunk = p.chunk ∧ st.kind = row.2.1 ∧ st.who = who ∧ st.data = p.payload ∧ st.bad = p.poison ∧
          st.agree = (row.2.2 && (row.2.1 == kCONTRIB || row.2.1 == kTOKEN || bitOf p.arg 3 == c.desc.express)) ∧
          c'.uncredited = c.uncredited ∧
          (fromMember row.2.1 → Tbl.look 0 c'.memCred who = Tbl.look 0 c.memCred who - 1) ∧
          (¬fromMember row.2.1 → c'.memCred = c.memCred) ∧
          c'.ops = c.ops ∧ c'.outs = c.outs ∧ u.mem = s.mem ∧ u.tiles = s.tiles ∧ u.regs = s.regs) ∧
      (fromMember row.2.1 → Tbl.look 0 c.memCred who = 0 →
        ∃ (u : State) (c' : Comm), Does row.1 s (s.after u) ∧ u.comm id = some c' ∧ c'.early = c.early ∧
          c'.uncredited = c.uncredited + 1 ∧ c'.ops = c.ops ∧ u.mem = s.mem ∧ u.tiles = s.tiles)

/-- R206: CREDIT adds its count to the credits that this switch holds for a ring stream, never beyond two windows (up and
down path together; which path is filled first is log 25). Nothing waits for a credit. -/
def Sys2Proof.Claim.CreditsArrive : Prop :=
  ∀ (bytes : List Byte) (s : State) (id : Nat) (c : Comm) (p : Pkt), s.ready → holdsComm s id c → c.st = 2 → c.outs = [] →
    p.comm = id → s.hears kCREDIT bytes p →
    let level := p.arg / 2 ^ 16 % 4
    let dir := p.arg / 2 ^ 18 % 2
    let held (c : Comm) : Nat := Tbl.look 0 c.cred (credKey level dir 0) + Tbl.look 0 c.cred (credKey level dir 1)
    level ≠ 0 → (∀ path < 2, Tbl.look 0 c.cred (credKey level dir path) ≤ c.desc.window) →
    ∃ (u : State) (c' : Comm), Does (.creditReceive bytes) s (s.after u) ∧ u.comm id = some c' ∧
      held c' = min (2 * c.desc.window) (held c + p.arg % 2 ^ 16) ∧
      (∀ k, k ≠ credKey level dir 0 → k ≠ credKey level dir 1 → Tbl.look 0 c'.cred k = Tbl.look 0 c.cred k) ∧
      c' = { c with cred := c'.cred } ∧ u.mem = s.mem ∧ u.tiles = s.tiles ∧ u.regs = s.regs

/-- R212, R215 to R217, R200: the contributions of all members to a chunk of a reducing operation are combined: they leave
staging, each member gets its credit back, and the chunk has its value of the switch level, bad when an input was. The sum
of 32-bit integers is taken modulo 2^32. -/
def Sys2Proof.Claim.ChunkCombined : Prop :=
  ∀ (id : BitVec 20) (seq chunk : BitVec 32) (s : State) (c : Comm) (x : Coll) (ds : Nat → Staged),
    let g := chunk.toNat
    running s id.toNat seq.toNat c x → g < x.gens → x.op < 0x10 → redOpc x.op = true →
    (∀ t ∈ Run.stepTiles ⟨s, c, x⟩ g, s.hatchFree t = true) → s.faults.inject = none → x.parts.find? (fun p => p.gen == g) = none → g ∉ x.upDone →
    g ∉ x.seen → intakeOk c x g →
    (∀ m < c.desc.members.length, (c.mem m).ep ≠ 0xFF ∧ contribOf x m g = some (ds m)) →
    ∃ (u : State) (c' : Comm) (x' : Coll) (p : Part), Does (.chunkCombine id seq chunk Ecc.clean 0) s (s.after (u.advanceComm id.toNat)) ∧
      u.comm id.toNat = some c' ∧ c'.coll seq.toNat = some x' ∧ x'.parts = x.parts ++ [p] ∧ p.gen = g ∧ p.level = 0 ∧
      p.bad = (List.range c.desc.members.length).any (fun m => (ds m).bad) ∧
      x'.staged = x.staged.filter (fun st => !(st.kind == kCONTRIB && st.chunk == g)) ∧
      (∀ m < c.desc.members.length, ∃ o ∈ c'.outs, o.base.kind = kCREDIT ∧ o.base.dst = s.memAddr c m ∧ o.base.arg = 1) ∧
      ((∀ m < c.desc.members.length, (ds m).bad = false) → p.vals.length = x.size c g) ∧
      (x.fmt = .i32 → x.red = 0 →
        (∀ m < c.desc.members.length, (ds m).bad = false ∧ (ds m).data.length = 4 * x.size c g) →
        ∀ i < x.size c g, p.vals[i]? = some (.int (sextOf
          (((List.range c.desc.members.length).map (fun m => leAt (ds m).data (4 * i) 4)).foldl (· + ·) 0) 32))) ∧
      u.mem = s.mem ∧ u.tiles = s.tiles

/-- R213, R216, R218, R232: a chunk that has passed every ring level is finished at its top switch: it is in no part any
more, has passed down, and every accelerator member of an all-reduce gets a RESULT of it; of a bad one no packet leaves,
and it counts as an error of the operation (R518). -/
def Sys2Proof.Claim.ChunkFinished : Prop :=
  ∀ (id : BitVec 20) (seq chunk : BitVec 32) (s : State) (c : Comm) (x : Coll) (p : Part),
    let g := chunk.toNat
    running s id.toNat seq.toNat c x → g < x.gens → x.op = 0 →
    (∀ t ∈ Run.stepTiles ⟨s, c, x⟩ g, s.hatchFree t = true) → s.faults.inject = none → x.parts.find? (fun p => p.gen == g) = some p → c.rings = [] →
    g ∉ x.seen → (∀ i, 16 * g + i ∉ x.acked) → c.desc.members.length ≤ 16 → s.machineUp (tileDie x.home) = true →
    ∃ (u : State) (c' : Comm) (x' : Coll), Does (.chunkCombine id seq chunk Ecc.clean 0) s (s.after (u.advanceComm id.toNat)) ∧
      u.comm id.toNat = some c' ∧ c'.coll seq.toNat = some x' ∧ x'.seen = x.seen ++ [g] ∧
      (∀ q ∈ x'.parts, q.gen ≠ g) ∧ x'.staged = x.staged ∧
      (p.bad = false → x'.badGens = x.badGens ∧ ∀ m < c.desc.members.length, (c.mem m).ep ≠ 0xFF →
        ∃ o ∈ c'.outs, o.base.kind = kRESULT ∧ o.base.dst = s.memAddr c m ∧ o.base.chunk = g ∧ o.base.opseq = x.seq ∧
          o.base.poison = false) ∧
      (p.bad = true → c'.outs = c.outs ∧ (0 < c.desc.members.length → g ∈ x'.badGens)) ∧
      ((∀ m < c.desc.members.length, (c.mem m).ep ≠ 0xFF) → u.mem = s.mem) ∧ u.tiles = s.tiles

/-- R213, R215: on a ring without determinism the chunk starts behind its owner in the direction of its number: the switch
after the owner sends its partial on, to the next in that direction. -/
def Sys2Proof.Claim.PartialLeaves : Prop :=
  ∀ (id : BitVec 20) (seq chunk : BitVec 32) (s : State) (c : Comm) (x : Coll) (p : Part) (l : Nat) (more : List Nat),
    let g := chunk.toNat
    running s id.toNat seq.toNat c x → g < x.gens → redOpc x.op = true → x.op < 0x10 →
    (∀ t ∈ Run.stepTiles ⟨s, c, x⟩ g, s.hatchFree t = true) → s.faults.inject = none → x.parts.find? (fun p => p.gen == g) = some p →
    c.rings.filter (fun k => decide (p.level < k)) = l :: more → c.desc.express = false → c.determ = false →
    ringNext (c.lv l).size (1 - g % 2) (c.lv l).pos = c.owner l g →
    ∃ (u : State) (c' : Comm) (x' : Coll) (o : Outgo), Does (.chunkCombine id seq chunk Ecc.clean 0) s (s.after (u.advanceComm id.toNat)) ∧
      u.comm id.toNat = some c' ∧ c'.coll seq.toNat = some x' ∧ c'.outs = c.outs ++ [o] ∧ o.base.kind = kPARTIAL ∧
      o.base.dst = ringAddr (nth 0 (c.lv l).ids (ringNext (c.lv l).size (g % 2) (c.lv l).pos)) x.home ∧
      o.base.chunk = g ∧ o.base.opseq = x.seq ∧ o.level = l ∧ o.dir = g % 2 ∧ o.base.poison = p.bad ∧
      (p.bad = true → o.data = []) ∧ (∀ q ∈ x'.parts, q.gen ≠ g) ∧ x'.upDone = x.upDone ++ [g] ∧
      u.mem = s.mem ∧ u.tiles = s.tiles

/-- R229, R230: an operation that has made no progress for GLB_COMM_TIMEOUT.LIMIT ends with TIMEOUT; its communicator is
FAULTED and the operations after it are cancelled. -/
def Sys2Proof.Claim.CollectiveTimeout : Prop :=
  ∀ (id : BitVec 20) (seq : BitVec 32) (s : State) (c : Comm) (x : Coll), s.ready → holdsComm s id.toNat c →
    c.coll seq.toNat = some x → x.stage = 0 → x.fin = none → x.op ≠ 0x11 → s.rd F.GLB_COMM_TIMEOUT_LIMIT [] ≠ 0 →
    ∃ (u : State) (c' : Comm) (x' : Coll), Does (.collectiveTimeout id seq) s (s.after (u.advanceComm id.toNat)) ∧ u.comm id.toNat = some c' ∧
      c'.coll seq.toNat = some x' ∧ x'.fin = some 0x05 ∧ c'.st = 3 ∧
      (∀ y ∈ c.ops, y.seq ≠ seq.toNat → y.fin = none → y.stage = 0 → (y.seq + 2 ^ 32 - seq.toNat) % 2 ^ 32 < 2 ^ 31 →
        { y with fin := some 0x01 } ∈ c'.ops) ∧
      (∀ y ∈ c.ops, y.seq ≠ seq.toNat → 2 ^ 31 ≤ (y.seq + 2 ^ 32 - seq.toNat) % 2 ^ 32 → y ∈ c'.ops) ∧
      u.mem = s.mem ∧ u.tiles = s.tiles ∧ u.regs = s.regs

/-- R225: an AGMM piece that has landed whole is multiplied into every member's product whose crosshatch unit is free,
once: its rank is used for each, its chunks are let go, and each member has a product; in deterministic mode only the
piece next in rank order is taken. No residue check finds a mismatch. -/
def Sys2Proof.Claim.AgmmPieceMultiplied : Prop :=
  ∀ (id : BitVec 20) (seq : BitVec 32) (rank : Fin 65536) (s : State) (c : Comm) (x : Coll),
    running s id.toNat seq.toNat c x → x.op = 6 → rank.val < c.desc.nranks → c.desc.members.length ≤ 16 →
    s.faults.inject = none → s.memPoison = [] →
    (∀ i < c.desc.members.length, usedKey rank i ∉ x.used ∧ s.unitFree (x.matTile i) = true ∧
      (c.determ = true → rank.val = (x.usedBy i).length)) →
    (∀ i < x.per c, i + rank * x.per c ∈ x.seen) →
    ∃ (u : State) (c' : Comm) (x' : Coll),
      Does (.agmmPieceMultiply id seq rank ⟨Ecc.clean, 0⟩) s (s.after (u.advanceComm id.toNat)) ∧
      u.comm id.toNat = some c' ∧ c'.coll seq.toNat = some x' ∧
      x'.used = x.used ++ (List.range c.desc.members.length).map (usedKey rank) ∧
      x'.land = x.land.filter (fun e => !(decide (rank * x.per c ≤ e.1) && decide (e.1 < (rank + 1) * x.per c))) ∧
      (∀ i < c.desc.members.length, (Tbl.find i x'.y).isSome) ∧ x'.seen = x.seen ∧ u.tiles = s.tiles ∧
      ((∀ i < c.desc.members.length, (x.usedBy i).length + 1 ≠ c.desc.nranks) → u.mem = s.mem ∧ c'.outs = c.outs)

/-- R253, R257: a gating group starts once its tokens are there, its DISP holds its slot, its tile's crosshatch unit is
free, and every selection of the communicator's previous DISP is decided. -/
def Sys2Proof.Claim.GatingGroupStarts : Prop :=
  ∀ (id : BitVec 20) (seq group : BitVec 32) (s : State) (c : Comm) (x : Coll),
    running s id.toNat seq.toNat c x → x.op = 0x10 →
    let d := x.dispSt
    let g := group.toNat
    16 * g < x.gens → d.holds = true → s.unitFree (g % 64) = true → g ∉ d.started →
    Run.previousDecided ⟨s, c, x⟩ = true →
    (∀ i, 16 * g ≤ i → i < 16 * g + 16 → i < x.gens →
      (c.mem (c.tokenMem i)).ep = 0xFF ∨ (Tbl.find i d.tokens).isSome) →
    ∃ (u : State) (c' : Comm) (x' : Coll), Does (.gatingGroupStart id seq group) s (s.after (u.advanceComm id.toNat)) ∧ u.comm id.toNat = some c' ∧
      c'.coll seq.toNat = some x' ∧ x' = { x with disp := some { d with started := d.started ++ [g] } } ∧
      u.mem = s.mem ∧ u.tiles = s.tiles ∧ u.regs = s.regs

/-- R242, R258, R264: a gating group of one token that its source declared absent is decided: its entry is ABSENT, nothing
is placed, no copy leaves, and the source's account counts one absent token. No other token waits for a decision. -/
def Sys2Proof.Claim.GatingGroupDone : Prop :=
  ∀ (id : BitVec 20) (seq group : BitVec 32) (s : State) (c : Comm) (x : Coll),
    running s id.toNat seq.toNat c x → x.op = 0x10 → s.faults.inject = none → s.memPoison = [] →
    s.unitFree (group.toNat % 64) = true → s.hatchFree (group.toNat % 64) = true →
    let d := x.dispSt
    let i := 16 * group.toNat
    x.gens = i + 1 → group.toNat ∈ d.started → d.gated = [] → Tbl.find i d.route = none → d.route.length = i →
    (c.mem (c.tokenMem i)).ep ≠ 0xFF → (Tbl.look ⟨[], true, false, false⟩ d.tokens i).absent = true →
    c.tokenMem i < x.mems.length →
    ∃ (u : State) (c' : Comm) (x' : Coll), Does (.gatingGroupDone id seq group Ecc.clean ⟨0, 0⟩) s (s.after (u.advanceComm id.toNat)) ∧
      u.comm id.toNat = some c' ∧ c'.coll seq.toNat = some x' ∧ Tbl.find i x'.dispSt.route = some (noChoice 3) ∧
      x'.dispSt.placed = d.placed ∧ x'.dispSt.owed = d.owed ∧ x'.dispSt.drops = d.drops ∧ x'.dispSt.gated = [] ∧
      (nth MemSt.fresh x'.mems (c.tokenMem i)).padded = satAdd 32 (nth MemSt.fresh x.mems (c.tokenMem i)).padded 1 ∧
      u.mem = s.mem ∧ u.tiles = s.tiles

/-- R270, R305: an answer to a slot that its DISP has placed and that has not been answered is kept, poisoned when its
length or its packet says so; one to a slot not placed or answered already is STRAY and changes nothing it would have
filled. -/
def Sys2Proof.Claim.AnswersArrive : Prop :=
  ∀ (bytes : List Byte) (residue : Nat) (s : State) (id : Nat) (c : Comm) (p : Pkt) (a : Area), s.ready → holdsComm s id c →
    (c.st = 2 ∨ c.st = 3) → s.hears kANSWER bytes p → p.comm = id → p.pktIdx = 0 → p.msgLast = 0 →
    c.area p.opseq = some a → (∀ y ∈ c.ops, y.comb = none) →
    let slot := p.arg % 2 ^ 16
    let expert := p.arg / 2 ^ 16 % 256
    let key := expert * 2 ^ 16 + slot
    let want := (rowParts (Coll.ansFmt a.desc) (Coll.ansBs a.desc) (Coll.ansElems a.desc)).1 +
      (rowParts (Coll.ansFmt a.desc) (Coll.ansBs a.desc) (Coll.ansElems a.desc)).2
    ∃ (u : State) (c' : Comm) (a' : Area), Does (.answerReceive ⟨bytes, residue⟩) s (s.after (u.advanceWith id residue)) ∧ u.comm id = some c' ∧
      c'.area p.opseq = some a' ∧ a'.placed = a.placed ∧ u.mem = s.mem ∧ u.tiles = s.tiles ∧
      (slot < Tbl.look 0 a.placed expert → Tbl.find key a.got = none →
        a'.got = Tbl.put key (p.payload, p.poison || p.payload.length != want) a.got ∧ a'.stray = a.stray) ∧
      ((Tbl.look 0 a.placed expert ≤ slot ∨ (Tbl.find key a.got).isSome) → a'.got = a.got ∧ a'.stray = satAdd 32 a.stray 1)

namespace Sys2Proof.Claim
/-- The commands of gate slots (R281). -/
def gateRows (n : Fin 16) : List Instr := [.gateCmdNone n, .gateLoad n, .gateEvict n, .gatePin n, .gateUnpin n]

/-- The registers of gate commands and of one slot. -/
def gateRegs (n : Nat) : List Nat :=
  [regAddr .glbGateCmd [], regAddr .glbGateStatus [], regAddr .glbGateSlot [n], regAddr .glbGateId [n]]

/-- The commands of pauses (R540). -/
def pauseRows (id : BitVec 20) (quiet : BitVec 16) : List Instr := [.pauseCmdNone id, .pause id quiet, .resume id]

/-- The registers of pause commands. -/
def pauseRegs : List Nat := [regAddr .glbPauseCmd [], regAddr .glbPauseStatus []]
end Sys2Proof.Claim

/-- R246, R247, R281 to R284, R607: gate commands. NONE does nothing; one while BUSY is lost; one on a slot that does not
exist, or that is not in the state it needs, ends with its result; LOAD of a good entry pages it in; EVICT of a slot that
no DISP holds empties it, of a held one lets it drain; PIN and UNPIN set its mark. -/
def Sys2Proof.Claim.GateCommands : Prop :=
  ∀ (n : Fin 16) (s : State), s.ready → s.reaches .glbGateCmd [] →
    (s.rd F.GLB_GATE_STATUS_BUSY [] = 1 → ∀ c ∈ gateRows n,
      ∃ t, Does c s t ∧ s.onlyReg t .glbGateStatus [] ∧ t.rd F.GLB_GATE_STATUS_CMD_LOST [] = 1) ∧
    (s.rd F.GLB_GATE_STATUS_BUSY [] = 0 →
      let st := s.rd F.GLB_GATE_SLOT_STATE [n]
      let gives (i : Instr) (result : Nat) : Prop := ∃ t, Does i s t ∧ s.onlyRegs t ∧
        regsBut s t [regAddr .glbGateCmd [], regAddr .glbGateStatus []] ∧
        t.rd F.GLB_GATE_STATUS_LAST_RESULT [] = result ∧ t.rd F.GLB_GATE_STATUS_BUSY [] = 0
      let works (i : Instr) (slot' pin' : Nat) : Prop := ∃ t, Does i s t ∧ s.onlyRegs t ∧ regsBut s t (gateRegs n) ∧
        t.rd F.GLB_GATE_STATUS_LAST_RESULT [] = 0 ∧ t.rd F.GLB_GATE_STATUS_BUSY [] = 0 ∧
        t.rd F.GLB_GATE_SLOT_STATE [n] = slot' ∧ t.rd F.GLB_GATE_SLOT_PIN [n] = pin' ∧
        (slot' ≠ 0 → t.rd F.GLB_GATE_SLOT_USE [n] = s.rd F.GLB_GATE_SLOT_USE [n] ∧
          t.rawReg .glbGateId [n] = s.rawReg .glbGateId [n])
      (∃ t, Does (.gateCmdNone n) s t ∧ s.onlyReg t .glbGateCmd []) ∧
      (s.rd F.GLB_GATE_POOL_SLOTS [] ≤ n →
        gives (.gateLoad n) 8 ∧ gives (.gateEvict n) 8 ∧ gives (.gatePin n) 8 ∧ gives (.gateUnpin n) 8) ∧
      (n < s.rd F.GLB_GATE_POOL_SLOTS [] →
        (st ≠ 0 → gives (.gateLoad n) 4) ∧
        (st ≠ 2 → gives (.gateEvict n) 4 ∧ gives (.gatePin n) 4 ∧ gives (.gateUnpin n) 4) ∧
        (∀ r < 16, st = 0 → s.entryVerdict (s.rd F.GLB_GATE_SRC_ADDR []) false = some r → gives (.gateLoad n) r) ∧
        (st = 0 → s.entryVerdict (s.rd F.GLB_GATE_SRC_ADDR []) false = none → ∃ t, Does (.gateLoad n) s t ∧
          t = { s with regs := t.regs, cs := t.cs } ∧ regsBut s t (gateRegs n) ∧ t.cs.loading = some n.val ∧
          t.rd F.GLB_GATE_STATUS_BUSY [] = 1 ∧ t.rd F.GLB_GATE_SLOT_STATE [n] = 1 ∧
          t.rd F.GLB_GATE_ID_GATE_ID [n] = leAt (s.mem.read (s.rd F.GLB_GATE_SRC_ADDR []) 64) 8 8 ∧
          t.cs.comms = s.cs.comms) ∧
        (st = 2 → s.rd F.GLB_GATE_SLOT_USE [n] = 0 → works (.gateEvict n) 0 0) ∧
        (st = 2 → s.rd F.GLB_GATE_SLOT_USE [n] ≠ 0 → works (.gateEvict n) 3 (s.rd F.GLB_GATE_SLOT_PIN [n])) ∧
        (st = 2 → works (.gatePin n) 2 1 ∧ works (.gateUnpin n) 2 0)))

/-- R247, R248, R283, R424: a page-in whose entry reads without error, has the header it was accepted with and agrees with
its CRC leaves a copy in every plate at the slot's address, and the slot is RESIDENT; one that does not leaves the slot
EMPTY, as does one whose datamover has stopped (R453). A LOAD ends with the result. -/
def Sys2Proof.Claim.PageInDone : Prop :=
  ∀ (n : Fin 16) (s : State), s.ready → s.rd F.GLB_GATE_SLOT_STATE [n] = 1 →
    s.faults.inject = none → s.mem.wf = true →
    let g := s.gate n
    let len := hdrBytes g.hdr
    let bs := s.mem.read g.src len
    let ends (u : State) (result : Nat) : Prop := regsBut s u (gateRegs n) ∧ u.tiles = s.tiles ∧
      u.cs.comms = s.cs.comms ∧ u.todo = s.cs.comms.map (fun (e : Nat × Comm) => Due.advance e.1) ∧
      (s.cs.loading = some n.val → u.rd F.GLB_GATE_STATUS_LAST_RESULT [] = result ∧
        u.rd F.GLB_GATE_STATUS_BUSY [] = 0 ∧ u.cs.loading = none) ∧
      (s.cs.loading ≠ some n.val → u.rawReg .glbGateStatus [] = s.rawReg .glbGateStatus [] ∧ u.cs.loading = s.cs.loading)
    (s.machineUp (machineDie g.src) = false → ∃ u, Does (.pageInDone n Ecc.clean) s (s.after u) ∧ ends u 5 ∧
      u.rd F.GLB_GATE_SLOT_STATE [n] = 0 ∧ u.mem = s.mem) ∧
    (s.machineUp (machineDie g.src) = true → (∀ w ∈ wordsOf g.src len, w ∉ s.memPoison) → hdrOk bs = true → bs.take 0x40 = g.hdr →
    (crc32c (bs.drop 0x40) = leAt bs 0x24 4 →
      (∀ p < 64, ∀ q < 64, p ≠ q → s.slotAddr p n + len ≤ s.slotAddr q n ∨ s.slotAddr q n + len ≤ s.slotAddr p n) →
      ∃ u, Does (.pageInDone n Ecc.clean) s (s.after u) ∧ ends u 0 ∧ u.rd F.GLB_GATE_SLOT_STATE [n] = 2 ∧
        (∀ p < 64, u.mem.read (s.slotAddr p n) len = bs) ∧
        (∀ x, (∀ p < 64, x < s.slotAddr p n ∨ s.slotAddr p n + len ≤ x) → u.mem.readByte x = s.mem.readByte x)) ∧
    (crc32c (bs.drop 0x40) ≠ leAt bs 0x24 4 → ∃ u, Does (.pageInDone n Ecc.clean) s (s.after u) ∧ ends u 2 ∧
      u.rd F.GLB_GATE_SLOT_STATE [n] = 0 ∧ u.mem = s.mem))

/-- R540, R541, R546, R556, R607: pause commands. NONE does nothing; one while BUSY is lost; PAUSE and RESUME of a
communicator that is not ACTIVE, PAUSE of an express one or at a count that has passed, RESUME while operations are
outstanding end with their results; PAUSE arms the communicator with AT, QUIET_US of at least 500 and the save area,
RESUME begins to load. Completion: on these premises Sys2Proof.Machine.exec answers a next state for pauseCmdNone, pause,
resume. -/
def Obligations.PauseCommands : Prop :=
  ∀ (id : BitVec 20) (quiet : BitVec 16) (s : State), s.ready → s.reaches .glbPauseCmd [] →
    (s.rd F.GLB_PAUSE_STATUS_BUSY [] = 1 → ∀ c ∈ pauseRows id quiet,
      ∃ t, Does c s t ∧ s.onlyReg t .glbPauseStatus [] ∧ t.rd F.GLB_PAUSE_STATUS_CMD_LOST [] = 1) ∧
    (s.rd F.GLB_PAUSE_STATUS_BUSY [] = 0 → s.cs.pausing = none →
      let gives (i : Instr) (result : Nat) : Prop := ∃ t, Does i s t ∧ s.onlyRegs t ∧ regsBut s t pauseRegs ∧
        t.rd F.GLB_PAUSE_STATUS_LAST_RESULT [] = result ∧ t.rd F.GLB_PAUSE_STATUS_BUSY [] = 0
      (∃ t, Does (.pauseCmdNone id) s t ∧ s.onlyReg t .glbPauseCmd []) ∧
      (s.comm id.toNat = none → gives (.pause id quiet) 2 ∧ gives (.resume id) 2) ∧
      (∀ c, holdsComm s id.toNat c →
        (c.st ≠ 2 → gives (.pause id quiet) 2 ∧ gives (.resume id) 2) ∧
        (c.st = 2 → (c.desc.express = true ∨ ∃ x ∈ c.ops, ¬(x.op < 5 ∨ x.op = 7)) → gives (.pause id quiet) 3) ∧
        (c.st = 2 → c.ops ≠ [] → gives (.resume id) 5) ∧
        (c.st = 2 → c.desc.express = false → (∀ x ∈ c.ops, x.op < 5 ∨ x.op = 7) →
          (s.rd F.GLB_PAUSE_AT_AT [] < s.now → gives (.pause id quiet) 4) ∧
          (s.now ≤ s.rd F.GLB_PAUSE_AT_AT [] → ∃ (t : State) (c' : Comm), Does (.pause id quiet) s t ∧
            t = { s with regs := t.regs, cs := t.cs } ∧ regsBut s t pauseRegs ∧ t.rd F.GLB_PAUSE_STATUS_BUSY [] = 1 ∧
            t.cs.pausing = some (1, id.toNat, s.rd F.GLB_PAUSE_ARG_ADDR []) ∧ t.comm id.toNat = some c' ∧
            c'.pause = some ⟨s.rd F.GLB_PAUSE_AT_AT [], max 500 quiet.toNat, s.rd F.GLB_PAUSE_ARG_ADDR [], false, none⟩ ∧
            c'.ops = c.ops ∧ (∀ k, k ≠ id.toNat → t.comm k = s.comm k))) ∧
        (c.st = 2 → c.ops = [] → ∃ t, Does (.resume id) s t ∧ t = { s with regs := t.regs, cs := t.cs } ∧
          t.cs = { s.cs with pausing := some (2, id.toNat, s.rd F.GLB_PAUSE_ARG_ADDR []) } ∧ regsBut s t pauseRegs ∧
          t.rd F.GLB_PAUSE_STATUS_BUSY [] = 1)))

/-- R542, R543, R545: from AT the communicator is held; once AT + QUIET_US has passed and no packet of it is retained the
save starts; the confirmed record lies in the save area, the pause is over and every accepted collective ends with PAUSED;
a save area that is misaligned or not in DDR5, or that the record would not fit, or a datamover that has stopped, ends the
pause with its result, and the communicator goes on. -/
def Sys2Proof.Claim.PauseSaves : Prop :=
  ∀ (id : BitVec 20) (s : State) (c : Comm) (p : PauseSt), s.ready → holdsComm s id.toNat c → c.pause = some p → s.mem.wf = true →
    (p.at_ ≤ s.now → ∃ t, Does (.pauseAt id) s t ∧ onlyComm s t id.toNat [] ∧
      t.comm id.toNat = some { c with pause := some { p with held := true } }) ∧
    (p.held = true → p.savedAt = none → p.at_ + p.quiet * 1000 ≤ s.now → s.retains id.toNat = false →
      ∃ t, Does (.pauseSaveStart id) s t ∧ onlyComm s t id.toNat [] ∧
        t.comm id.toNat = some { c with pause := some { p with savedAt := some s.now } }) ∧
    let need := 65536 + 2 * c.desc.quota * 1024
    (∀ a, p.savedAt = some a → p.area % 64 = 0 → (c.saveRecord a).length ≤ need →
      s.rangeWin p.area need = some .ddr → s.machineUp (machineDie p.area) = true →
      ∃ (u : State) (c' : Comm), Does (.pauseSaveDone id) s (s.after (u.advanceComm id.toNat)) ∧ u.cs.pausing = none ∧
        u.mem.read p.area (c.saveRecord a).length = c.saveRecord a ∧
        keepsOutside s u p.area (c.saveRecord a).length ∧ u.comm id.toNat = some c' ∧ c'.pause = none ∧
        c'.ops.length = c.ops.length ∧ (∀ x ∈ c'.ops, x.fin = some 0x28) ∧
        u.rd F.GLB_PAUSE_STATUS_LAST_RESULT [] = 0 ∧ u.rd F.GLB_PAUSE_STATUS_BUSY [] = 0 ∧ regsBut s u pauseRegs ∧
        u.tiles = s.tiles) ∧
    (∀ a, p.savedAt = some a →
      (p.area % 64 ≠ 0 ∨ need < (c.saveRecord a).length ∨ s.rangeWin p.area need ≠ some .ddr ∨
        s.machineUp (machineDie p.area) = false) →
      ∃ u : State, Does (.pauseSaveDone id) s (s.after u) ∧ u.comm id.toNat = some { c with pause := none } ∧
        u.rd F.GLB_PAUSE_STATUS_LAST_RESULT [] = 9 ∧ u.rd F.GLB_PAUSE_STATUS_BUSY [] = 0 ∧ regsBut s u pauseRegs ∧
        u.mem = s.mem ∧ u.tiles = s.tiles ∧ u.todo = [.advance id.toNat])

/-- R546: the load of a save record ends. One of a communicator that is not ACTIVE any more, one that is misaligned, not
in DDR5 or unreadable, one that is not a record or fails its CRC, one of another communicator and one whose communicator
has taken up work end with their results; a good one gives the communicator its saved collectives and the sequence number
of the first. -/
def Sys2Proof.Claim.ResumeLoads : Prop :=
  ∀ (s : State) (id a : Nat) (c : Comm), s.ready → s.cs.pausing = some (2, id, a) → holdsComm s id c → s.faults.inject = none →
    s.memPoison = [] →
    let n := leAt (s.mem.read a 256) 0x20 8
    let bs := s.mem.read a n
    let h := s.mem.read a 256
    let ends (result : Nat) : Prop := ∃ t, Does (.resumeLoadDone Ecc.clean) s t ∧
      t = { s with regs := t.regs, cs := { s.cs with pausing := none } } ∧ regsBut s t pauseRegs ∧
      t.rd F.GLB_PAUSE_STATUS_LAST_RESULT [] = result ∧ t.rd F.GLB_PAUSE_STATUS_BUSY [] = 0
    (c.st ≠ 2 → ends 2) ∧
    (c.st = 2 → (a % 64 ≠ 0 ∨ s.rangeWin a 256 ≠ some .ddr) → ends 9) ∧
    (c.st = 2 → a % 64 = 0 → s.rangeWin a 256 = some .ddr →
      ((leAt h 0 4 ≠ 0x56415350 ∨ leAt h 4 2 ≠ 1 ∨ n < 256 ∨ s.rangeWin a n ≠ some .ddr) → ends 6) ∧
      (leAt h 0 4 = 0x56415350 → leAt h 4 2 = 1 → 256 ≤ n → s.rangeWin a n = some .ddr →
        let crc := crc32c (bs.take 0x28 ++ leBytes 4 0 ++ bs.drop 0x2C)
        (crc ≠ leAt h 0x28 4 → ends 6) ∧
        (crc = leAt h 0x28 4 → recordMatches c h = false → ends 7) ∧
        (crc = leAt h 0x28 4 → recordMatches c h = true → c.ops ≠ [] → ends 5) ∧
        (crc = leAt h 0x28 4 → recordMatches c h = true → c.ops = [] → ∃ (u : State) (c' : Comm),
          Does (.resumeLoadDone Ecc.clean) s (s.after (u.advanceComm id)) ∧ u.comm id = some c' ∧ c'.st = c.st ∧ u.cs.pausing = none ∧
          c'.next = leAt h 0x10 4 ∧ c'.barred = [] ∧ c'.ops = c.ops ∧
          (∀ l ∈ c.rings, ∀ k < 4, Tbl.look 0 c'.cred (8 * l + k) = c.desc.window) ∧
          u.rd F.GLB_PAUSE_STATUS_LAST_RESULT [] = 0 ∧ u.rd F.GLB_PAUSE_STATUS_BUSY [] = 0 ∧
          regsBut s u pauseRegs ∧ u.mem = s.mem ∧ u.tiles = s.tiles)))
namespace Sys2Proof.Claim
/-- A count that does not reach its end by `k` more (R10, R337, R368). -/
def roomy (s : State) (f : Fld) (idx : List Nat) (k : Nat) : Prop := s.rd f idx + k < 2 ^ f.width - 1

/-- A count that has gone up by `k`. -/
def counted (s t : State) (f : Fld) (idx : List Nat) (k : Nat) : Prop := t.rd f idx = s.rd f idx + k

/-- `t` differs from `s` in registers alone, of those the ones at these addresses. -/
def alters (s t : State) (as : List Nat) : Prop := s.onlyRegs t ∧ regsBut s t as

/-- A port that carries fabric packets and is in MGMT or UP (R320). -/
def listens (s : State) (port : Nat) : Prop :=
  s.ready ∧ s.fabricPort port = true ∧ (s.portState port = pMGMT ∨ s.portState port = pUP)

/-- Routing lets a packet that comes in at a port take a place at an output on its adaptive channel: its entry is valid
and not LOCAL, its drain group does not keep it back, the output is the first minimal one with credit and room, its queue
is on chip, early drop of its colour is off (R312, R313, R319, R343, R346, R364). -/
def goesTo (s : State) (inPort colour : Nat) (p : Pkt) (q : Nat) (pl : Place) : Prop :=
  let r := s.route p.dst
  s.validId (p.dst / 64) = true ∧ r.valid = true ∧ r.here = false ∧
  (s.groupHeld r = true → 16 ≤ inPort ∧ inPort < 24 ∧ (p.cls = 0 ∨ p.cls = 2 ∨ p.cls = 4 ∨ p.cls = 7)) ∧
  (p.cls = 7 → s.on F.TM_RED_EN [pl.tile, colour] = false) ∧ (s.adaptPorts r p.cls).head? = some q ∧
  p.cells ≤ s.creditLeft q (vcOf p.cls 0) ∧ s.place p q false none false = some pl ∧ pl.fallback = false ∧
  (s.tm pl.tile).resident pl.queue = true

/-- A packet that came in at a port has joined a queue with its hop counted, on the adaptive channel; `again` when R346
had refused it before; no other tile's slice has changed. -/
def queued (s t : State) (inPort : Nat) (p : Pkt) (q : Nat) (pl : Place) (colour : Nat) (again : Bool) : Prop :=
  Tbl.look [] (t.tm pl.tile).queues pl.queue = Tbl.look [] (s.tm pl.tile).queues pl.queue ++
    [⟨{ p with vc := 0, hops := (p.hops + 1) % 32 }, q, inPort, p.vc, false, p.cells, pl.shared, pl.esc, colour, none, s.now, 0, again, false⟩] ∧
  (∀ j, j ≠ pl.queue → Tbl.look [] (t.tm pl.tile).queues j = Tbl.look [] (s.tm pl.tile).queues j) ∧
  (∀ k, k ≠ pl.tile → t.tm k = s.tm k)

/-- The contexts after what an arriving packet tells of them: its own may read as uncorrectable (R297), and an
accelerator's ACK is kept as its stream's current one (R296). -/
def seen (s : State) (port : Nat) (p : Pkt) (ctxBad : Bool) : State := (if ctxBad then s.poisonCtx p.key else s).seeAck port p

/-- A packet that has entered the switch from a die's internal sources. -/
def sends (u : State) (die : Nat) (p : Pkt) : Prop := Due.inject die p none ∈ u.todo

/-- The NACK of a packet, with its reason (R300, R302). -/
def nackOf (p n : Pkt) (reason : Nat) : Prop :=
  n.kind = kNACK ∧ n.dst = p.src ∧ n.src = p.dst ∧ n.comm = p.comm ∧ n.seq = p.seq ∧ n.arg = p.cls + 8 * reason

/-- No word of a range holds poison and no error is injected. -/
def sound (s : State) (a n : Nat) : Prop := s.faults.inject = none ∧ ∀ w ∈ wordsOf a n, w ∉ s.memPoison
end Sys2Proof.Claim

/-- R293, R296, R297, R313, R320, R340, R392: a packet that arrives. One whose header check fails, that is malformed, has
made 24 hops, names a source that is not its port's or a destination without a route is discarded and counted under its
own cause; a management port takes no other class; one that routing accepts at an output with credit and room joins that
output's queue with one hop more. Nothing else changes but the link's credits and the contexts that the packet speaks of.
No policer is on, and no error is injected. -/
def Sys2Proof.Claim.PacketsArrive : Prop :=
  ∀ (port : Fin 26) (bytes : List Byte) (ctxBad : Bool) (s : State), listens s port → s.faults.inject = none →
    let keeps (a t : State) : Prop := t = { a with regs := t.regs, fab := { a.fab with link := t.fab.link } }
    let drops (a : State) (n : Nat) : Prop := roomy s F.RT_CNT_COUNT [n] 1 → ∃ t, Does (.packetArrive port ⟨bytes, ctxBad⟩) s t ∧
      keeps a t ∧ regsBut s t [regAddr .rtCnt [n]] ∧ counted s t F.RT_CNT_COUNT [n] 1
    (Pkt.parse bytes = .hdrCheck → drops s 2) ∧ (Pkt.parse bytes = .bad → drops s 3) ∧
    (∀ p, Pkt.parse bytes = .ok p →
      (24 ≤ p.hops → drops s 5) ∧
      (p.hops < 24 → port.val < 16 → p.src ≠ s.switchId * 64 + port → drops s 4) ∧
      (p.hops < 24 → (port.val < 16 → p.src = s.switchId * 64 + port) →
        (s.portState port = pMGMT → p.cls ≠ 6 → ∃ t, Does (.packetArrive port ⟨bytes, ctxBad⟩) s t ∧ keeps s t ∧ t.regs = s.regs) ∧
        (s.portState port = pUP → p.kind ≠ kDISCOVER → p.kind ≠ kTIME →
          s.on F.TM_PMAP_EN [leadTile port, p.cls] = false →
          let a := seen s port p ctxBad
          (s.validId (p.dst / 64) = false ∨ (s.route p.dst).valid = false → drops a 0) ∧
          (∀ q pl, goesTo a port 0 p q pl → ∃ t, Does (.packetArrive port ⟨bytes, ctxBad⟩) s t ∧ t = { s with fab := t.fab } ∧
            queued a t port p q pl 0 false ∧ t.fab.rxWait = s.fab.rxWait))))

/-- R347, R349, R354, R406, R418: a packet that waited and that routing now accepts leaves the receive buffer for its
queue, and is counted if it had been refused; one that came in a frame lets XON go out when its priority's buffer has
fallen below 2,048 cells; the packets that waited for a queue's state join it in their order; a packet held too long is
discarded and counted. -/
def Sys2Proof.Claim.WaitingPackets : Prop :=
  ∀ (s : State), s.ready →
    (∀ (source : Fin 30) (place : Nat) (w : WaitPkt) (q : Nat) (pl : Place), (s.waiting source)[place]? = some w →
      listWaits ((s.waiting source).take place) w.how = false →
      goesTo s source w.how.colour w.pkt q pl → roomy s F.TM_CNT_COUNT [pl.tile, 31] 1 →
      (∀ e prio, w.how.eth = some (e, prio) → bitOf (s.ethPort e).xoff prio = true → s.ethCells e prio < 2048 →
        bitOf (s.rd F.LINK_ETH_CFG_PFC_TX_EN [e]) prio = true → s.ethState e = eUP → roomy s F.LINK_ETH_CNT_COUNT [e, 2] 1 →
        roomy s F.LINK_ETH_CNT_COUNT [e, 3] (s.pfcFrame e prio 0).length → roomy s F.LINK_ETH_CNT_COUNT [e, 10] 1 →
        ∃ t, Does (.packetAdmitRetry source place) s t ∧ t.waiting source = (s.waiting source).eraseIdx place ∧
          t.outbox = s.outbox ++ [.eth e (s.pfcFrame e prio 0)] ∧ bitOf (t.ethPort e).xoff prio = false ∧
          counted s t F.LINK_ETH_CNT_COUNT [e, 2] 1 ∧ counted s t F.LINK_ETH_CNT_COUNT [e, 10] 1) ∧
      ((∀ e prio, w.how.eth = some (e, prio) → bitOf (s.ethPort e).xoff prio = false ∧ s.ethCells e prio < 3072) →
        ∃ t, Does (.packetAdmitRetry source place) s t ∧ t = { s with regs := t.regs, fab := t.fab } ∧
        t.waiting source = (s.waiting source).eraseIdx place ∧ (∀ k, k ≠ source.val → t.waiting k = s.waiting k) ∧
        queued s t source w.pkt q pl w.how.colour w.refused ∧ regsBut s t [regAddr .tmCnt [pl.tile, 31]] ∧
        counted s t F.TM_CNT_COUNT [pl.tile, 31] (b2n w.refused))) ∧
    (∀ (tile : Fin 64) (queue : BitVec 14) (qs : List QPkt), Tbl.find queue.toNat (s.tm tile).filling = some qs →
      ∃ t, Does (.queueStateFill tile queue) s t ∧ t = { s with fab := t.fab } ∧
        Tbl.find queue.toNat (t.tm tile).filling = none ∧
        Tbl.look [] (t.tm tile).queues queue.toNat = Tbl.look [] (s.tm tile).queues queue.toNat ++ qs ∧
        (∀ j, j ≠ queue.toNat → Tbl.look [] (t.tm tile).queues j = Tbl.look [] (s.tm tile).queues j) ∧
        (t.tm tile).occ = (s.tm tile).occ ∧ (t.tm tile).hold = (s.tm tile).hold ∧ ∀ k, k ≠ tile.val → t.tm k = s.tm k) ∧
    (∀ (tile : Fin 64) (place : Nat) (q : QPkt), (s.tm tile).hold[place]? = some q → roomy s F.TM_CNT_COUNT [tile, 23] 1 →
      ∃ u, Does (.holdExpire tile place) s (s.after u) ∧
        u.tm tile = { (s.tm tile).give q with hold := (s.tm tile).hold.eraseIdx place } ∧
        (∀ k, k ≠ tile.val → u.tm k = s.tm k) ∧ regsBut s u [regAddr .tmCnt [tile, 23]] ∧
        counted s u F.TM_CNT_COUNT [tile, 23] 1 ∧ u.outbox = s.outbox ∧ u.mem = s.mem ∧ u.tiles = s.tiles)

/-- R340, R346, R352, R357, R391: a fabric port on which no management packet waits, whose one queue with packets has
credit and whose shapers are off, sends that queue's first packet: it leaves with its bytes, its cells return to their
pool, the slice's packet and byte counts rise. A packet whose first cells cannot be read is discarded and counted; of one
whose later cells cannot, the trailer is spoiled. Completion: on these premises Sys2Proof.Machine.exec answers a next
state for packetTransmit. -/
def Obligations.PacketLeaves : Prop :=
  ∀ (port : Fin 26) (s : State) (off j : Nat) (q : QPkt), s.ready → s.fabricPort port = true →
    s.portHeads port = [(off, j, q)] → s.txReady port q = true →
    (∀ n ∈ [none, some (s.groupOf port off j), some (.cls (s.classOf port (s.groupOf port off j)))], (s.shaper port n).1 = false) →
    (s.link port).lpIdle = 0 → (s.link port).mgmt = [] → s.faults.inject = none → s.rd F.TM_SAMPLE_N [leadTile port, q.pkt.cls] = 0 →
    off < portTiles port → q.pkt.cls < 8 →
    let t := portTile port + off
    (s.tm t).ctxs = [] → roomy s F.TM_CNT_COUNT [t, q.pkt.cls] 1 → roomy s F.TM_CNT_COUNT [t, 8 + q.pkt.cls] q.pkt.wire →
    roomy s F.TM_CNT_COUNT [t, 29] 1 →
    let popped (u : State) : Prop := Tbl.look [] (u.tm t).queues j = (Tbl.look [] (s.tm t).queues j).drop 1 ∧
      (∀ i, i ≠ j → Tbl.look [] (u.tm t).queues i = Tbl.look [] (s.tm t).queues i) ∧
      ((u.tm t).occ, (u.tm t).escOcc, (u.tm t).shared) =
        (((s.tm t).give q).occ, ((s.tm t).give q).escOcc, ((s.tm t).give q).shared) ∧
      (∀ k, k ≠ t → u.tm k = s.tm k) ∧ u.mem = s.mem ∧ u.tiles = s.tiles
    (∃ u, Does (.packetTransmit port .none) s (s.after u) ∧ popped u ∧
      u.outbox = s.outbox ++ [.packet port (vcOf q.pkt.cls q.pkt.vc) q.pkt.encode] ∧
      regsBut s u [regAddr .tmCnt [t, q.pkt.cls], regAddr .tmCnt [t, 8 + q.pkt.cls]] ∧
      counted s u F.TM_CNT_COUNT [t, q.pkt.cls] 1 ∧ counted s u F.TM_CNT_COUNT [t, 8 + q.pkt.cls] q.pkt.wire) ∧
    (∃ u, Does (.packetTransmit port .first) s (s.after u) ∧ popped u ∧ counted s u F.TM_CNT_COUNT [t, 29] 1 ∧
      ∀ v b, Emit.packet port v b ∈ u.outbox → Emit.packet port v b ∈ s.outbox) ∧
    (∃ u, Does (.packetTransmit port .later) s (s.after u) ∧ popped u ∧
      u.outbox.getLast? = some (.packet port (vcOf q.pkt.cls q.pkt.vc)
        { q.pkt with trailer := q.pkt.trailer ^^^ 0xFFFFFFFF }.encode))

/-- R427, R302: PUT_DATA to a plates endpoint that owns the range is written there, with its poison; GET_REQ of a sound
range is answered with its bytes; what ownership does not admit is refused with ADDR_DENIED and changes no memory. -/
def Sys2Proof.Claim.PutAndGetServed : Prop :=
  ∀ (bytes : List Byte) (s : State) (p : Pkt), s.ready → s.mem.wf = true →
    let k := internalTile p
    let a := plateBase + k * plateSize + p.addr
    let admitted (n : Nat) : Prop := endpointFn p.dst = 1 ∧ p.addr + n ≤ plateSize ∧ s.admits a n (.fabric (tileDie k)) = true
    let refuses (c : Instr) : Prop := ∃ u n, Does c s (s.after u) ∧ nackOf p n 4 ∧
      u = { s with fab := { s.fab with tm := u.fab.tm }, todo := [.inject (tileDie (ctxTile p)) n none] } ∧
      (∀ i, i ≠ ctxTile p → u.tm i = s.tm i)
    (s.hears kPUT bytes p →
      (¬admitted p.payload.length → refuses (.putDataReceive bytes)) ∧
      (admitted p.payload.length → ∃ u, Does (.putDataReceive bytes) s (s.after u) ∧
        u.mem.read a p.payload.length = p.payload ∧ keepsOutside s u a p.payload.length ∧
        (∀ w, w ∈ u.memPoison ↔ (if p.poison then w ∈ s.memPoison ∨ w ∈ wordsOf a p.payload.length
          else w ∈ s.memPoison ∧ w ∉ wholeWords a p.payload.length)) ∧
        u.tiles = s.tiles ∧ u.regs = s.regs ∧ u.cs = s.cs)) ∧
    (s.hears kGETREQ bytes p →
      let n := leAt p.payload 0 4
      (¬admitted n → refuses (.getReqReceive bytes Ecc.clean)) ∧
      (admitted n → sound s a n → n ≤ 8192 →
        (∀ x ∈ s.fab.streams, x.key ≠ ⟨p.dst, p.src, 1, p.comm⟩) →
        ∃ u q, Does (.getReqReceive bytes Ecc.clean) s (s.after u) ∧ sends u (tileDie (ctxTile p)) q ∧ q.kind = kGETDATA ∧
          q.dst = p.src ∧ q.src = p.dst ∧ q.comm = p.comm ∧ q.addr = p.addr ∧ q.payload = s.mem.read a n ∧
          q.seq = 0 ∧ q.syn = true ∧ u.mem = s.mem ∧ u.memPoison = s.memPoison ∧ u.tiles = s.tiles ∧ u.regs = s.regs))

/-- R185: GET_DATA that belongs to the one GET in progress is written at its place; the last byte of the GET completes its
ticket, with DATA_POISONED if some packet carried poison. -/
def Sys2Proof.Claim.GetDataReturns : Prop :=
  ∀ (bytes : List Byte) (s : State) (p : Pkt) (x : Xfer), s.ready → s.mem.wf = true → s.hears kGETDATA bytes p →
    s.fab.xfers = [x] → x.get = true → x.dst = p.src → x.comm = p.comm → tileDie x.tile = tileDie (ctxTile p) →
    let off := (p.addr + 2 ^ 64 - x.remote) % 2 ^ 64
    off + p.payload.length ≤ x.len → p.payload.length ≤ x.left →
    ∃ u, Does (.getDataReceive bytes) s (s.after u) ∧ u.mem.read (x.local_ + off) p.payload.length = p.payload ∧
      keepsOutside s u (x.local_ + off) p.payload.length ∧
      (p.payload.length < x.left → u.tiles = s.tiles ∧
        u.fab.xfers = [{ x with left := x.left - p.payload.length, bad := x.bad || p.poison, idle := 0 }]) ∧
      (p.payload.length = x.left → u.fab.xfers = [] ∧ ∀ op, opAt (s.tile x.tile).commRun x.entry = some op →
        ((s.tile x.tile).ticket x.entry).held = true → ((s.tile x.tile).ticket x.entry).result = none →
        ((s.tile x.tile).thread op.thread).st ≠ .free → (∀ k, ((s.tile x.tile).thread k).still) →
        ((u.tile x.tile).ticket x.entry).result = some (if x.bad || p.poison then 0x03 else 0, 0))

/-- R300, R302, R303: at a stream's source with nothing waiting. An ACK ends the retention of the packets that it covers
and of no others. A NACK for a retained packet sends it again marked RETX, starts the stream anew, or ends the operation,
by its reason; two reasons change nothing. A re-send timer sends every retained packet again in order, and at the limit
ends the operations that have packets retained; with nothing retained it is a turn that a GET has waited for its data
(that these turns are its clock is log 14). -/
def Sys2Proof.Claim.StreamSources : Prop :=
  ∀ (s : State) (x : SrcStream), s.ready → s.fab.streams.find? (fun y => y.key == x.key) = some x → x.waiting = [] →
    roomy s F.RT_CNT_COUNT [12] (2 * x.retained.length) → roomy s F.RT_CNT_COUNT [13] x.retained.length →
    let again (r : Retained) : Due := .inject x.die { r.pkt.markRetx with vc := 0, hops := 0 }.seal none
    let only (u : State) : Prop := u = { s with regs := u.regs, fab := { s.fab with streams := u.fab.streams }, todo := u.todo } ∧
      ∀ k, k ≠ x.key → u.fab.streams.find? (fun y => y.key == k) = s.fab.streams.find? (fun y => y.key == k)
    (∀ bytes p, s.hears kACK bytes p → x.key = ⟨p.dst, p.src, p.arg % 8, p.comm⟩ →
      let covered (r : Retained) : Bool := decide ((p.seq + 2 ^ 16 - r.pkt.seq) % 2 ^ 16 < 4096)
      (x.retained.filter covered = [] → Does (.ackReceive bytes) s s) ∧
      (x.retained.filter covered ≠ [] → ∃ u y, Does (.ackReceive bytes) s (s.after u) ∧ only u ∧ u.regs = s.regs ∧
        u.fab.streams.find? (fun z => z.key == x.key) = some y ∧
        y.retained = x.retained.filter (fun r => !covered r) ∧ y.next = x.next ∧ y.expiries = 0 ∧
        u.todo = (x.retained.filter covered).map (fun r => Due.released r.own 0))) ∧
    (∀ bytes p r, s.hears kNACK bytes p → x.key = ⟨p.dst, p.src, p.arg % 8, p.comm⟩ →
      x.retained.find? (fun y => y.pkt.seq == p.seq) = some r →
      (p.arg / 8 % 8 = 0 ∨ 4 < p.arg / 8 % 8 → ∃ u, Does (.nackReceive bytes) s (s.after u) ∧ only u ∧ u.todo = [again r] ∧
        counted s u F.RT_CNT_COUNT [12] 1) ∧
      (p.arg / 8 % 8 = 1 ∨ p.arg / 8 % 8 = 3 → Does (.nackReceive bytes) s s) ∧
      (p.arg / 8 % 8 = 2 → x.synOut = true → Does (.nackReceive bytes) s s) ∧
      (p.arg / 8 % 8 = 2 → x.synOut = false → ∀ first rest, x.retained = first :: rest → ∃ u y q, Does (.nackReceive bytes) s (s.after u) ∧ only u ∧
        u.fab.streams.find? (fun z => z.key == x.key) = some y ∧ y.retained.map (·.pkt) = [q] ∧ sends u x.die q ∧
        q.seq = 0 ∧ q.syn = true ∧ q.payload = first.pkt.payload ∧ y.waiting.map (fun w => w.1.payload) = rest.map (fun w => w.pkt.payload)) ∧
      (p.arg / 8 % 8 = 4 → ∃ u y, Does (.nackReceive bytes) s (s.after u) ∧ only u ∧ u.regs = s.regs ∧
        u.todo = [Due.released r.own 0x12] ∧ u.fab.streams.find? (fun z => z.key == x.key) = some y ∧ y.waiting = [] ∧
        y.start = true ∧ y.retained = x.retained.filter (fun z => !(z.own.same r.own || z.pkt.seq == r.pkt.seq)))) ∧
    (∀ (src dst : BitVec 16) (cls : Fin 8) (comm : BitVec 20) (r : Retained) (rest : List Retained),
      x.key = ⟨src.toNat, dst.toNat, cls, comm.toNat⟩ → x.retained = r :: rest →
      let lim := s.rd F.RT_E2E_RETRY_LIMIT []
      (cls.val ≤ 1 → lim ≠ 0 → lim ≤ x.expiries + 1 → ∃ u, Does (.retxTimerExpire src dst cls comm) s (s.after u) ∧ only u ∧
        Due.released r.own 0x05 ∈ u.todo ∧ counted s u F.RT_CNT_COUNT [13] u.todo.length ∧ ∃ y,
        u.fab.streams.find? (fun z => z.key == x.key) = some y ∧ y.retained = [] ∧ y.start = true) ∧
      ((1 < cls.val ∨ lim = 0 ∨ x.expiries + 1 < lim) → ∃ u y, Does (.retxTimerExpire src dst cls comm) s (s.after u) ∧ only u ∧
        u.todo = x.retained.map again ∧ counted s u F.RT_CNT_COUNT [12] x.retained.length ∧
        u.fab.streams.find? (fun z => z.key == x.key) = some y ∧ y.expiries = x.expiries + 1 ∧
        y.retained.map (·.pkt) = x.retained.map (·.pkt))) ∧
    (∀ (src dst : BitVec 16) (cls : Fin 8) (comm : BitVec 20), x.key = ⟨src.toNat, dst.toNat, cls, comm.toNat⟩ → x.retained = [] →
      (cls.val ≠ 0 → Does (.retxTimerExpire src dst cls comm) s s) ∧
      (∀ g : Xfer, s.fab.xfers = [g] → g.get = true → g.dst = dst.toNat → g.comm = comm.toNat → cls.val = 0 →
        s.ownAddr (tileDie g.tile) 0 = src.toNat → s.retriesGone (g.idle + 1) = false →
        ∃ t, Does (.retxTimerExpire src dst cls comm) s t ∧
          t = { s with fab := { s.fab with xfers := [{ g with idle := g.idle + 1 }] } }) ∧
      (∀ g : Xfer, s.fab.xfers = [g] → g.get = true → g.dst = dst.toNat → g.comm = comm.toNat → cls.val = 0 →
        s.ownAddr (tileDie g.tile) 0 = src.toNat → s.retriesGone (g.idle + 1) = true → roomy s F.RT_CNT_COUNT [13] 1 →
        ∃ u, Does (.retxTimerExpire src dst cls comm) s (s.after u) ∧ counted s u F.RT_CNT_COUNT [13] 1 ∧ u.fab.xfers = []))

/-- R297, R300: at a stream's destination the acknowledgement delay limit sends an ACK of the highest number performed, if
something is unacknowledged; a context without packets ages out and one with packets stays. -/
def Sys2Proof.Claim.StreamContexts : Prop :=
  ∀ (tile : Fin 64) (src dst : BitVec 16) (cls : Fin 8) (comm : BitVec 20) (s : State) (c : Ctx),
    let k : StreamKey := ⟨src.toNat, dst.toNat, cls, comm.toNat⟩
    s.ready → s.ctx tile k = some c →
    (c.unacked = 0 → Does (.ackTimerExpire tile src dst cls comm) s s) ∧
    (∀ n, c.unacked ≠ 0 → c.done = some n → ∃ u a, Does (.ackTimerExpire tile src dst cls comm) s (s.after u) ∧
      u = { s with fab := { s.fab with tm := u.fab.tm }, todo := [.inject (tileDie tile) a none] } ∧
      u.ctx tile k = some { c with unacked := 0 } ∧ (∀ j, j ≠ k → u.ctx tile j = s.ctx tile j) ∧
      a.kind = kACK ∧ a.dst = src.toNat ∧ a.src = dst.toNat ∧ a.comm = comm.toNat ∧ a.arg = cls ∧ a.seq = n) ∧
    (c.unacked ≠ 0 → c.done = none → ∃ t, Does (.ackTimerExpire tile src dst cls comm) s t ∧
      t = { s with fab := { s.fab with tm := t.fab.tm } } ∧ t.ctx tile k = some { c with unacked := 0 }) ∧
    (c.held = [] → ∃ t, Does (.contextAgeOut tile src dst cls comm) s t ∧ t = { s with fab := { s.fab with tm := t.fab.tm } } ∧
      t.ctx tile k = none ∧ (∀ j, j ≠ k → t.ctx tile j = s.ctx tile j) ∧ ∀ i, i ≠ tile.val → t.tm i = s.tm i) ∧
    (c.held ≠ [] → Does (.contextAgeOut tile src dst cls comm) s s)
namespace Sys2Proof.Claim
/-- The registers of the collector of a die that an event touches (R501, R526). -/
def eventRegs (d : Nat) : List Nat :=
  [regAddr .fltDieStatus [d], regAddr .fltDieLast0 [d], regAddr .fltDieLast1 [d], regAddr .fltDieCnt [d, 0]]

/-- `t` differs from `s` in the registers at these addresses and in what an event of a die changes: its collector, a
record on its way, what left the switch. -/
def tells (s t : State) (d : Nat) (as : List Nat) : Prop :=
  t = { s with regs := t.regs, faults := t.faults, stylus := t.stylus, outbox := t.outbox } ∧
  regsBut s t (as ++ eventRegs d)

/-- A die's collector has last recorded the event of a register (R500). -/
def lastEvent (t : State) (r : RegName) (idx : List Nat) : Prop :=
  t.rd F.FLT_DIE_LAST0_WORD [(regHome r idx).1] % 8 = 0 ∧
  t.rd F.FLT_DIE_LAST0_WORD [(regHome r idx).1] / 2 ^ 32 = regAddr r idx % 2 ^ 32

/-- A write has been refused: the global error status holds it, nothing else has changed (R523). -/
def refused (s t : State) (addr : Nat) : Prop :=
  tells s t 0 [regAddr .fltCfgErr []] ∧ t.rd F.FLT_CFG_ERR_ERR [] = 1 ∧
  (if s.on F.FLT_CFG_ERR_ERR [] then t.rd F.FLT_CFG_ERR_OVERRUN [] = 1 ∧ t.rd F.FLT_CFG_ERR_ADDR [] = s.rd F.FLT_CFG_ERR_ADDR []
   else t.rd F.FLT_CFG_ERR_ADDR [] = addr % 2 ^ 32)

/-- The commands of RT_CMD (R329). -/
def routeRows (g : Fin 16) : List Instr := [.rtCmdNone g, .rtHold g, .rtRelease g, .rtLoad g, .rtOpen g]

/-- The registers of route commands. -/
def routeRegs : List Nat := [regAddr .rtCmd [], regAddr .rtStatus []]

/-- A packet that stays on its link, heard on a listening port: its kind and payload (R321, R532). -/
def onLink (s : State) (port k : Nat) (bytes : List Byte) (p : Pkt) : Prop :=
  listens s port ∧ Pkt.parse bytes = .ok p ∧ p.kind = k ∧ p.trailerOk = true

/-- A management packet that a port has sent. -/
def leftOn (l : List Emit) (port : Nat) (q : Pkt) : Prop := Emit.packet port (vcOf 6 0) q.seal.encode ∈ l

/-- A management packet that a port has sent, or that waits there behind others for credit (R391). -/
def goesOn (t : State) (l : List Emit) (port : Nat) (q : Pkt) : Prop := leftOn l port q ∨ q.seal ∈ (t.link port).mgmt

/-- A neighbour that keeps its report when the rings are looked at: none is known there, or it is wired as it must be
(R322). -/
def fits (s : State) (k : Nat) : Prop := ∀ n, s.nbrOf k = some n → s.wiringOk k n = true
end Sys2Proof.Claim

/-- R318, R319, R325, R329, R330, R607: route commands. NONE does nothing; any command while BUSY is lost; HOLD of a held
group ends with an error, of another marks it held; RELEASE ends the hold; LOAD on a live fabric or from a misaligned
address ends with an error, else begins; OPEN before the table, the coordinates and the time are there ends with an error,
else moves bring-up to its last phase and every management port whose neighbour is open to UP. -/
def Sys2Proof.Claim.RouteCommands : Prop :=
  ∀ (g : Fin 16) (s : State), s.ready → s.reaches .rtCmd [] →
    (s.rd F.RT_STATUS_BUSY [] = 1 → ∀ c ∈ routeRows g,
      ∃ t, Does c s t ∧ s.onlyReg t .rtStatus [] ∧ t.rd F.RT_STATUS_CMD_LOST [] = 1) ∧
    (s.rd F.RT_STATUS_BUSY [] = 0 →
      let held := s.rd F.RT_STATUS_HELD []
      let gives (c : Instr) (result : Nat) : Prop := ∃ t, Does c s t ∧ alters s t routeRegs ∧
        t.rd F.RT_STATUS_LAST_RESULT [] = result ∧ t.rd F.RT_STATUS_HELD [] = held ∧ t.rd F.RT_STATUS_BUSY [] = 0
      (∃ t, Does (.rtCmdNone g) s t ∧ s.onlyReg t .rtCmd []) ∧
      (held.testBit g = true → gives (.rtHold g) 2) ∧
      (held.testBit g = false → ∃ t, Does (.rtHold g) s t ∧ alters s t routeRegs ∧
        t.rd F.RT_STATUS_LAST_RESULT [] = 0 ∧ ∀ i < 16, (t.rd F.RT_STATUS_HELD []).testBit i = (held.testBit i || decide (i = g.val))) ∧
      (∃ u, Does (.rtRelease g) s (s.after u) ∧ u = { s with regs := u.regs, todo := [.retryAll] } ∧ regsBut s u routeRegs ∧
        u.rd F.RT_STATUS_LAST_RESULT [] = 0 ∧
        ∀ i < 16, (u.rd F.RT_STATUS_HELD []).testBit i = (held.testBit i && !decide (i = g.val))) ∧
      (s.anyUp = true → gives (.rtLoad g) 2) ∧
      (s.anyUp = false → s.rd F.RT_TABLE_SRC_ADDR [] % 64 ≠ 0 → gives (.rtLoad g) 4) ∧
      (s.anyUp = false → s.rd F.RT_TABLE_SRC_ADDR [] % 64 = 0 → ∃ t, Does (.rtLoad g) s t ∧
        t = { s with regs := t.regs, fab := { s.fab with tableLoad := some (s.rd F.RT_TABLE_SRC_ADDR []) } } ∧
        regsBut s t routeRegs ∧ t.rd F.RT_STATUS_BUSY [] = 1) ∧
      (let may := s.on F.RT_STATUS_LOADED [] && (s.bench || (s.on F.GLB_COORD_XY_VALID [] && s.on F.GC_STATUS_SYNCED []))
       (may = false → gives (.rtOpen g) 5) ∧
       (may = true → ∃ u, Does (.rtOpen g) s (s.after u) ∧ u.rd F.RT_BRINGUP_PHASE [] = 8 ∧ u.rd F.RT_STATUS_LAST_RESULT [] = 0 ∧
        (∀ p < 26, ∀ n, Tbl.find p s.fab.nbr = some n → n.phase = 8 → s.portState p = pMGMT → u.portState p = pUP) ∧
        (∀ p < 26, (s.portState p ≠ pMGMT ∨ ∀ n, Tbl.find p s.fab.nbr = some n → n.phase ≠ 8) → u.portState p = s.portState p) ∧
        u.mem = s.mem ∧ u.tiles = s.tiles ∧ u.cs = s.cs)))

/-- R312, R317, R329, R331, R338, R523: a write of a route entry takes effect in its bits 23:0 and held packets are
offered again; while any data port is UP, one that would change ESC, ESC_DL or LOCAL is refused and the entry stays. The
load of a table image that lies in HBM or DDR5 and reads without error writes every entry; one that lies elsewhere or
whose entries set reserved bits writes none. -/
def Sys2Proof.Claim.RouteTable : Prop :=
  ∀ (s : State), s.ready →
    (∀ (dst : BitVec 16) (v : Word), s.reaches .rtEntry [dst.toNat] →
      let old := s.rd F.RT_ENTRY_ENTRY [dst.toNat]
      let new := v.toNat % 2 ^ 24
      let alike := fieldOf old 1 1 = fieldOf new 1 1 ∧ fieldOf old 10 4 = fieldOf new 10 4
      (s.anyUp = true → ¬alike → ∃ t, Does (.rtEntryWrite dst v) s t ∧ refused s t (regAddr .rtEntry [dst.toNat])) ∧
      (s.anyUp = false ∨ alike → ∃ u, Does (.rtEntryWrite dst v) s (s.after u) ∧
        u = { s with regs := u.regs, todo := [.reoffer] } ∧ regsBut s u [regAddr .rtEntry [dst.toNat]] ∧
        u.rd F.RT_ENTRY_ENTRY [dst.toNat] = new)) ∧
    (∀ a, s.fab.tableLoad = some a →
      let bs := s.mem.read a 262144
      let there := s.rangeWin a 262144 = some .hbm ∨ s.rangeWin a 262144 = some .ddr
      let ends (result : Nat) : Prop := ∃ t, Does (.rtLoadDone Ecc.clean) s t ∧
        t = { s with regs := t.regs, fab := { s.fab with tableLoad := none } } ∧ regsBut s t [regAddr .rtStatus []] ∧
        t.rd F.RT_STATUS_LAST_RESULT [] = result ∧ t.rd F.RT_STATUS_BUSY [] = 0
      (¬there → ends 3) ∧
      (there → sound s a 262144 →
        ((∃ i < 65536, leAt bs (4 * i + 3) 1 ≠ 0) → ends 4) ∧
        ((∀ i < 65536, leAt bs (4 * i + 3) 1 = 0) → ∃ u, Does (.rtLoadDone Ecc.clean) s (s.after u) ∧
          u = { s with regs := u.regs, fab := { s.fab with tableLoad := none }, todo := [.reoffer] } ∧
          (∀ i < 65536, u.rd F.RT_ENTRY_ENTRY [i] = leAt bs (4 * i) 4) ∧ u.rd F.RT_STATUS_LOADED [] = 1 ∧
          u.rd F.RT_STATUS_LAST_RESULT [] = 0 ∧ u.rd F.RT_STATUS_BUSY [] = 0 ∧
          (∀ r idx, (∀ i < 65536, regAddr r idx ≠ regAddr .rtEntry [i]) → regAddr r idx ≠ regAddr .rtStatus [] →
            u.rawReg r idx = s.rawReg r idx))))

/-- R320 to R323, R325, R327: bring-up. The DISCOVER timer sends DISCOVER on every listening port and on no other, credit
allowing. DISCOVER from a neighbour at this switch's own Z, from a port that is not wired as it must be, or two levels
away holds the port; any other is taken as the neighbour's report, and moves a management port to UP when both switches
are open; ports that fit keep their state. A position from which nothing has come after its time is absent. Completion: on
these premises Sys2Proof.Machine.exec answers a next state for discoverReceive, discoverTimer, zAbsenceTimeout. -/
def Obligations.BringUp : Prop :=
  ∀ (s : State), s.ready →
    (∃ u, Does .discoverTimer s (s.after u) ∧ u.mem = s.mem ∧ u.tiles = s.tiles ∧ u.cs = s.cs ∧
      (∀ p < 26, fits s p → u.portState p = s.portState p) ∧
      (∀ p < 26, u.fabricPort p = true → (u.portState p = pMGMT ∨ u.portState p = pUP) → ∃ q,
        goesOn u u.outbox p q ∧ q.kind = kDISCOVER ∧ q.payload = u.discoverPayload p) ∧
      (9 ≤ s.rd F.GLB_COORD_Z [] → s.on F.GLB_COORD_XY_VALID [] = false → ∃ l, u.outbox = s.outbox ++ l ∧
        u = { s with regs := u.regs, faults := u.faults, stylus := u.stylus, time := u.time, draws := u.draws,
                     fab := { s.fab with link := u.fab.link }, outbox := u.outbox } ∧
        ∀ p v b, Emit.packet p v b ∈ l → listens s p)) ∧
    (∀ (port : Fin 26) (bytes : List Byte) (p : Pkt), onLink s port kDISCOVER bytes p → s.bench = false →
      let n := Nbr.ofPayload p.payload
      let clash := 16 ≤ port.val ∧ port.val < 20 ∧ fieldOf n.coord 0 4 = s.rd F.GLB_COORD_Z []
      let far := s.rd F.RT_FABLEVEL_LOCAL [] + 1 < n.level % 16 ∨ n.level % 16 + 1 < s.rd F.RT_FABLEVEL_LOCAL []
      let holds (cause : Nat) : Prop := ∃ u, Does (.discoverReceive port bytes) s (s.after u) ∧ u.portState port = pHELD ∧
        u.rd F.RT_PORT_CAUSE [port] = cause ∧ Tbl.find port u.fab.nbr = none ∧ u.mem = s.mem ∧ u.tiles = s.tiles ∧
        ∀ k, k ≠ port.val → u.portState k = s.portState k
      (clash → holds 3 ∧ ∃ u, Does (.discoverReceive port bytes) s (s.after u) ∧ u.on F.RT_BRINGUP_Z_CLASH [] = true) ∧ (¬clash → s.wiringOk port n = false → holds 1) ∧
      (¬clash → s.wiringOk port n = true → far → holds 2) ∧
      (¬clash → s.wiringOk port n = true → ¬far → ∃ u, Does (.discoverReceive port bytes) s (s.after u) ∧
        Tbl.find port u.fab.nbr = some n ∧ u.rd F.RT_PORT_NBR_ID [port] = fieldOf n.coord 20 10 ∧
        u.rd F.RT_PORT_NBR_PORT [port] = n.port % 32 ∧
        u.rd F.RT_PORT_LEVEL [port] = min (s.rd F.RT_FABLEVEL_LOCAL []) (n.level % 16) ∧
        (s.portState port = pMGMT → s.rd F.RT_BRINGUP_PHASE [] = 8 → n.phase = 8 → u.portState port = pUP) ∧
        (∀ k < 26, k ≠ port.val → fits s k → Tbl.find k u.fab.nbr = Tbl.find k s.fab.nbr ∧ u.portState k = s.portState k) ∧
        u.mem = s.mem ∧ u.tiles = s.tiles ∧ u.cs = s.cs)) ∧
    (∀ (z : Fin 9),
      (s.zSees z = true ∨ z.val = s.rd F.GLB_COORD_Z [] →
        ∃ u, Does (.zAbsenceTimeout z) s (s.after u) ∧ u = { s with todo := [.ringView] }) ∧
      (s.zSees z = false → z.val ≠ s.rd F.GLB_COORD_Z [] → ∃ u, Does (.zAbsenceTimeout z) s (s.after u) ∧
        u.fab.zAbsent.testBit z = true ∧ u.mem = s.mem ∧ u.tiles = s.tiles ∧
        (s.rd F.GLB_COORD_Z [] < 9 → s.on F.RT_BRINGUP_Z_CLASH [] = false → s.fab.zAbsent < 512 →
          (∀ y < 9, s.zSees y = true ∨ s.fab.zAbsent.testBit y = true ∨ y = z.val) →
          u.fab.zFormed = true ∧ u.rd F.RT_BRINGUP_Z_PRESENT [] = zMask s.zSees)))

/-- R486 to R488: a forwarded request of a read of a plain register or of a write of memory is performed once and answered
with its status and data; a repeat of one whose answer is kept is answered again and not performed again; one from another
rack is answered NO_ROUTE. An answer ends the request that waits for it on its stylus port; no answer in time repeats the
request, or ends it with TIMEOUT after four repeats. Completion: on these premises Sys2Proof.Machine.exec answers a next
state for mgtReqReceive, mgtRspReceive, mgtReqRepeat. -/
def Obligations.ForwardedRequests : Prop :=
  ∀ (s : State), s.ready →
    (∀ (bytes : List Byte) (p : Pkt), s.hears kMGTREQ bytes p → s.sys.fwRuns = true →
      let tag := fieldOf p.arg 4 16
      let answer (u : State) (status : Nat) (data : List Byte) : Prop := ∃ q, u.todo = [.inject 0 q none] ∧ q.kind = kMGTRSP ∧
        q.dst = p.src ∧ fieldOf q.arg 4 16 = tag ∧ fieldOf q.arg 21 8 = status ∧ q.payload = data
      let fresh := (∀ k ∈ s.stylus.kept, ¬(k.src = p.src ∧ k.tag = tag)) ∧ (p.src, tag) ∉ s.stylus.slots ∧ s.stylus.slots.length < 256
      (∀ k, s.stylus.kept.find? (fun r => r.src == p.src && r.tag == tag) = some k → fieldOf k.arg 4 16 = tag →
        ∃ u, Does (.mgtReqReceive bytes Ecc.clean) s (s.after u) ∧ u = { s with todo := u.todo } ∧
          answer u (fieldOf k.arg 21 8) k.data) ∧
      (fresh → p.src / 1024 ≠ s.switchId / 16 → ∃ u, Does (.mgtReqReceive bytes Ecc.clean) s (s.after u) ∧
        u = { s with stylus := u.stylus, todo := u.todo } ∧ answer u 7 []) ∧
      (fresh → p.src / 1024 = s.switchId / 16 →
        (∀ r idx, p.arg % 16 = 1 → s.reach p.addr 8 = .reg r idx → r ≠ .bpAlloc → (s.regRead r idx).2 = s →
          ∃ u, Does (.mgtReqReceive bytes Ecc.clean) s (s.after u) ∧ u = { s with stylus := u.stylus, todo := u.todo } ∧
            answer u 0 (leBytes 8 (s.regRead r idx).1) ∧
            ∃ k ∈ u.stylus.kept, k.src = p.src ∧ k.tag = tag ∧ k.data = leBytes 8 (s.regRead r idx).1) ∧
        (p.arg % 16 = 3 → s.reach p.addr p.payload.length = .mem → s.mem.wf = true →
          ∃ u, Does (.mgtReqReceive bytes Ecc.clean) s (s.after u) ∧
            u = { s with stylus := u.stylus, todo := u.todo, mem := u.mem, memPoison := u.memPoison } ∧ answer u 0 [] ∧
            u.mem.read p.addr p.payload.length = p.payload ∧ keepsOutside s u p.addr p.payload.length))) ∧
    (∀ f : FwdReq, s.stylus.fwd = [f] → s.stylus.backlog = [] →
      let done (t : State) (status : Nat) (data : List Byte) : Prop :=
        t = { s with stylus := { s.stylus with fwd := [] }, outbox := t.outbox } ∧
        t.outbox = s.outbox ++ [.stylus f.port (if f.isRead then 2 else 4) 0 f.tag data.length status 0 data]
      (∀ bytes p, s.hears kMGTRSP bytes p → f.tag = fieldOf p.arg 4 16 → f.port = fieldOf p.arg 20 1 → f.target = p.src / 64 →
        s.stylusUp f.port = true → (f.isRead = true ∨ f.ackreq = true) → s.bp.waits = [] →
        let status := fieldOf p.arg 21 8
        ∃ t, Does (.mgtRspReceive bytes) s t ∧ done t status (if status = 0 then p.payload else [])) ∧
      (∀ (port : Fin 2) (tag : BitVec 16), f.port = port → f.tag = tag.toNat →
        (f.sends < 5 → ∃ u q, Does (.mgtReqRepeat port tag) s (s.after u) ∧
          u = { s with stylus := { s.stylus with fwd := [{ f with sends := f.sends + 1 }] }, todo := [.inject 0 q none] } ∧
          q.kind = kMGTREQ ∧ q.dst = f.target * 64 + 39 ∧ q.payload = f.data ∧ q.addr = f.addr % 2 ^ 54) ∧
        (5 ≤ f.sends → s.stylusUp port = true → (f.isRead = true ∨ f.ackreq = true) → s.bp.waits = [] →
          ∃ t, Does (.mgtReqRepeat port tag) s t ∧ done t 6 [])))

/-- R599: the loss of the reference clock is an event, once, when the health block sees it, and its return none; neither
changes the count. While the ROM boots the loss is kept, and seen when firmware starts (log 40). -/
def Sys2Proof.Claim.TimeBase : Prop :=
  ∀ (s : State), s.ready →
    (s.sys.crefLost = true → Does .crefLoss s s) ∧
    (s.sys.crefLost = false → s.sys.fwRuns = false → Does .crefLoss s { s with sys := { s.sys with crefLost := true } }) ∧
    (s.sys.crefLost = false → s.sys.fwRuns = true → ∃ t, Does .crefLoss s t ∧ tells { s with sys := { s.sys with crefLost := true } } t 0 [] ∧
      lastEvent t .gcStatus []) ∧
    Does .crefReturn s { s with sys := { s.sys with crefLost := false } }

/-- R531 to R534, R536: synchronisation. A switch that takes part sends a TIME request on every listening port and keeps
what it asked, a parent that did not answer puts it in holdover, and one that becomes or stays master is synchronised; one
that does not take part asks nothing. A request is answered at once under its own exchange number; a response to the
request outstanding on its port is taken as the neighbour's report, and one from the parent ends holdover. Holdover beyond
its time clears SYNCED, unless the switch is master. -/
def Sys2Proof.Claim.TimeSynchronisation : Prop :=
  ∀ (s : State), s.ready →
    (s.timeOn = true → ∃ t, Does .timeExchangeTimer s t ∧ t.time.reqs.map (·.port) = s.timePorts ∧
      (∀ p ∈ s.timePorts, ∃ (q : Pkt) (r : TimeReq), goesOn t t.outbox p q ∧ q.kind = kTIME ∧ leAt q.payload 0 1 = 1 ∧
        r ∈ t.time.reqs ∧ r.port = p ∧ r.num = q.chunk) ∧
      t.mem = s.mem ∧ t.tiles = s.tiles ∧ t.cs = s.cs ∧ t.count = s.count ∧
      (t.rd F.GC_STATUS_MASTER [] = 1 → t.rd F.GC_STATUS_SYNCED [] = 1 ∧ t.rd F.GC_STATUS_HOLDOVER [] = 0 ∧
        t.rd F.GC_STATUS_HOPS [] = 0 ∧ t.rd F.GC_STATUS_MASTER_ID [] = s.switchId) ∧
      (s.rd F.GC_STATUS_PARENT [] ∈ s.time.reqs.map (·.port) → t.rd F.GC_STATUS_MASTER [] = 0 → t.rd F.GC_STATUS_HOLDOVER [] = 1)) ∧
    (s.timeOn = false → ∃ t, Does .timeExchangeTimer s t ∧ t = { s with regs := t.regs, time := t.time } ∧
      regsBut s t [regAddr .gcStatus []] ∧ t.time.reqs = [] ∧ t.time.nbrs = [] ∧
      t.rd F.GC_STATUS_MASTER [] = 0 ∧ t.rd F.GC_STATUS_PARENT [] = 0x1F ∧ t.rd F.GC_STATUS_HOPS [] = 0xFF) ∧
    (∀ (port : Fin 26) (bytes : List Byte) (p : Pkt), onLink s port kTIME bytes p → p.payload.length = 48 →
      let unchanged (c : Instr) : Prop := ∃ t, Does c s t ∧ t = { s with fab := { s.fab with link := t.fab.link } }
      (leAt p.payload 0 1 = 1 →
        (s.timeOn = true → ∃ (t : State) (q : Pkt), Does (.timeRequestReceive port bytes) s t ∧
          t = { s with regs := t.regs, faults := t.faults, stylus := t.stylus, time := t.time, draws := t.draws,
                       fab := { s.fab with link := t.fab.link }, outbox := t.outbox } ∧
          t.time.reqs.map (·.port) = s.time.reqs.map (·.port) ∧
          goesOn t t.outbox port q ∧ q.kind = kTIME ∧ leAt q.payload 0 1 = 2 ∧ q.chunk = p.chunk ∧
          ((s.link port).mgmt = [] → q.cells ≤ s.creditLeft port (vcOf 6 0) → (s.link port).lpIdle = 0 → s.txLanes port ≠ 0 →
            t = { s with fab := { s.fab with link := t.fab.link }, draws := s.draws + 2, outbox := t.outbox } ∧
            t.outbox = s.outbox ++ [.packet port (vcOf 6 0) q.seal.encode])) ∧
        (s.timeOn = false → unchanged (.timeRequestReceive port bytes))) ∧
      (leAt p.payload 0 1 = 2 →
        ((∀ r ∈ s.time.reqs, ¬(r.port = port ∧ r.num = p.chunk)) → unchanged (.timeResponseReceive port bytes)) ∧
        ((∃ r ∈ s.time.reqs, r.port = port ∧ r.num = p.chunk) → ∃ t n, Does (.timeResponseReceive port bytes) s t ∧
          n ∈ t.time.nbrs ∧ n.port = port ∧ n.id = p.src / 64 ∧ n.hops = leAt p.payload 2 1 ∧
          n.master = leAt p.payload 4 2 % 1024 ∧ n.synced = (leAt p.payload 1 1).testBit 0 ∧
          (∀ r ∈ t.time.reqs, r.port ≠ port) ∧ (∀ m ∈ s.time.nbrs, m.port ≠ port → m ∈ t.time.nbrs) ∧
          t.mem = s.mem ∧ t.tiles = s.tiles ∧ t.cs = s.cs ∧ t.fab = { s.fab with link := t.fab.link } ∧
          (t.rd F.GC_STATUS_PARENT [] = port → t.rd F.GC_STATUS_HOLDOVER [] = 0)))) ∧
    (s.on F.GC_STATUS_SYNCED [] = true → s.on F.GC_STATUS_MASTER [] = false → ∃ t, Does .holdoverExpire s t ∧
      tells { s with time := { s.time with good := 0 } } t 0 [regAddr .gcStatus []] ∧ t.rd F.GC_STATUS_SYNCED [] = 0 ∧
      t.rd F.GC_STATUS_CHANGED [] = 1 ∧ lastEvent t .gcStatus []) ∧
    ((s.on F.GC_STATUS_SYNCED [] = false ∨ s.on F.GC_STATUS_MASTER [] = true) → Does .holdoverExpire s s)
namespace Sys2Proof.Claim
/-- The bytes of a flit. -/
def flitBytes (flit : BitVec 256) : List Byte := leBytes 32 flit.toNat

/-- The rows that bring a control flit, with its TYPE (R390). -/
def flitRows (port : Fin 26) (flit : BitVec 256) : List (Instr × Nat) :=
  [(.idleFlit port flit, 0), (.creditLo port flit, 1), (.creditHi port flit, 2), (.retryFlit port flit, 3),
   (.widthFlit port flit, 4), (.testFlit port flit, 5), (.lpiFlit port flit, 6)]

/-- A control flit of a TYPE whose CHK is good (R390). -/
def flitOk (bytes : List Byte) (ty : Nat) : Prop :=
  leAt bytes 0 2 = 0x03C0 + ty ∧ crc8 (bytes.take 31) = leAt bytes 31 1

/-- `t` differs from `s` in the link of one port alone. -/
def onlyLink (s t : State) (port : Nat) : Prop :=
  t = { s with fab := { s.fab with link := t.fab.link } } ∧ ∀ k, k ≠ port → t.link k = s.link k

/-- `t` differs from `s` in the link of one port, registers, what an event changes, and what left the switch. -/
def linkAndRegs (s t : State) (port : Nat) : Prop :=
  t = { s with regs := t.regs, faults := t.faults, stylus := t.stylus, outbox := t.outbox,
               fab := { s.fab with link := t.fab.link }, todo := t.todo } ∧
  ∀ k, k ≠ port → t.link k = s.link k

/-- Between two states a lane's line shows what its generator and its injection do, if that has changed (R399, R401). -/
def shows (s t : State) (lane : Nat) : Prop :=
  t.outbox = s.outbox ++ (if t.laneGen lane = s.laneGen lane ∧ t.laneInject lane = s.laneInject lane then []
    else [.lane lane (t.laneGen lane) (t.laneInject lane)])

/-- A self-test has taken a port lane (R400). -/
def taken (s : State) (port k : Nat) : Bool := (Tbl.find k (s.link port).tests).isSome

/-- `t` differs from `s` in one lane's line and registers, of those the ones at these addresses alone. -/
def laneMoves (s t : State) (lane : Nat) (as : List Nat) : Prop :=
  t = { s with regs := t.regs, outbox := t.outbox } ∧ regsBut s t as ∧ shows s t lane

/-- The number of port lanes in a mask that pass a test. -/
def lanesThat (port : Nat) (p : Nat → Bool) : Nat := ((List.range (portLanes port)).filter p).length

/-- A port frame of one lane at least whose every lane frame of the receive mask is there, corrected without loss, marked
and numbered as expected (R384, R385). -/
def frameGood (s : State) (port : Nat) (frames : List LaneFrame) : Prop :=
  (∃ k < portLanes port, (s.link port).rxMask.testBit k = true) ∧
  ∀ k < portLanes port, (s.link port).rxMask.testBit k = true → ∃ f, frames.find? (fun f => f.lane == k) = some f ∧
    (LaneFrame.decode f).lost = 0 ∧ markerOk (LaneFrame.decode f) = true ∧ markerSeq (LaneFrame.decode f) = (s.link port).rxNext

/-- The bytes that a port frame puts behind those left of the one before (R386). -/
def frameStream (s : State) (port : Nat) (frames : List LaneFrame) : List Byte :=
  (s.link port).rxPart ++ dealWords ((((List.range (portLanes port)).filter (fun k => (s.link port).rxMask.testBit k)).filterMap
    (fun k => frames.find? (fun f => f.lane == k))).map (fun f => (LaneFrame.decode f).bytes))

/-- The moves of an Ethernet port (R417): the event, the state that it needs, the state that it leads to. -/
def ethRows (s : State) (e : Fin 4) : List (Instr × Nat × Nat) :=
  let align := if s.on F.LINK_ETH_CFG_LT_EN [e] then eTRAINING else eALIGN
  [(.ethAnDone e true, eAN, align), (.ethLtDone e, eTRAINING, eALIGN), (.ethAlignLock e, eALIGN, eUP), (.ethLockLoss e, eUP, eFAULT),
   (.ethFaultRestart e, eFAULT, if s.ethMayRun e then (if s.on F.LINK_ETH_CFG_AN_EN [e] then eAN else align) else eOFF)]
end Sys2Proof.Claim

/-- R388, R390 to R394, R396, R400, R402, R511, R513: control flits. One whose CHK is bad, or in whose CHK a fault is
injected, is discarded and counted, whatever its TYPE. IDLE does nothing. CREDIT takes over every credit count that is not
behind the last, and the frames acknowledged, a replayed one among them. RETRY within reach and within its limit replays
from the frame it names, and narrows the port by a lane in use when it tells of a lost lane; beyond the limit the port
trains again. WIDTH announces a mask from a frame. TEST takes and gives back a lane, and the end that is asked takes the
lane from its transmit width. LPI asks, is answered and wakes: a group goes idle once both ends have found its queues
empty, and trains before it is back. -/
def Sys2Proof.Claim.ControlFlits : Prop :=
  ∀ (port : Fin 26) (flit : BitVec 256) (s : State), listens s port →
    let b := flitBytes flit
    let l := s.link port
    (∀ j, s.faults.inject = some j → j.checker = 0x0C → j.die = portDie port → j.index = port.val → 0 < j.left →
      s.inReset 4 port = false → ∀ row ∈ flitRows port flit, leAt b 0 2 = 0x03C0 + row.2 →
      roomy s F.LINK_CNT_COUNT [port, 7] 1 → ∃ t, Does row.1 s t ∧
        t = { s with regs := t.regs, faults := { s.faults with
          inject := if j.left = 1 then none else some { j with left := j.left - 1 } } } ∧
        regsBut s t [regAddr .linkCnt [port, 7], regAddr .fltInject []] ∧ counted s t F.LINK_CNT_COUNT [port, 7] 1) ∧
    (s.faults.inject = none →
    (∀ row ∈ flitRows port flit, leAt b 0 2 = 0x03C0 + row.2 → crc8 (b.take 31) ≠ leAt b 31 1 →
      roomy s F.LINK_CNT_COUNT [port, 7] 1 → ∃ t, Does row.1 s t ∧ alters s t [regAddr .linkCnt [port, 7]] ∧
        counted s t F.LINK_CNT_COUNT [port, 7] 1) ∧
    (flitOk b 0 → Does (.idleFlit port flit) s s) ∧
    (∀ row ∈ [(Instr.creditLo port flit, 1, 0), (Instr.creditHi port flit, 2, 12)], flitOk b row.2.1 →
      ∃ t, Does row.1 s t ∧ onlyLink { s with outbox := t.outbox, draws := t.draws, time := t.time } t port ∧
        (∀ i < 12, Tbl.look 0 (t.link port).txC (row.2.2 + i) =
          (if behind (leAt b (4 + 2 * i) 2) (Tbl.look 0 l.txC (row.2.2 + i)) then Tbl.look 0 l.txC (row.2.2 + i)
           else leAt b (4 + 2 * i) 2)) ∧
        (∀ v, (v < row.2.2 ∨ row.2.2 + 12 ≤ v) → Tbl.look 0 (t.link port).txC v = Tbl.look 0 l.txC v) ∧
        (let ack := (leAt b 2 2 + 1) % 2 ^ 16
         (behind ack l.acked = false → (t.link port).acked = ack ∧
           (t.link port).lastReplay = l.lastReplay.filter (fun r => !behind r.1 ack) ∧
           (l.mgmt = [] → (t.link port).sent = l.sent.filter (fun u => !behind u.1 ack))) ∧
         (behind ack l.acked = true → (t.link port).acked = l.acked ∧ (l.mgmt = [] → (t.link port).sent = l.sent))) ∧
        (l.mgmt = [] → (t.link port).txS = l.txS ∧ t.outbox = s.outbox ∧ t.draws = s.draws ∧ t.time = s.time) ∧ (t.link port).rxC = l.rxC ∧ (t.link port).rxNext = l.rxNext) ∧
    (flitOk b 3 →
      let f := leAt b 2 2
      let n := match l.lastReplay with | some (g, k) => if g = f then k else 0 | none => 0
      let near := (s.lastFrame port + 2 ^ 16 - f) % 2 ^ 16 < 12 ∧ behind f l.acked = false
      (near → n < max 1 (s.rd F.LINK_PORT_CFG_RETRY_LIMIT [port]) → leAt b 4 1 = 2 → (∃ k < portLanes port, l.announced.testBit k = true) →
        ∃ u k, Does (.retryFlit port flit) s (s.after u) ∧ linkAndRegs { s with draws := s.draws + 1 } u port ∧
          k < portLanes port ∧ l.announced.testBit k = true ∧ (u.link port).announced = maskMinus l.announced (2 ^ k) ∧
          (u.link port).rxMask = l.rxMask ∧ (u.link port).lastReplay = some (f, n + 1) ∧
          Emit.replay port f (l.sent.filter (fun u => !behind u.1 f)) ∈ u.outbox) ∧
      (near → n < max 1 (s.rd F.LINK_PORT_CFG_RETRY_LIMIT [port]) → leAt b 4 1 ≠ 2 → roomy s F.LINK_CNT_COUNT [port, 4] 1 →
        ∃ t, Does (.retryFlit port flit) s t ∧ linkAndRegs s t port ∧ t.outbox = s.outbox ++ [.replay port f (l.sent.filter (fun u => !behind u.1 f))] ∧
          regsBut s t [regAddr .linkCnt [port, 4]] ∧ counted s t F.LINK_CNT_COUNT [port, 4] 1 ∧
          (t.link port).lastReplay = some (f, n + 1) ∧ (t.link port).txStart = (s.lastFrame port + 1) % 2 ^ 16 ∧
          (t.link port).txBase = (t.link port).replayUntil ∧ s.now < (t.link port).replayUntil ∧ (t.link port).sent = l.sent) ∧
      ((¬near ∨ max 1 (s.rd F.LINK_PORT_CFG_RETRY_LIMIT [port]) ≤ n) → s.roleIdles port = false →
        ∃ u, Does (.retryFlit port flit) s (s.after u) ∧ u.portState port = pTRAINING ∧ u.link port = LinkPort.fresh ∧
          u.mem = s.mem ∧ u.tiles = s.tiles)) ∧
    (flitOk b 4 → ∃ t, Does (.widthFlit port flit) s t ∧ onlyLink s t port ∧
      t.link port = { l with rxWidths := l.rxWidths ++ [(leAt b 2 2, leAt b 4 4)] }) ∧
    (flitOk b 5 → leAt b 2 1 < portLanes port →
      let j := leAt b 2 1
      let k := portLane port + j
      let pat := leAt b 4 1 % 4
      (leAt b 3 1 = 1 → s.laneState k = 2 → taken s port j = false → ∃ t, Does (.testFlit port flit) s t ∧ linkAndRegs s t port ∧
        t.laneState k = 2 ∧ Tbl.find j (t.link port).tests = some pat ∧
        (t.link port).announced = maskMinus l.announced (2 ^ j) ∧ (t.link port).rxMask = l.rxMask ∧
        Emit.flit port (ctrlFlit 5 (leBytes 1 j ++ leBytes 1 1 ++ leBytes 1 pat)) ∈ t.outbox) ∧
      (leAt b 3 1 = 1 → s.laneState k ≠ 2 ∨ taken s port j = true → Does (.testFlit port flit) s s) ∧
      (leAt b 3 1 = 0 → taken s port j = true → ∃ t, Does (.testFlit port flit) s t ∧
        laneMoves s t k [regAddr .laneStatus [k]] ∧ t.laneState k = 1) ∧
      (leAt b 3 1 = 0 → taken s port j = false → Does (.testFlit port flit) s s)) ∧
    (flitOk b 6 →
      let g := leAt b 2 1 % 16
      let answer (k : Nat) : Emit := .flit port (ctrlFlit 6 (leBytes 1 g ++ leBytes 1 k))
      let replies (k : Nat) : Prop := ∃ t, Does (.lpiFlit port flit) s t ∧ onlyLink { s with outbox := t.outbox } t port ∧
        t.outbox = s.outbox ++ [answer k] ∧ (t.link port).lpIdle = l.lpIdle ∧ (t.link port).announced = l.announced
      let idles (u : State) : Prop := linkAndRegs s u port ∧ (u.link port).lpIdle = l.lpIdle ||| g ∧ (u.link port).lpReq = 0 ∧
        (u.link port).announced = maskMinus l.announced (groupLanes port g) ∧ (u.link port).rxMask = l.rxMask
      (leAt b 3 1 = 1 → s.groupsIdle port g = false → replies 3) ∧
      (leAt b 3 1 = 1 → s.groupsIdle port g = true → ∃ u, Does (.lpiFlit port flit) s (s.after u) ∧ idles u ∧ answer 2 ∈ u.outbox) ∧
      (leAt b 3 1 = 2 → l.lpReq = g → g ≠ 0 → s.groupsIdle port g = true → ∃ u, Does (.lpiFlit port flit) s (s.after u) ∧ idles u) ∧
      (leAt b 3 1 = 2 → l.lpReq = g → g ≠ 0 → s.groupsIdle port g = false → replies 4) ∧
      (leAt b 3 1 = 2 → (l.lpReq ≠ g ∨ g = 0) → Does (.lpiFlit port flit) s s) ∧
      (leAt b 3 1 = 3 → ∃ t, Does (.lpiFlit port flit) s t ∧ onlyLink s t port ∧ t.link port = { l with lpReq := 0 }) ∧
      (leAt b 3 1 = 4 → ∃ t, Does (.lpiFlit port flit) s t ∧ s.onlyRegs t ∧
        ∀ i < portTiles port, l.lpIdle.testBit i = true → g.testBit i = true → t.pwrState (portTile port + i) = 3 ∧
          ∀ k, k / 8 = portTile port + i → k ∈ lanesOf port → (s.laneState k = 4 ∨ s.laneState k = 5) → t.laneState k = 1)))

/-- R384 to R387, R391, R392, R395, R400, R411: a good port frame whose stream holds IDLE flits alone moves the expected
frame number on and keeps what is left of the stream; an active lane that neither direction uses any more is then under
test, where a self-test has taken it, or idle, where EN is 0; one with a lane frame missing makes the receiver ask for a
replay and wait for it. While it waits the request is repeated with its cause; while a credit count has changed both
CREDIT flits are sent. -/
def Sys2Proof.Claim.PortFrames : Prop :=
  ∀ (port : Fin 26) (s : State), listens s port →
    let l := s.link port
    (∀ frames : List LaneFrame, l.rxWidths = [] → l.rxRetry = false →
      (frameGood s port frames → (∀ f ∈ frames, (LaneFrame.decode f).flips = 0 ∧ (LaneFrame.decode f).corrected = 0 ∧ (LaneFrame.decode f).lost = 0) →
        let bs := frameStream s port frames
        (∀ i, 32 * i + 32 ≤ bs.length → flitOk ((bs.drop (32 * i)).take 32) 0) →
        s.faults.inject = none →
        ∃ t, Does (.portFrameReceive port frames) s t ∧
          t = { s with regs := t.regs, fab := { s.fab with link := t.fab.link }, outbox := t.outbox } ∧
          (∀ k < portLanes port, s.laneState (portLane port + k) = 2 → s.laneUnused port (portLane port + k) = true →
            (taken s port k = true → t.laneState (portLane port + k) = 3) ∧
            (taken s port k = false → s.on F.LANE_CTRL_EN [portLane port + k] = false → t.laneState (portLane port + k) = 4)) ∧
          (t.link port).rxNext = (l.rxNext + 1) % 2 ^ 16 ∧ (t.link port).rxRetry = false ∧
          (t.link port).rxPart = bs.drop (bs.length / 32 * 32) ∧ (t.link port).txC = l.txC ∧
          ∀ k, k ≠ port.val → t.link k = s.link k) ∧
      ((∃ k < portLanes port, l.rxMask.testBit k = true ∧ ∀ f ∈ frames, f.lane ≠ k) →
        ∃ u c, Does (.portFrameReceive port frames) s (s.after u) ∧ (u.link port).rxRetry = true ∧
          (u.link port).rxNext = l.rxNext ∧ (u.link port).txC = l.txC ∧
          Emit.flit port (ctrlFlit 3 (leBytes 2 l.rxNext ++ leBytes 1 c)) ∈ u.outbox ∧ u.mem = s.mem ∧ u.tiles = s.tiles)) ∧
    (l.rxRetry = true → roomy s F.LINK_CNT_COUNT [port, 3] 1 → ∃ t, Does (.retryRepeatTimer port) s t ∧ linkAndRegs s t port ∧
      t.outbox = s.outbox ++ [.flit port (ctrlFlit 3 (leBytes 2 l.rxNext ++ leBytes 1 l.rxCause))] ∧
      t.link port = { l with sent := (t.link port).sent } ∧
      regsBut s t [regAddr .linkCnt [port, 3]] ∧ counted s t F.LINK_CNT_COUNT [port, 3] 1) ∧
    (l.rxRetry = false → Does (.retryRepeatTimer port) s s) ∧
    (l.rxChanged = true → ∃ t a b, Does (.creditFlitTimer port) s t ∧ onlyLink { s with outbox := t.outbox } t port ∧
      t.link port = { l with rxChanged := false, sent := (t.link port).sent } ∧ t.outbox = s.outbox ++ [.flit port a, .flit port b] ∧
      flitOk a 1 ∧ flitOk b 2 ∧ (∀ i < 12, leAt a (4 + 2 * i) 2 = Tbl.look 0 l.rxC i % 2 ^ 16 ∧
        leAt b (4 + 2 * i) 2 = Tbl.look 0 l.rxC (12 + i) % 2 ^ 16)) ∧
    (l.rxChanged = false → Does (.creditFlitTimer port) s s)

/-- R397, R399, R400, R411, R414, R513: lanes and training. Training ends with the lanes that pass active and the port in
MGMT, or HELD for want of lanes. An active lane that is lost leaves the receive width at once, and a replay is asked for,
which tells the other end to narrow the port. A self-test of an idle lane, of one under test, or of one whose port would
be left with too few, ends at once with its result; else the lane leaves the transmit width by a WIDTH flit, and comes
back when the test has run. RETRAIN trains the port again; EN admits and removes a lane, an Ethernet port's too: a removed
lane in use leaves the transmit width first, one under test ends it. Completion: on these premises Sys2Proof.Machine.exec
answers a next state for laneLost, trainingDone, laneSelftest, laneSelftestDone, linkRetrainCmd, laneCtrlEnWrite. -/
def Obligations.LanesAndTraining : Prop :=
  (∀ (port : Fin 26) (lanes : BitVec 32) (s : State), s.ready →
    let good (k : Nat) : Bool := lanes.getLsbD k && s.on F.LANE_CTRL_EN [portLane port + k]
    (s.portState port ≠ pTRAINING → Does (.trainingDone port lanes) s s) ∧
    (s.portState port = pTRAINING →
      let lanesSet (t : State) : Prop := ∀ k < portLanes port, t.laneState (portLane port + k) =
        (if good k then 2 else if s.on F.LANE_CTRL_EN [portLane port + k] then 6 else 0)
      (lanesThat port good < s.rd F.LINK_PORT_CFG_MIN_LANES [port] → ∃ u, Does (.trainingDone port lanes) s (s.after u) ∧
        linkAndRegs s u port ∧ u.portState port = pHELD ∧ u.rd F.RT_PORT_CAUSE [port] = 4 ∧ lanesSet u) ∧
      (s.rd F.LINK_PORT_CFG_MIN_LANES [port] ≤ lanesThat port good → ∃ t, Does (.trainingDone port lanes) s (s.after t) ∧
        linkAndRegs s t port ∧ t.portState port = pMGMT ∧ lanesSet t ∧
        (∀ k < 32, (t.link port).rxMask.testBit k = (decide (k < portLanes port) && good k)) ∧
        (t.link port).txMask = (t.link port).rxMask ∧ (∀ v < 24, Tbl.look 0 (t.link port).rxC v = rxAlloc port v) ∧
        t.rd F.LINK_PORT_STATUS_ACTIVE [port] = lanesThat port good))) ∧
  (∀ (port : Fin 26) (s : State), s.ready → s.reaches .linkPortCfg [port] → s.fabricPort port = true → s.roleIdles port = false →
    ∃ u, Does (.linkRetrainCmd port) s (s.after u) ∧ u.portState port = pTRAINING ∧ u.link port = LinkPort.fresh ∧
      (∀ k < portLanes port, u.laneState (portLane port + k) = if s.on F.LANE_CTRL_EN [portLane port + k] then 1 else 0) ∧
      u.mem = s.mem ∧ u.tiles = s.tiles ∧ ∀ k, k ≠ port.val → u.portState k = s.portState k ∧ u.link k = s.link k) ∧
  (∀ (lane : Fin 512) (s : State), s.ready →
    let port := lanePort lane
    let k := lane.val - portLane port
    let l := s.link port
    let live := s.portState port = pMGMT ∨ s.portState port = pUP
    (s.fabricPort port = false ∨ ¬live ∨ s.laneState lane ≠ 2 → Does (.laneLost lane) s s) ∧
    (s.fabricPort port = true → live → s.laneState lane = 2 → ∃ u, Does (.laneLost lane) s (s.after u) ∧ linkAndRegs s u port ∧ u.laneState lane = 6 ∧
      (u.link port).rxMask = maskMinus l.rxMask (2 ^ k) ∧ (u.link port).announced = l.announced ∧ taken u port k = false ∧
      (u.link port).rxRetry = true ∧ (u.link port).rxCause = 2 ∧ Emit.flit port (ctrlFlit 3 (leBytes 2 l.rxNext ++ leBytes 1 2)) ∈ u.outbox) ∧
    (s.reaches .lanePrbs [lane] → s.rd F.LANE_PRBS_RESULT [lane] ≠ 1 →
      let gives (n : Nat) : Prop := ∃ t, Does (.laneSelftest lane) s t ∧ s.onlyReg t .lanePrbs [lane] ∧
        t.rd F.LANE_PRBS_RESULT [lane] = n
      (s.laneState lane ≠ 2 ∨ taken s port k = true → gives 3) ∧
      (s.laneState lane = 2 → taken s port k = false → maskCount l.rxMask ≤ 1 → gives 2) ∧
      (s.laneState lane = 2 → taken s port k = false → 1 < maskCount l.rxMask → s.lanesEnough port (maskMinus l.rxMask (2 ^ k)) = false → gives 4) ∧
      (s.laneState lane = 2 → taken s port k = false → 1 < maskCount l.rxMask → s.lanesEnough port (maskMinus l.rxMask (2 ^ k)) = true →
        ∃ u, Does (.laneSelftest lane) s u ∧ linkAndRegs s u port ∧ u.rd F.LANE_PRBS_RESULT [lane] = 1 ∧
          u.laneState lane = 2 ∧ Tbl.find k (u.link port).tests = some (s.rd F.LANE_PRBS_PATTERN [lane]) ∧ (u.link port).announced = maskMinus l.announced (2 ^ k) ∧ (u.link port).rxMask = l.rxMask ∧
          Emit.flit port (ctrlFlit 5 (leBytes 1 k ++ leBytes 1 1 ++ leBytes 1 (s.rd F.LANE_PRBS_PATTERN [lane]))) ∈ u.outbox)) ∧
    (∀ errors : Word, s.fabricPort port = true → live → (s.laneState lane = 1 ∨ taken s port k = true) →
      ∃ t, Does (.laneSelftestDone lane errors) s t ∧ linkAndRegs s t port ∧ t.laneState lane = 2 ∧ taken t port k = false ∧
        t.rd F.LANE_PRBS_ERR_ERRORS [lane] = satAdd 64 (s.rd F.LANE_PRBS_ERR_ERRORS [lane]) errors.toNat ∧
        (t.link port).announced = l.announced ||| 2 ^ k ∧ (t.link port).rxMask = l.rxMask ∧
        (s.rd F.LANE_PRBS_RESULT [lane] = 1 → t.rd F.LANE_PRBS_RESULT [lane] = 4) ∧
        (∀ pat, Tbl.find k l.tests = some pat → s.laneState lane ≠ 1 →
          Emit.flit port (ctrlFlit 5 (leBytes 1 k ++ leBytes 1 0 ++ leBytes 1 pat)) ∈ t.outbox)) ∧
    (∀ en : Bool, s.reaches .laneCtrl [lane] →
      (s.on F.LANE_CTRL_EN [lane] = en → ∃ t, Does (.laneCtrlEnWrite lane en) s t ∧ s.onlyReg t .laneCtrl [lane] ∧
        t.on F.LANE_CTRL_EN [lane] = en) ∧
      (s.fabricPort port = true →
        (s.on F.LANE_CTRL_EN [lane] = false → en = true → live → (s.laneState lane = 0 ∨ s.laneState lane = 4) →
          l.lpIdle.testBit (k / 8) = false → ∃ t, Does (.laneCtrlEnWrite lane en) s t ∧
          alters s t [regAddr .laneCtrl [lane], regAddr .laneStatus [lane]] ∧ t.on F.LANE_CTRL_EN [lane] = true ∧ t.laneState lane = 1) ∧
        (s.on F.LANE_CTRL_EN [lane] = false → en = true → live → s.laneState lane = 2 → taken s port k = false →
          l.lpIdle.testBit (k / 8) = false → ∃ t, Does (.laneCtrlEnWrite lane en) s t ∧ linkAndRegs s t port ∧
          t.on F.LANE_CTRL_EN [lane] = true ∧ t.laneState lane = 2 ∧ (t.link port).announced = l.announced ||| 2 ^ k) ∧
        (s.on F.LANE_CTRL_EN [lane] = true → en = false → live → s.laneState lane = 2 → taken s port k = false →
          ∃ u, Does (.laneCtrlEnWrite lane en) s (s.after u) ∧ linkAndRegs s u port ∧ u.on F.LANE_CTRL_EN [lane] = false ∧
          (u.link port).announced = maskMinus l.announced (2 ^ k) ∧ (u.link port).rxMask = l.rxMask ∧
          u.laneState lane = (if s.laneUnused port lane then 4 else 2)) ∧
        (s.on F.LANE_CTRL_EN [lane] = true → en = false → live → s.laneState lane ≠ 2 → ∀ pat, Tbl.find k l.tests = some pat →
          ∃ t, Does (.laneCtrlEnWrite lane en) s t ∧ linkAndRegs s t port ∧ t.laneState lane = 4 ∧ taken t port k = false ∧
          (t.link port).announced = l.announced ∧
          Emit.flit port (ctrlFlit 5 (leBytes 1 k ++ leBytes 1 0 ++ leBytes 1 pat)) ∈ t.outbox ∧
          (s.rd F.LANE_PRBS_RESULT [lane] = 1 → t.rd F.LANE_PRBS_RESULT [lane] = 4)) ∧
        (s.on F.LANE_CTRL_EN [lane] = true → en = false → ¬live → ∃ t, Does (.laneCtrlEnWrite lane en) s t ∧
          laneMoves s t lane [regAddr .laneCtrl [lane], regAddr .laneStatus [lane]] ∧ t.on F.LANE_CTRL_EN [lane] = false ∧
          t.laneState lane = 0)) ∧
      (s.fabricPort port = false → s.on F.LANE_CTRL_EN [lane] ≠ en → ∃ t, Does (.laneCtrlEnWrite lane en) s t ∧
        laneMoves s t lane [regAddr .laneCtrl [lane], regAddr .laneStatus [lane]] ∧ t.on F.LANE_CTRL_EN [lane] = en ∧
        t.laneState lane = (if en = false ∨ s.ethState (2 * (port - 24) + k / 8) = 0 then 0 else 1))))

/-- R405, R406, R408 to R410, R417, R418: Ethernet ports. Each event moves a port from the state that it needs to the next
one and in another state does nothing; a failed negotiation is shown, and shown until the one that follows it ends. A
frame is counted under the first check that it fails, a PFC frame pauses the priorities that it names, and a serving
datagram enters the switch as a SERVE packet. Completion: on these premises Sys2Proof.Machine.exec answers a next state
for ethFrameReceive, pfcQuantaExpire, ethAnDone, ethAnRetry, ethLtDone, ethAlignLock, ethLockLoss, ethFaultRestart. -/
def Obligations.EthernetPorts : Prop :=
  ∀ (e : Fin 4) (s : State), s.ready → s.fabricPort (ethUplink e) = false →
    (∀ row ∈ ethRows s e, (s.ethState e ≠ row.2.1 → Does row.1 s s) ∧
      (s.ethState e = row.2.1 → ∃ u, Does row.1 s (s.after u) ∧ u.ethState e = row.2.2 ∧
        (∀ k < 8, u.laneState (8 * ethTile e + k) =
          if row.2.2 = eOFF ∨ s.on F.LANE_CTRL_EN [8 * ethTile e + k] = false then 0 else if row.2.2 = eUP then 2 else 1) ∧
        (∀ f, f < 4 → f ≠ e.val → u.ethState f = s.ethState f) ∧ u.mem = s.mem ∧ u.tiles = s.tiles ∧ u.cs = s.cs ∧
        (row.2.2 = eFAULT → u.rd F.LINK_ETH_STATUS_DOWN_COUNT [e] = satAdd 16 (s.rd F.LINK_ETH_STATUS_DOWN_COUNT [e]) 1))) ∧
    (s.ethState e = eAN → ∃ t, Does (.ethAnDone e false) s t ∧ s.onlyReg t .linkEthStatus [e] ∧ t.ethState e = eAN ∧
      t.rd F.LINK_ETH_STATUS_AN_FAIL [e] = 1 ∧ t.rd F.LINK_ETH_STATUS_AN_DONE [e] = 0) ∧
    Does (.ethAnRetry e) s s ∧
    (∀ prio : Fin 8, ∃ t, Does (.pfcQuantaExpire e prio) s t ∧ t = { s with fab := { s.fab with eth := t.fab.eth } } ∧
      (t.ethPort e).xoff = (s.ethPort e).xoff ∧
      (∀ i < 8, (t.ethPort e).paused.testBit i = ((s.ethPort e).paused.testBit i && !decide (i = prio.val))) ∧
      ∀ f, f ≠ e.val → t.ethPort f = s.ethPort f) ∧
    (∀ frame : List Byte,
      let b := frame.take (frame.length - 4)
      let good := 64 ≤ frame.length ∧ fcs b = leAt frame (frame.length - 4) 4
      let q := ethParts b
      let room := ∀ n < 13, roomy s F.LINK_ETH_CNT_COUNT [e, n] (1 + frame.length)
      let counts (ns : List Nat) (t : State) : Prop :=
        regsBut s t (ns.map (fun n => regAddr .linkEthCnt [e, n])) ∧
        ∀ n ∈ ns, counted s t F.LINK_ETH_CNT_COUNT [e, n] (if n = 1 then frame.length else 1)
      let ends (n : Nat) : Prop := ∃ t, Does (.ethFrameReceive e frame) s t ∧ s.onlyRegs t ∧ counts [0, 1, n] t
      (s.ethState e ≠ eUP → Does (.ethFrameReceive e frame) s s) ∧
      (s.ethState e = eUP → room →
        (fcs b ≠ leAt frame (frame.length - 4) 4 → ∃ t, Does (.ethFrameReceive e frame) s t ∧ s.onlyRegs t ∧ counts [4] t) ∧
        (frame.length < 64 → fcs b = leAt frame (frame.length - 4) 4 → Does (.ethFrameReceive e frame) s s) ∧
        (good → 9216 < frame.length → ends 5) ∧
        (good → frame.length ≤ 9216 → q.2.1 = 0x8808 → beAt q.2.2 0 2 = 0x0001 → ends 11) ∧
        (good → frame.length ≤ 9216 → q.2.1 = 0x8808 → beAt q.2.2 0 2 = 0x0101 → ∃ t, Does (.ethFrameReceive e frame) s t ∧
          t = { s with regs := t.regs, fab := { s.fab with eth := t.fab.eth } } ∧ counts [0, 1, 9] t ∧
          ∀ i < 8, (t.ethPort e).paused.testBit i =
            (if beAt q.2.2 2 2 % 256 &&& s.rd F.LINK_ETH_CFG_PFC_RX_EN [e] |>.testBit i then
              decide (beAt q.2.2 (4 + 2 * i) 2 ≠ 0) else (s.ethPort e).paused.testBit i)) ∧
        (good → frame.length ≤ 9216 → ¬(q.2.1 = 0x8808 ∧ (beAt q.2.2 0 2 = 0x0001 ∨ beAt q.2.2 0 2 = 0x0101)) →
          (∀ n, s.serving e b = .inr n → ends n) ∧
          (∀ d, s.serving e b = .inl d → (s.rd F.LINK_ETH_CFG_PFC_TX_EN [e]).testBit (s.framePrio e b) = false →
            s.on F.TM_PMAP_EN [leadTile (ethUplink e), 7] = false →
            let h := d.drop 48
            let p := ({ Pkt.make kSERVE 7 (beAt h 4 2) (s.switchId * 64 + 16 + leAt h 6 1 % 16) with payload := d, flags := 1 } : Pkt).seal
            ∀ out pl, goesTo s (ethUplink e) 0 p out pl → ∃ t, Does (.ethFrameReceive e frame) s t ∧
              t = { s with regs := t.regs, fab := t.fab } ∧ counts [0, 1] t ∧
              queued s t (ethUplink e) p out pl 0 false))))
namespace Sys2Proof.Claim
/-- A transaction arrives whole on a stylus port that is UP and free (R464, R466, R470). -/
def arrives (s : State) (port : Nat) (bytes : List Byte) (x : Txn) : Prop :=
  s.ready ∧ s.stylusUp port = true ∧ Txn.parse bytes = some x ∧ s.portBusy port = false

/-- The rows that bring a transaction. -/
def stylusRows (port : Fin 2) (bytes : List Byte) : List Instr :=
  [.mrd port bytes Ecc.clean, .mwr port bytes, .dbSubmission port bytes, .dbCompletion port bytes, .wrackReceive port bytes]

/-- A completion ring takes one more record (R480, R482). -/
def cqOpen (s : State) (n : Nat) : Prop := s.on F.GLB_CQ_CFG_EN [n] = true ∧ s.cqFull n = false

/-- A record is on its way to a ring: sent where a port takes it, else it waits for one (R467, R472). -/
def posted (s t : State) (n w0 w1 : Nat) : Prop :=
  ∃ o i j, o.why = .record n i j ∧ o.data = leBytes 8 w0 ++ leBytes 8 w1 ∧
    (if s.stylusTakes (s.cqPort n) then o ∈ t.stylus.out ∧ Emit.stylus o.port 3 1 o.tag 16 0 o.addr o.data ∈ t.outbox
     else o ∈ t.stylus.wait)

/-- The management block's next entry: its ring, its address and its bytes, which lie in HBM or DDR5 and are sound and
well formed (R475, R477). -/
def nextEntry (s : State) (n : Nat) (b : List Byte) : Prop :=
  s.ready ∧ s.sys.fwRuns = true ∧ s.mgmtTurn = some n ∧ n < 4096 ∧
  (let a := s.rd F.GLB_SQ_BASE_BASE [n] + 32 * (s.rd F.GLB_SQ_IDX_HEAD [n] % ringEntries (s.rd F.GLB_SQ_CFG_ENTRIES_LOG2 [n]))
   (s.rangeWin a 32 = some .hbm ∨ s.rangeWin a 32 = some .ddr) ∧ sound s a 32 ∧ b = s.mem.read a 32) ∧ entryOk b = true

/-- `t` differs from `s` in registers, the rings' working state and what left the switch. -/
def ringsAndRegs (s t : State) : Prop :=
  t = { s with regs := t.regs, stylus := t.stylus, outbox := t.outbox }

/-- HEAD of a submission ring has advanced by one (R475). -/
def headNext (s t : State) (n : Nat) : Prop := t.rd F.GLB_SQ_IDX_HEAD [n] = (s.rd F.GLB_SQ_IDX_HEAD [n] + 1) % 65536

/-- Word 0 of the record of an entry (R479). -/
def entryWord (s : State) (n status : Nat) : Nat := n + 2 ^ 12 * s.rd F.GLB_SQ_IDX_HEAD [n] + 2 ^ 28 * status

/-- A register whose read changes nothing and whose reply does not come from the buffer pool manager. -/
def plainRead (s : State) (a : Nat) (r : RegName) (idx : List Nat) : Prop :=
  s.reach a 8 = .reg r idx ∧ r ≠ .bpAlloc ∧ (s.regRead r idx).2 = s

/-- A register that a write changes by its access codes alone (R6). -/
def plainWrite (s : State) (a : Nat) (r : RegName) (idx : List Nat) (v : Nat) : Prop :=
  s.reach a 8 = .reg r idx ∧ s.regWrite r idx v = s.swWrite r idx v
end Sys2Proof.Claim

/-- R466 to R472, R490, R562: requests of the control node. On a port that is down nothing is heard; a malformed
transaction is discarded and counted; behind a request in progress one waits; until requests are served one ends with
ISOLATED. A read answers RDCPL: with a status alone where an access fails, with zero for an unassigned address, with a
register's value, with the bytes of sound memory. A write stores, and answers WRACK where it was asked to; a failed posted
one is kept and counted (the counting is log 50). A request for another switch is forwarded, or ends with NO_ROUTE, or, a
read of a register that is not of its eight bytes, with ACCESS_ERROR (here, not at its target: log 48). -/
def Sys2Proof.Claim.StylusReadsAndWrites : Prop :=
  ∀ (port : Fin 2) (bytes : List Byte) (s : State), s.ready →
    (s.stylusUp port = false → ∀ c ∈ stylusRows port bytes, Does c s s) ∧
    (s.stylusUp port = true → Txn.parse bytes = none → roomy s F.GLB_STYLUS_CNT_COUNT [port, 0] 1 → ∀ c ∈ stylusRows port bytes,
      ∃ t, Does c s t ∧ alters s t [regAddr .glbStylusCnt [port, 0]] ∧ counted s t F.GLB_STYLUS_CNT_COUNT [port, 0] 1) ∧
    (∀ x, s.stylusUp port = true → Txn.parse bytes = some x → s.portBusy port = true →
      ∀ row ∈ [(Instr.mrd port bytes Ecc.clean, 1), (Instr.mwr port bytes, 3)], x.ty = row.2 →
      Does row.1 s { s with stylus := { s.stylus with backlog := s.stylus.backlog ++ [(port.val, bytes, Ecc.clean)] } }) ∧
    (∀ x, arrives s port bytes x → s.stylusServes = false → x.ty = 1 ∨ x.flags.testBit 0 = true →
      ∀ row ∈ [(Instr.mrd port bytes Ecc.clean, 1), (Instr.mwr port bytes, 3)], x.ty = row.2 →
      Does row.1 s { s with outbox := s.outbox ++ [.stylus port (if x.ty = 1 then 2 else 4) 0 x.tag 0 5 0 []] }) ∧
    (∀ x, arrives s port bytes x → x.ty = 1 → (x.flags.testBit 1 = false ∨ x.addr / 2 ^ 54 = s.switchId) →
      let a := x.at_
      let reply (status : Nat) (data : List Byte) : State :=
        { s with outbox := s.outbox ++ [.stylus port 2 0 x.tag data.length status 0 data] }
      (∀ st, s.reach a x.len = .fail st → Does (.mrd port bytes Ecc.clean) s (reply st [])) ∧
      (s.reach a x.len = .hole → Does (.mrd port bytes Ecc.clean) s (reply 0 (leBytes 8 0))) ∧
      (∀ r idx, plainRead s a r idx → x.len = 8 → Does (.mrd port bytes Ecc.clean) s (reply 0 (leBytes 8 (s.regRead r idx).1))) ∧
      (s.reach a x.len = .mem → sound s a x.len → Does (.mrd port bytes Ecc.clean) s (reply 0 (s.mem.read a x.len)))) ∧
    (∀ x, arrives s port bytes x → x.ty = 3 → (x.flags.testBit 1 = false ∨ x.addr / 2 ^ 54 = s.switchId) →
      let a := x.at_
      let acks (t : State) (status : Nat) : Prop :=
        t.outbox = s.outbox ++ (if x.flags.testBit 0 then [.stylus port 4 0 x.tag 0 status 0 []] else [])
      (∀ st, s.reach a x.data.length = .fail st → st ≠ 0 → st < 256 → roomy s F.GLB_STYLUS_CNT_COUNT [port, 0] 1 →
        ∃ t, Does (.mwr port bytes) s t ∧ t = { s with regs := t.regs, outbox := t.outbox } ∧ acks t st ∧
          (x.flags.testBit 0 = true → t.regs = s.regs) ∧
          (x.flags.testBit 0 = false → t.rd F.GLB_STYLUS_STATUS_LAST_ERR [port] = st ∧ t.rd F.GLB_STYLUS_ERR_ADDR [] = x.addr % 2 ^ 64 ∧
            counted s t F.GLB_STYLUS_CNT_COUNT [port, 0] 1)) ∧
      (s.reach a x.data.length = .hole → ∃ t, Does (.mwr port bytes) s t ∧ t = { s with outbox := t.outbox } ∧ acks t 0) ∧
      (∀ r idx, plainWrite s a r idx (leNat x.data) → x.data.length = 8 → ∃ t, Does (.mwr port bytes) s t ∧
        t = { s with regs := t.regs, outbox := t.outbox } ∧ acks t 0 ∧ regsBut s t [regAddr r idx] ∧
        t.rawReg r idx = swValue r.fields (s.rawReg r idx) (leNat x.data) % 2 ^ 64) ∧
      (s.reach a x.data.length = .mem → s.mem.wf = true → ∃ t, Does (.mwr port bytes) s t ∧
        t = { s with mem := t.mem, memPoison := t.memPoison, outbox := t.outbox } ∧ acks t 0 ∧
        t.mem.read a x.data.length = x.data ∧ keepsOutside s t a x.data.length)) ∧
    (∀ x, arrives s port bytes x → s.stylusServes = true → x.flags.testBit 1 = true → x.addr / 2 ^ 54 ≠ s.switchId →
      ∀ row ∈ [(Instr.mrd port bytes Ecc.clean, 1), (Instr.mwr port bytes, 3)], x.ty = row.2 →
      let target := x.addr / 2 ^ 54
      let known := s.validId target = true ∧ (Route.ofNat (s.rd F.RT_ENTRY_ENTRY [target * 64 + 39])).valid = true
      let a := x.addr % 2 ^ 54
      let short := x.ty = 1 ∧ (regWindow a (max 1 x.len)).isSome = true ∧ (x.len ≠ 8 ∨ a % 8 ≠ 0)
      (known → ¬short → ∃ u f q, Does row.1 s (s.after u) ∧
        u = { s with stylus := { s.stylus with fwd := s.stylus.fwd ++ [f] }, todo := [.inject 0 q none] } ∧
        f.tag = x.tag ∧ f.port = port ∧ f.target = target ∧ f.addr = x.addr % 2 ^ 54 ∧ f.data = x.data ∧ f.sends = 1 ∧
        q.kind = kMGTREQ ∧ q.dst = target * 64 + 39 ∧ q.payload = x.data ∧ q.arg % 16 = row.2 ∧ fieldOf q.arg 4 16 = x.tag) ∧
      (known → short → Does row.1 s { s with outbox := s.outbox ++ [.stylus port 2 0 x.tag 0 2 0 []] }) ∧
      (¬known → x.ty = 1 ∨ x.flags.testBit 0 = true →
        Does row.1 s { s with outbox := s.outbox ++ [.stylus port (if x.ty = 1 then 2 else 4) 0 x.tag 0 7 0 []] }))

/-- R473, R475, R476, R483, R484: doorbells. A submission doorbell within its ring sets TAIL, and for a TILE ring counts
in the mailbox; a completion doorbell within what was posted sets HEAD, ends a stall, and arms the interrupt where it is
told to and allowed. One outside its rules sets the ring's ERR where the ring is enabled, is counted, and changes no
index; one that is forwarded ends with DB_FORWARDED, one before requests are served with ISOLATED. A mailbox off its plate
or in the sealed window takes no count (R428; log 68). -/
def Sys2Proof.Claim.Doorbells : Prop :=
  ∀ (port : Fin 2) (bytes : List Byte) (s : State) (x : Txn), arrives s port bytes x → x.ty = 5 →
    let v := leNat x.data
    let n := v % 4096
    let index := fieldOf v 16 16
    roomy s F.GLB_STYLUS_CNT_COUNT [0, 1] 1 → roomy s F.GLB_STYLUS_CNT_COUNT [port, 0] 1 → s.mem.wf = true →
    (s.stylusServes = false → x.flags.testBit 0 = false → ∃ t,
      Does (if v.testBit 12 then .dbCompletion port bytes else .dbSubmission port bytes) s t ∧
      alters s t [regAddr .glbStylusStatus [port], regAddr .glbStylusErr [], regAddr .glbStylusCnt [port, 0]] ∧
      t.rd F.GLB_STYLUS_STATUS_LAST_ERR [port] = 5) ∧
    (s.stylusServes = true → x.flags.testBit 1 = true → ∃ t,
      Does (if v.testBit 12 then .dbCompletion port bytes else .dbSubmission port bytes) s t ∧
      alters s t [regAddr .glbStylusStatus [port], regAddr .glbStylusErr [], regAddr .glbStylusCnt [port, 0]] ∧
      t.rd F.GLB_STYLUS_STATUS_LAST_ERR [port] = 8) ∧
    (s.stylusServes = true → x.flags.testBit 1 = false → v.testBit 12 = false →
      let en := s.on F.GLB_SQ_CFG_EN [n]
      let tile := s.on F.GLB_SQ_CFG_CONSUMER [n]
      let ent := ringEntries (s.rd F.GLB_SQ_CFG_ENTRIES_LOG2 [n])
      let start := if tile then s.rd F.GLB_SQ_IDX_TAIL [n] else s.rd F.GLB_SQ_IDX_HEAD [n]
      let good := en = true ∧ (index + 65536 - start) % 65536 ≤ ent
      (¬good → ∃ t, Does (.dbSubmission port bytes) s t ∧ alters s t [regAddr .glbSqCfg [n], regAddr .glbStylusCnt [0, 1]] ∧
        counted s t F.GLB_STYLUS_CNT_COUNT [0, 1] 1 ∧ (en = true → t.rd F.GLB_SQ_CFG_ERR [n] = 1)) ∧
      (good → tile = false → ∃ t, Does (.dbSubmission port bytes) s t ∧ s.onlyReg t .glbSqIdx [n] ∧
        t.rd F.GLB_SQ_IDX_TAIL [n] = index ∧ t.rd F.GLB_SQ_IDX_HEAD [n] = s.rd F.GLB_SQ_IDX_HEAD [n]) ∧
      (good → tile = true →
        let a := s.rd F.GLB_SQ_MAILBOX_ADDR [n]
        let k := (Tbl.look 0 s.stylus.doorbells n + 1) % 2 ^ 48
        let home := plateBase + s.rd F.GLB_SQ_CFG_TILE [n] * plateSize
        let own := a % 8 = 0 ∧ home ≤ a ∧ a < home + plateSize ∧ ¬(s.rd F.GLB_SQ_CFG_TILE [n] % 16 = 0 ∧ a < home + 0x80000)
        (¬own → ∃ t, Does (.dbSubmission port bytes) s t ∧
          t = { s with regs := t.regs, stylus := { s.stylus with doorbells := t.stylus.doorbells } } ∧
          regsBut s t [regAddr .glbSqIdx [n]] ∧ t.rd F.GLB_SQ_IDX_TAIL [n] = index ∧ Tbl.look 0 t.stylus.doorbells n = k) ∧
        (own → ∃ t, Does (.dbSubmission port bytes) s t ∧
          t = { s with regs := t.regs, mem := t.mem, memPoison := t.memPoison, stylus := { s.stylus with doorbells := t.stylus.doorbells } } ∧
          regsBut s t [regAddr .glbSqIdx [n]] ∧ t.rd F.GLB_SQ_IDX_TAIL [n] = index ∧
          Tbl.look 0 t.stylus.doorbells n = k ∧ t.mem.read a 8 = leBytes 8 (index + k * 2 ^ 16) ∧ keepsOutside s t a 8))) ∧
    (s.stylusServes = true → x.flags.testBit 1 = false → v.testBit 12 = true →
      let en := s.on F.GLB_CQ_CFG_EN [n]
      let tail := s.rd F.GLB_CQ_IDX_TAIL [n]
      let head := s.rd F.GLB_CQ_IDX_HEAD [n]
      let good := en = true ∧ (tail + 65536 - index) % 65536 ≤ (tail + 65536 - head) % 65536
      (¬good → ∃ t, Does (.dbCompletion port bytes) s t ∧ alters s t [regAddr .glbCqCfg [n], regAddr .glbStylusCnt [0, 1]] ∧
        counted s t F.GLB_STYLUS_CNT_COUNT [0, 1] 1 ∧ (en = true → t.rd F.GLB_CQ_CFG_ERR [n] = 1)) ∧
      (good → ∃ u, Does (.dbCompletion port bytes) s (s.after u) ∧ u.rd F.GLB_CQ_IDX_HEAD [n] = index ∧
        u.rd F.GLB_CQ_IDX_TAIL [n] = tail ∧ u.rd F.GLB_CQ_CFG_STALLED [n] = 0 ∧ u.mem = s.mem ∧ u.tiles = s.tiles ∧
        (v.testBit 13 = true → s.on F.GLB_CQ_CFG_IRQ_EN [n] = true → u.rd F.GLB_CQ_CFG_ARMED [n] = 1 ∨
          ∃ p d, Emit.stylus p 6 0 0 8 0 0 d ∈ u.outbox)))

/-- R464, R467, R472 to R474, R480, R481, R484, R485, R493: a WRACK ends a device write: an acknowledged record at TAIL
moves TAIL on and its shadow is written, an acknowledged shadow frees the ring for the next. MOD_US after the oldest
uncovered record an MSI leaves and the ring is disarmed. A write without WRACK is sent again, on the other port where its
own is down, or after eight sends its ring stalls; with no port UP it is not sent. What waits for a port leaves when one
comes UP, an MSI that was due, too. A stylus port that trains or goes down changes state and loses the requests on it; a
replay sends the flits of the replay buffer from the one that is asked for. Completion: on these premises
Sys2Proof.Machine.exec answers a next state for wrackReceive, modUsExpire, mwrResendTimer, stylusLinkUp, stylusLinkDown,
stylusRetrain, stylusReplayRequest. -/
def Obligations.StylusEvents : Prop :=
  ∀ (s : State), s.ready →
    (∀ (port : Fin 2) (bytes : List Byte) (x : Txn), s.stylusUp port = true → Txn.parse bytes = some x → x.ty = 4 →
      ((∀ o ∈ s.stylus.out, ¬(o.port = port ∧ o.tag = x.tag)) → Does (.wrackReceive port bytes) s s) ∧
      (∀ o, s.stylus.out = [o] → s.stylus.wait = [] → o.port = port → o.tag = x.tag →
        (∀ n i, o.why = .record n i none → i = s.rd F.GLB_CQ_IDX_TAIL [n] → (s.cqSt n).acked = [] → (s.cqSt n).shadowOut = false →
          (s.cqSt n).shadow ≠ (i + 1) % 65536 →
          ∃ t w, Does (.wrackReceive port bytes) s t ∧ ringsAndRegs s t ∧ regsBut s t [regAddr .glbCqIdx [n]] ∧
            t.rd F.GLB_CQ_IDX_TAIL [n] = (i + 1) % 65536 ∧ t.rd F.GLB_CQ_IDX_HEAD [n] = s.rd F.GLB_CQ_IDX_HEAD [n] ∧
            t.stylus.out = [w] ∧ w.why = .shadow n ((i + 1) % 65536) ∧ w.addr = s.rd F.GLB_CQ_SHADOW_ADDR [n] ∧
            w.data = leBytes 8 ((i + 1) % 65536 + n * 2 ^ 16)) ∧
        (∀ n, o.why = .shadow n (s.rd F.GLB_CQ_IDX_TAIL [n]) → s.on F.GLB_CQ_CFG_ARMED [n] = false →
          ∃ t, Does (.wrackReceive port bytes) s t ∧ ringsAndRegs s t ∧ t.regs = s.regs ∧ t.outbox = s.outbox ∧ t.stylus.out = [] ∧
            (t.cqSt n).shadowOut = false ∧ (t.cqSt n).shadow = s.rd F.GLB_CQ_IDX_TAIL [n]))) ∧
    (∀ ring : BitVec 12, let n := ring.toNat
      (s.cqDue n = false → Does (.modUsExpire ring) s s) ∧
      (s.cqDue n = true → s.stylusUp (s.cqPort n) = true → ∃ t d, Does (.modUsExpire ring) s t ∧
        t = { s with regs := t.regs, stylus := { s.stylus with cq := t.stylus.cq },
                     outbox := s.outbox ++ [.stylus (s.cqPort n) 6 0 0 8 0 0 d] } ∧ (t.cqSt n).late = false ∧
        regsBut s t [regAddr .glbCqCfg [n]] ∧ t.rd F.GLB_CQ_CFG_ARMED [n] = 0 ∧ leNat d % 2 ^ 16 = s.rd F.GLB_CQ_CFG_VECTOR [n] ∧
        leNat d / 2 ^ 16 % 2 ^ 16 = n) ∧
      (s.cqDue n = true → s.stylusUp (s.cqPort n) = false → ∃ t, Does (.modUsExpire ring) s t ∧
        t = { s with stylus := { s.stylus with cq := t.stylus.cq } } ∧ t.cqSt n = { s.cqSt n with late := true })) ∧
    (∀ (port : Fin 2) (tag : BitVec 16) (o : MwrOut), s.stylus.out = [o] → o.port = port → o.tag = tag.toNat →
      (8 ≤ o.sends → ∃ t, Does (.mwrResendTimer port tag) s t ∧ s.onlyReg t .glbCqCfg [o.why.ring] ∧
        t.rd F.GLB_CQ_CFG_STALLED [o.why.ring] = 1) ∧
      (o.sends < 8 → s.stylusUp port = true → roomy s F.GLB_STYLUS_CNT_COUNT [port, 3] 1 → ∃ t, Does (.mwrResendTimer port tag) s t ∧
        ringsAndRegs s t ∧ regsBut s t [regAddr .glbStylusCnt [port, 3]] ∧ counted s t F.GLB_STYLUS_CNT_COUNT [port, 3] 1 ∧
        t.stylus.out = [{ o with sends := o.sends + 1 }] ∧
        t.outbox = s.outbox ++ [.stylus port 3 1 o.tag o.data.length 0 o.addr o.data]) ∧
      (let q := 1 - port.val
       o.sends < 8 → s.stylusUp port = false → s.stylusUp q = true → roomy s F.GLB_STYLUS_CNT_COUNT [q, 3] 1 →
        ∃ t, Does (.mwrResendTimer port tag) s t ∧ ringsAndRegs s t ∧ regsBut s t [regAddr .glbStylusCnt [q, 3]] ∧
        counted s t F.GLB_STYLUS_CNT_COUNT [q, 3] 1 ∧ t.stylus.out = [{ o with port := q, sends := o.sends + 1 }] ∧
        t.outbox = s.outbox ++ [.stylus q 3 1 o.tag o.data.length 0 o.addr o.data]) ∧
      (o.sends < 8 → s.stylusUp port = false → s.stylusUp (1 - port.val) = false → Does (.mwrResendTimer port tag) s s)) ∧
    (∀ port : Fin 2,
      (s.stylusUp port = true → Does (.stylusLinkUp port) s s) ∧
      (s.stylusUp port = false → ∃ t, Does (.stylusLinkUp port) s t ∧ t.stylusUp port = true ∧
        t.rd F.GLB_STYLUS_STATUS_CHANGED [port] = 1 ∧ t.mem = s.mem ∧ t.tiles = s.tiles ∧ t.fab = s.fab ∧
        t.stylusUp (1 - port.val) = s.stylusUp (1 - port.val) ∧
        (∀ o, s.stylus.wait = [o] → s.stylus.out = [] → t.stylus.wait = [] ∧
          ∃ w ∈ t.stylus.out, w.addr = o.addr ∧ w.data = o.data ∧ w.why = o.why) ∧
        (∀ n < 4096, (s.cqSt n).late = true → s.cqDue n = true → ∃ q d, Emit.stylus q 6 0 0 8 0 0 d ∈ t.outbox ∧
          leNat d / 2 ^ 16 % 2 ^ 16 = n)) ∧
      (∀ row ∈ [(Instr.stylusLinkDown port, 0), (Instr.stylusRetrain port, 1)], s.reaches .glbStylusCfg [] →
        ∃ t, Does row.1 s t ∧ t.rd F.GLB_STYLUS_STATUS_STATE [port] = row.2 ∧
          (∀ b ∈ t.stylus.backlog, b.1 ≠ port.val) ∧ (∀ f ∈ t.stylus.fwd, f.port ≠ port.val) ∧
          (s.stylusUp port = true → s.stylusUp (1 - port.val) = false → s.i3c.ibiEn = true → Emit.ibi 3 ∈ t.outbox) ∧
          t.mem = s.mem ∧ t.tiles = s.tiles ∧ t.fab = s.fab ∧ t.cs = s.cs) ∧
      (∀ flit : Nat, (s.stylusUp port = false → Does (.stylusReplayRequest port flit) s s) ∧
        (s.stylusUp port = true → roomy s F.GLB_STYLUS_CNT_COUNT [port, 4] 1 → ∃ t, Does (.stylusReplayRequest port flit) s t ∧
          t = { s with regs := t.regs, outbox := s.outbox ++ [.stylusReplay port (flit % 65536)
            ((s.replayBuffer port).dropWhile (fun e => e.1 != flit % 65536))] } ∧
          regsBut s t [regAddr .glbStylusCnt [port, 4]] ∧ counted s t F.GLB_STYLUS_CNT_COUNT [port, 4] 1)))

/-- R475 to R479: the management block's next entry. An event that names another operation than the entry's does nothing.
NOP ends; WRITE writes its register; READ and a POLL that matches report the value read; a POLL that does not match stays.
Each end moves HEAD on, with a record where it is asked for. A POLL is read again, and ends with TIMEOUT and a record when
its time is up. Completion: on these premises Sys2Proof.Machine.exec answers a next state for mgmtNop, mgmtWrite,
mgmtRead, mgmtPoll, pollRetryTimer, pollTimeout. -/
def Obligations.ManagementEntries : Prop :=
  (∀ (s : State) (n : Nat) (b : List Byte), nextEntry s n b →
    let op := leAt b 0 1
    let report := (leAt b 1 1).testBit 0
    let cq := leAt b 2 2 % 4096
    let a := leAt b 8 8
    let ends (c : Instr) (value : Nat) : Prop :=
      (report = false → ∃ t, Does c s t ∧ ringsAndRegs s t ∧ t.outbox = s.outbox ∧ regsBut s t [regAddr .glbSqIdx [n]] ∧ headNext s t n ∧
        t.stylus = { s.stylus with turn := n }) ∧
      (report = true → cqOpen s cq → ∃ t, Does c s t ∧ ringsAndRegs s t ∧ regsBut s t [regAddr .glbSqIdx [n]] ∧ headNext s t n ∧
        posted s t cq (entryWord s n 0) value)
    (∀ row ∈ [(Instr.mgmtNop Ecc.clean, 0), (Instr.mgmtWrite Ecc.clean, 1), (Instr.mgmtRead Ecc.clean, 2), (Instr.mgmtPoll Ecc.clean, 3)],
      op ≠ row.2 → Does row.1 s s) ∧
    (op = 0 → ends (.mgmtNop Ecc.clean) 0) ∧
    (op = 1 → report = false → ∀ r idx, plainWrite { s with stylus := { s.stylus with turn := n } } a r idx (leNat ((b.drop 0x10).take 8)) →
      regAddr r idx ≠ regAddr .glbSqIdx [n] → ∃ t, Does (.mgmtWrite Ecc.clean) s t ∧ ringsAndRegs s t ∧ t.outbox = s.outbox ∧
        regsBut s t [regAddr .glbSqIdx [n], regAddr r idx] ∧ headNext s t n ∧
        t.rawReg r idx = swValue r.fields (s.rawReg r idx) (leNat ((b.drop 0x10).take 8)) % 2 ^ 64) ∧
    (∀ r idx, plainRead s a r idx → r ≠ .tmQcfg → r ≠ .laneStatus → r ≠ .lanePrbsErr → (s.regRead r idx).1 < 2 ^ 64 →
      (op = 2 → ends (.mgmtRead Ecc.clean) (s.regRead r idx).1) ∧
      (op = 3 → (s.regRead r idx).1 &&& leAt b 0x18 8 = leAt b 0x10 8 → ends (.mgmtPoll Ecc.clean) (s.regRead r idx).1) ∧
      (op = 3 → (s.regRead r idx).1 &&& leAt b 0x18 8 ≠ leAt b 0x10 8 → ∃ t p, Does (.mgmtPoll Ecc.clean) s t ∧ ringsAndRegs s t ∧
        t.regs = s.regs ∧ t.outbox = s.outbox ∧ p ∈ t.stylus.polls ∧ p.ring = n ∧ p.addr = a ∧
        p.poll = some (leAt b 0x10 8, leAt b 0x18 8) ∧ p.last = (s.regRead r idx).1))) ∧
  (∀ (ring : BitVec 12) (s : State) (p : PollSt) (want mask : Nat), s.ready → s.stylus.polls = [p] → p.ring = ring.toNat →
    p.poll = some (want, mask) → s.bp.waits = [] →
    (∀ r idx, plainRead s p.addr r idx → (s.regRead r idx).1 < 2 ^ 64 →
      let v := (s.regRead r idx).1
      (v &&& mask = want → p.report = true → cqOpen s p.cq → ∃ t, Does (.pollRetryTimer ring Ecc.clean) s t ∧ ringsAndRegs s t ∧
        regsBut s t [regAddr .glbSqIdx [p.ring]] ∧ headNext s t p.ring ∧ t.stylus.polls = [] ∧ posted s t p.cq (entryWord s p.ring 0) v) ∧
      (v &&& mask ≠ want → Does (.pollRetryTimer ring Ecc.clean) s { s with stylus := { s.stylus with polls := [{ p with last := v }] } })) ∧
    (cqOpen s p.cq → ∃ t, Does (.pollTimeout ring) s t ∧ ringsAndRegs s t ∧ regsBut s t [regAddr .glbSqIdx [p.ring]] ∧
      headNext s t p.ring ∧ t.stylus.polls = [] ∧ posted s t p.cq (entryWord s p.ring 6) p.last))

/-- R491, R492: the I3C target. ENTDAA and SETDASA give an address to a target without one, SETNEWDA another, RSTDAA takes
it away; the GET commands and private reads answer at the target's own address and nowhere else; ENEC and DISEC switch its
interrupts, for one target or all; a one-byte private write sets the index, a read moves it on. Completion: on these
premises Sys2Proof.Machine.exec answers a next state for entdaa, setdasa, setnewda, rstdaa, getpid, getbcr, getdcr,
getstatus, getmwl, getmrl, enec, disec, i3cPrivateWrite, i3cPrivateRead. -/
def Obligations.BoardBus : Prop :=
  ∀ (s : State) (addr new : BitVec 7), s.ready →
    let x := s.i3c
    let mine := x.dynAddr = some addr.toNat
    let gives (b : List Byte) : State := { s with outbox := s.outbox ++ [.i3c (some b)] }
    let sets (y : I3cSt) : State := { s with i3c := y }
    (x.dynAddr = none → ∃ t, Does (.entdaa addr) s t ∧ t = { gives (Config.i3cPid ++ [Config.i3cBcr, Config.i3cDcr]) with
      i3c := { x with dynAddr := some addr.toNat } }) ∧
    (x.dynAddr ≠ none → Does (.entdaa addr) s s) ∧
    (∀ st : BitVec 7, (st.toNat = 0x50 + s.rd F.GLB_COORD_SLOT_CODE [] ∧ x.dynAddr = none →
        Does (.setdasa st addr) s (sets { x with dynAddr := some addr.toNat })) ∧
      (¬(st.toNat = 0x50 + s.rd F.GLB_COORD_SLOT_CODE [] ∧ x.dynAddr = none) → Does (.setdasa st addr) s s)) ∧
    Does .rstdaa s (sets { x with dynAddr := none }) ∧
    (mine → Does (.setnewda addr new) s (sets { x with dynAddr := some new.toNat }) ∧
      Does (.getpid addr) s (gives Config.i3cPid) ∧ Does (.getbcr addr) s (gives [Config.i3cBcr]) ∧
      Does (.getdcr addr) s (gives [Config.i3cDcr]) ∧ Does (.getmwl addr) s (gives (beBytes 2 x.mwl)) ∧
      Does (.getmrl addr) s (gives (beBytes 2 x.mrl ++ [0])) ∧
      (∃ b, b.length = 2 ∧ Does (.getstatus addr) s { gives b with draws := s.draws + 1 }) ∧
      Does (.enec (some addr)) s (sets { x with ibiEn := true }) ∧ Does (.disec (some addr)) s (sets { x with ibiEn := false }) ∧
      (∀ b, Does (.i3cPrivateWrite addr [b]) s (sets { x with index := b.toNat })) ∧
      (∀ len, let k := min len 8
        Does (.i3cPrivateRead addr len) s { gives ((List.range k).map (fun i => nth 0 s.boardView ((x.index + i) % 256))) with
          i3c := { x with index := (x.index + k) % 256 } })) ∧
    (¬mine → ∀ c ∈ [Instr.setnewda addr new, .getpid addr, .getbcr addr, .getdcr addr, .getmwl addr, .getmrl addr, .getstatus addr,
      .enec (some addr), .disec (some addr), .i3cPrivateWrite addr [0], .i3cPrivateRead addr 1], Does c s s) ∧
    (∀ bytes, bytes.length ≠ 1 → Does (.i3cPrivateWrite addr bytes) s s) ∧
    Does (.enec none) s (sets { x with ibiEn := true }) ∧ Does (.disec none) s (sets { x with ibiEn := false })

namespace Sys2Proof.Claim
/-- The registers of a channel that its descriptors change. -/
def chanRegs (d c : Nat) : List Nat := [regAddr .dmChStatus [d, c], regAddr .dmChNext [d, c]]

/-- `t` differs from `s` in the registers at these addresses and in the working state of one channel of a datamover. -/
def onlyChan (s t : State) (d c : Nat) (as : List Nat) : Prop :=
  t = { s with regs := t.regs, dm := t.dm } ∧ regsBut s t as ∧ ∀ d' c', 64 * d' + c' ≠ 64 * d + c → t.chan d' c' = s.chan d' c'

/-- The registers of the plates' owners (R427). -/
def plateRegs : List Nat := (List.range 64).map (fun p => regAddr .plateOwner [p])

/-- No plate's hand-over is pending. -/
def noHandOver (s : State) : Prop := ∀ p, (s.tile p).handOver = none

/-- Between two states the tiles changed in hand-overs alone, which took effect; with none pending nothing changed (R115). -/
def handsOver (s t : State) : Prop :=
  (∀ k, t.tile k = s.tile k ∨ t.tile k = { s.tile k with handOver := none }) ∧
  (noHandOver s → t.tiles = s.tiles ∧ ∀ p < 64, t.rawReg .plateOwner [p] = s.rawReg .plateOwner [p])

/-- As `onlyChan`, with memory changed in one range alone, free values used up, and hand-overs that waited for the
channel. -/
def onlyChanMem (s t : State) (d c : Nat) (as : List Nat) (a n : Nat) : Prop :=
  t = { s with regs := t.regs, dm := t.dm, mem := t.mem, memPoison := t.memPoison, draws := t.draws, tiles := t.tiles } ∧
  regsBut s t (as ++ plateRegs) ∧ handsOver s t ∧
  (∀ d' c', 64 * d' + c' ≠ 64 * d + c → t.chan d' c' = s.chan d' c') ∧ keepsOutside s t a n

/-- A completed descriptor in its channel's registers (R450, R451). -/
def noted (s t : State) (d c status residue : Nat) : Prop :=
  t.rd F.DM_CH_STATUS_LAST_STATUS [d, c] = status ∧ t.rd F.DM_CH_STATUS_RESIDUE [d, c] = residue ∧
  t.rd F.DM_CH_STATUS_DONE [d, c] = (s.rd F.DM_CH_STATUS_DONE [d, c] + 1) % 65536 ∧ (t.chan d c).desc = none

/-- The bytes that a completed descriptor is left with (R449). -/
def writeBack (status residue dst : Nat) : List Byte := leBytes 4 status ++ leBytes 4 residue ++ leBytes 8 dst

/-- A channel of a datamover that is not halted may fetch a descriptor, at an address (R446, R451, R454). -/
def fetches (s : State) (d c a : Nat) : Prop :=
  s.ready ∧ s.dmState d c = 1 ∧ s.on F.DM_STATUS_HALTED [d] = false ∧ s.inReset 6 d = false ∧
  (s.chan d c).desc = none ∧ (s.chan d c).heldRec = none ∧ (s.chan d c).nextFetch = some a

/-- A datamover that has stopped on a bus error: its address and its kind are kept, and every channel is STOPPED (R453). -/
def halted (t : State) (d addr kind : Nat) : Prop :=
  t.on F.DM_STATUS_HALTED [d] = true ∧ t.on F.DM_STATUS_BUS_ERR [d] = true ∧ t.rd F.DM_ERR_ADDR_ADDR [d] = addr % 2 ^ 64 ∧
  t.rd F.DM_STATUS_ERR_KIND [d] = kind ∧ ∀ c < 56, t.dmState d c = 3 ∧ (t.chan d c).desc = none ∧ (t.chan d c).inFlight = []

/-- A datamover does nothing for the device's machinery: no page-in from its die's DDR5 and no save to it (R444; log 67). -/
def noMachinery (s : State) (d : Nat) : Prop :=
  (∀ n < 16, s.rd F.GLB_GATE_SLOT_STATE [n] = 1 → machineDie (s.gate n).src ≠ d) ∧
  ∀ e ∈ s.cs.comms, ∀ p, e.2.pause = some p → p.savedAt ≠ none → machineDie p.area ≠ d

/-- A pointer has left the cache of a pool (R440). -/
def tookFrom (s t : State) (j ptr : Nat) : Prop :=
  (t.pool j).ringCount = (s.pool j).ringCount ∧
  ∃ i, (s.pool j).cache[i]? = some ptr ∧ (t.pool j).cache = (s.pool j).cache.eraseIdx i

/-- The word of a reply with a buffer (R440, R459). -/
def poolWord (k j ptr : Nat) : Nat := 1 + 2 * j + (if j = k then 0 else 8) + ptr
end Sys2Proof.Claim

/-- R452, R454, R461, R462: a channel's commands. GO of a halted datamover is refused; of a channel that is IDLE or
STOPPED it starts a chain at DM_CH_DESC; of another it does nothing. ABORT stops a running channel's chain: at once
between two descriptors (log 37), else at the current burst; of another channel it does nothing. RESUME clears HALTED and
no more. -/
def Sys2Proof.Claim.DatamoverCommands : Prop :=
  ∀ (d : Fin 4) (c : Fin 56) (s : State), s.ready →
    (s.reaches .dmChCtrl [d, c] →
      let x := s.chan d c
      let ctrl := regAddr .dmChCtrl [d, c]
      (s.on F.DM_STATUS_HALTED [d] = true → ∃ t, Does (.dmGo d c) s t ∧ refused s t ctrl) ∧
      (s.on F.DM_STATUS_HALTED [d] = false →
        (s.dmState d c = 0 ∨ s.dmState d c = 3 → ∃ t, Does (.dmGo d c) s t ∧ onlyChan s t d c (ctrl :: chanRegs d c) ∧
          t.dmState d c = 1 ∧ t.chan d c = { x with nextFetch := some (s.rd F.DM_CH_DESC_ADDR [d, c]) }) ∧
        (s.dmState d c = 1 ∨ s.dmState d c = 2 → ∃ t, Does (.dmGo d c) s t ∧ s.onlyReg t .dmChCtrl [d, c])) ∧
      (s.dmState d c = 1 → x.desc = none → ∃ t, Does (.dmAbort d c) s t ∧ onlyChan s t d c (ctrl :: chanRegs d c) ∧
        t.dmState d c = 3 ∧ t.chan d c = { DmChan.fresh with heldRec := x.heldRec, lastIssue := x.lastIssue } ∧
        t.rd F.DM_CH_NEXT_ADDR [d, c] = x.nextFetch.getD 0 % 2 ^ 64) ∧
      (∀ dd, s.dmState d c = 1 → x.desc = some dd → x.issued < dd.len → ∃ t, Does (.dmAbort d c) s t ∧
        onlyChan s t d c (ctrl :: chanRegs d c) ∧ t.dmState d c = 2 ∧ t.chan d c = { x with stop := some 0x40 }) ∧
      (s.dmState d c ≠ 1 → ∃ t, Does (.dmAbort d c) s t ∧ s.onlyReg t .dmChCtrl [d, c])) ∧
    (s.reaches .dmCtrl [d] → ∃ t, Does (.dmResume d) s t ∧ s.onlyReg t .dmStatus [d] ∧ t.on F.DM_STATUS_HALTED [d] = false ∧
      ∀ f ∈ [F.DM_STATUS_BUS_ERR, F.DM_STATUS_ERR_KIND, F.DM_STATUS_BUF_USED, F.DM_STATUS_WB_LOST], t.rd f [d] = s.rd f [d])

/-- R444 to R446, R449 to R451, R453, R553: a channel without a ring fetches its next descriptor. It waits for a stack in
a low state. An address that is not 64-byte aligned ends the chain with ADDRESS_ERROR; one outside HBM and DDR5 or in a
closed region is a bus error, which stops the datamover; a descriptor with a reserved field, a length of zero or an
unknown flag ends with status 0x42 and its write-back; one that is well formed, in its windows and admitted begins; one
with a pool asks the buffer pool manager first, which hands it a buffer of the pool at once if it can. -/
def Sys2Proof.Claim.DescriptorsFetched : Prop :=
  ∀ (d : Fin 4) (c : Fin 56) (s : State) (a : Nat), fetches s d c a → s.on F.DM_CH_CTRL_RING_EN [d, c] = false → s.mem.wf = true →
    (s.lowStack a 64 = true → Does (.dmDescFetch d c Ecc.clean) s s) ∧
    (s.lowStack a 64 = false → a % 64 = 0 →
      (s.rangeWin a 64 ≠ some .hbm ∧ s.rangeWin a 64 ≠ some .ddr) ∨ s.closed a 64 = true →
      ∃ u, Does (.dmDescFetch d c Ecc.clean) s (s.after u) ∧ halted u d a 0) ∧
    (s.lowStack a 64 = false → a % 64 ≠ 0 →
      ∃ t, Does (.dmDescFetch d c Ecc.clean) s t ∧ onlyChanMem s t d c (chanRegs d c) 0 0 ∧ noted s t d c 7 0 ∧
        t.dmState d c = 3 ∧ t.rd F.DM_CH_NEXT_ADDR [d, c] = 0) ∧
    (s.lowStack a 64 = false → a % 64 = 0 → s.rangeWin a 64 = some .hbm ∨ s.rangeWin a 64 = some .ddr → s.closed a 64 = false → sound s a 64 →
      let b := s.mem.read a 64
      let dd := DmDesc.ofBytes a b
      let good : Prop := leAt b 0x16 2 = 0 ∧ leAt b 0x28 8 = 0 ∧ dd.len ≠ 0 ∧ dd.flags < 32
      (¬good → dd.flags.testBit 2 = false → ∃ t, Does (.dmDescFetch d c Ecc.clean) s t ∧
        onlyChanMem s t d c (chanRegs d c) (a + 0x30) 16 ∧ noted s t d c 0x42 dd.len ∧ t.dmState d c = 3 ∧
        t.mem.read (a + 0x30) 16 = writeBack 0x42 dd.len dd.dst) ∧
      (good → dd.flags.testBit 2 = false → s.rangeWin dd.src dd.len ≠ none → s.rangeWin dd.dst dd.len ≠ none →
        s.admits dd.src dd.len (.dm d) = true → s.admits dd.dst dd.len (.dm d) = true →
        ∃ t, Does (.dmDescFetch d c Ecc.clean) s t ∧ onlyChan s t d c [] ∧ t.chan d c =
          { s.chan d c with desc := some dd, asking := false, used := some dd.dst, nextFetch := none, issued := 0, written := 0 }) ∧
      (∀ j, good → dd.flags.testBit 2 = true → s.inReset 7 0 = false → s.bp.waits = [] →
        s.bpChoose (dd.flags / 8 % 4) = some j → 128 < (s.pool j).cache.length →
        ∃ u ptr, Does (.dmDescFetch d c Ecc.clean) s (s.after u) ∧ tookFrom s u j ptr ∧
          u.todo = [.bpReply (.dm d c) (poolWord (dd.flags / 8 % 4) j ptr)] ∧
          u.chan d c = { s.chan d c with desc := some dd, asking := true, used := none, nextFetch := none } ∧ u.mem = s.mem))

/-- R434, R447 to R451, R461, R553: a channel's bursts, none of which touches a stack in a low state. The next burst goes
to the 4 KiB boundary of its destination or to the descriptor's end and reads sound memory; the oldest burst in flight is
written to its destination and to nowhere else. When all bursts have been written, the descriptor completes: DATA_POISONED
if a burst carried poison, the status that stopped it, or OK, with the bytes not issued as residue; its write-back is
stored, DONE goes up, a record is posted where the channel has a ring, and the chain goes on after OK and DATA_POISONED
alone. -/
def Sys2Proof.Claim.DescriptorsRun : Prop :=
  ∀ (d : Fin 4) (c : Fin 56) (s : State) (dd : DmDesc), s.ready → s.faults.inject = none → s.mem.wf = true →
    (s.chan d c).desc = some dd →
    let x := s.chan d c
    let n := min (4096 - (dd.dst + x.issued) % 4096) (dd.len - x.issued)
    (s.dmMayIssue d c = false → ∀ ecc, Does (.dmBurstIssue d c ecc) s s) ∧
    (s.dmMayIssue d c = true → sound s (dd.src + x.issued) n → ∃ t, Does (.dmBurstIssue d c Ecc.clean) s t ∧
      onlyChan s t d c [regAddr .dmStatus [d]] ∧ t.chan d c =
        { x with inFlight := x.inFlight ++ [⟨x.issued, s.mem.read (dd.src + x.issued) n, []⟩], issued := x.issued + n, lastIssue := some s.now }) ∧
    (∀ b rest, x.inFlight = b :: rest → s.lowStack (dd.dst + b.off) b.data.length = true → Does (.dmBurstWritten d c) s s) ∧
    (∀ b rest, x.inFlight = b :: rest → b.bad = [] → s.lowStack (dd.dst + b.off) b.data.length = false → ∃ t, Does (.dmBurstWritten d c) s t ∧
      onlyChanMem s t d c [regAddr .dmStatus [d]] (dd.dst + b.off) b.data.length ∧
      t.mem.read (dd.dst + b.off) b.data.length = b.data ∧
      (∀ w, w ∈ t.memPoison ↔ w ∈ s.memPoison ∧ w ∉ wholeWords (dd.dst + b.off) b.data.length) ∧
      t.chan d c = { x with inFlight := rest, written := x.written + b.data.length }) ∧
    (x.asking = false → x.inFlight = [] → s.on F.DM_STATUS_HALTED [d] = false → s.inReset 6 d = false →
      s.lowStack dd.addr 64 = false → (∀ a ∈ s.readBacks dd.dst x.issued, s.lowStack a 1 = false) →
      dd.len ≤ x.issued ∨ x.stop ≠ none → sound s dd.dst (x.issued + 64) → x.used = some dd.dst →
      let status := x.stop.getD (if x.poisoned then 3 else 0)
      let residue := dd.len - x.issued
      let goesOn : Prop := (status = 0 ∨ status = 3) ∧ dd.flags.testBit 0 = true
      status < 256 → residue < 2 ^ 32 →
      let ends (t : State) : Prop := noted s t d c status residue ∧
        t.mem.read (dd.addr + 0x30) 16 = writeBack status residue dd.dst ∧ keepsOutside s t (dd.addr + 0x30) 16 ∧
        (goesOn → t.dmState d c = 1 ∧ (t.chan d c).nextFetch = some dd.next) ∧
        (¬goesOn → (t.chan d c).nextFetch = none ∧ t.dmState d c = (if status = 0 ∨ status = 3 then 0 else 3))
      let silent : Prop := s.on F.DM_CH_CTRL_RING_EN [d, c] = false ∨ (status = 0 ∧ dd.flags.testBit 1 = false)
      (silent → ∃ t, Does (.dmReadbackDone d c Ecc.clean) s t ∧ ends t ∧
        onlyChanMem s t d c (chanRegs d c) (dd.addr + 0x30) 16) ∧
      (¬silent → cqOpen s (s.rd F.DM_CH_CTRL_RING [d, c]) → ∃ t, Does (.dmReadbackDone d c Ecc.clean) s t ∧ ends t ∧
        posted s t (s.rd F.DM_CH_CTRL_RING [d, c]) dd.tag (status + c.val <<< 8 + d.val <<< 14 + residue <<< 16) ∧ handsOver s t))

/-- R444, R450, R451, R453: a bus error halts its datamover: the address and the kind are kept, BUS_ERR sets, every
channel stops, one that was STOPPED keeps its registers, and a descriptor in progress ends with BUS_ERROR and as residue
what is not confirmed written (how much is, log 37); other datamovers' channels and the fabric are as they were. What the
datamover did for the device's machinery fails: page-ins and saves (log 67). A halted datamover hears no second one. -/
def Sys2Proof.Claim.BusErrorHalts : Prop :=
  ∀ (d : Fin 4) (addr : Word) (kind : BitVec 2) (lost : BitVec 64) (s : State), s.ready →
    let c := Instr.dmBusError d addr kind lost
    let ends (t : State) : Prop := halted t d addr.toNat kind.toNat ∧
      (∀ c < 56, s.dmState d c = 3 → (s.chan d c).desc = none → t.rawReg .dmChNext [d, c] = s.rawReg .dmChNext [d, c] ∧
        t.rawReg .dmChStatus [d, c] = s.rawReg .dmChStatus [d, c]) ∧
      (∀ c < 56, ∀ dd, (s.chan d c).desc = some dd → dd.len < 2 ^ 32 → t.rd F.DM_CH_STATUS_LAST_STATUS [d, c] = 0x41 ∧
        dd.len - (s.chan d c).written ≤ t.rd F.DM_CH_STATUS_RESIDUE [d, c] ∧ t.rd F.DM_CH_STATUS_RESIDUE [d, c] ≤ dd.len) ∧
      (∀ d' c', 64 * d.val + 56 ≤ 64 * d' + c' ∨ 64 * d' + c' < 64 * d.val → t.chan d' c' = s.chan d' c') ∧
      t.fab = s.fab ∧ t.bp = s.bp
    (s.on F.DM_STATUS_HALTED [d] = true → Does c s s) ∧
    (s.on F.DM_STATUS_HALTED [d] = false → noMachinery s d → ∃ t, Does c s t ∧ ends t ∧ handsOver s t ∧ t.cs = s.cs) ∧
    (s.on F.DM_STATUS_HALTED [d] = false → s.inReset 6 d = false → ∃ u, Does c s (s.after u) ∧ ends u ∧
      (∀ n < 16, s.rd F.GLB_GATE_SLOT_STATE [n] = 1 → machineDie (s.gate n).src = d → u.rd F.GLB_GATE_SLOT_STATE [n] = 0) ∧
      (∀ id cm p, s.comm id = some cm → cm.pause = some p → p.savedAt ≠ none → machineDie p.area = d →
        ∃ cm', u.comm id = some cm' ∧ cm'.pause = none))

/-- R440 to R443, R459, R460, R468: the buffer pool manager. A read of BP_ALLOC takes a pointer of the lowest pool from k
that has one (which of its cache is log 36) or answers zero; a returned buffer of an enabled pool goes to its cache;
another pointer is refused and counted; INIT of a disabled pool starts its fill and of an enabled one is refused; a
finished fill leaves the pool's buffers free, at most 512 of them in the cache; a refill brings pointers from the ring's
head. Completion: on these premises Sys2Proof.Machine.exec answers a next state for bpAlloc, bpFree, bpPoolInit,
bpInitDone, bpRefillDone. -/
def Obligations.BufferPools : Prop :=
  ∀ (k : Fin 4) (s : State), s.ready → s.bp.waits = [] → s.faults.inject = none →
    (∀ (port : Fin 2) (tag : BitVec 16), s.stylusUp port = true → s.portBusy port = false → s.stylus.backlog = [] →
      s.reaches .bpAlloc [k] →
      let gives (t : State) (word : Nat) : Prop := t.outbox = s.outbox ++ [.stylus port 2 0 tag.toNat 8 0 0 (leBytes 8 word)]
      (s.bpChoose k = none → ∃ t, Does (.bpAlloc port tag k) s t ∧ gives t 0 ∧ t = { s with outbox := t.outbox }) ∧
      (∀ j, s.bpChoose k = some j → 128 < (s.pool j).cache.length → ∃ t ptr, Does (.bpAlloc port tag k) s t ∧
        tookFrom s t j ptr ∧ gives t (poolWord k j ptr) ∧ (∀ i, i ≠ j → t.pool i = s.pool i) ∧
        t = { s with outbox := t.outbox, bp := t.bp, regs := t.regs, draws := t.draws } ∧ regsBut s t [regAddr .bpPoolStatus [j]])) ∧
    (∀ (ptr : Word), s.reaches .bpFree [] →
      (s.bpHome ptr.toNat = none ∨ (∃ j, s.bpHome ptr.toNat = some j ∧ (s.pool j).free = s.bpCount j) →
        roomy s F.BP_BAD_CNT_COUNT [] 1 → ∃ t, Does (.bpFree ptr) s t ∧
        tells s t (regHome .bpErr []).1 [regAddr .bpErr [], regAddr .bpBadCnt []] ∧ t.on F.BP_ERR_BAD_FREE [] = true ∧
        t.rd F.BP_ERR_LAST_BAD [] = ptr.toNat / 256 ∧ counted s t F.BP_BAD_CNT_COUNT [] 1) ∧
      (∀ j, s.bpHome ptr.toNat = some j → (s.pool j).free ≠ s.bpCount j → (s.pool j).cache.length < 448 →
        ∃ t, Does (.bpFree ptr) s t ∧ t = { s with bp := t.bp, regs := t.regs } ∧ regsBut s t [regAddr .bpPoolStatus [j]] ∧
          t.pool j = { s.pool j with cache := (s.pool j).cache ++ [ptr.toNat] } ∧ ∀ i, i ≠ j → t.pool i = s.pool i)) ∧
    (s.reaches .bpPoolCfg [k] →
      (s.on F.BP_POOL_CFG_EN [k] = false → ∃ t, Does (.bpPoolInit k) s t ∧ t = { s with bp := t.bp, regs := t.regs } ∧
        regsBut s t [regAddr .bpPoolStatus [k], regAddr .bpPoolCfg [k]] ∧ t.on F.BP_POOL_STATUS_READY [k] = false ∧
        t.pool k = { BpPool.fresh with filling := true } ∧ ∀ i, i ≠ k.val → t.pool i = s.pool i) ∧
      (s.on F.BP_POOL_CFG_EN [k] = true → ∃ t, Does (.bpPoolInit k) s t ∧
        tells s t 0 [regAddr .fltCfgErr [], regAddr .bpPoolCfg [k]] ∧ t.rd F.FLT_CFG_ERR_ERR [] = 1)) ∧
    (let n := s.bpCount k
     let ring := s.rd F.BP_POOL_RING_ADDR [k]
     let base := s.rd F.BP_POOL_BASE_ADDR [k]
     (s.pool k).filling = true → 0 < n → s.rangeWin ring (8 * n) = some .hbm → s.mem.wf = true →
      ∃ t, Does (.bpInitDone k) s t ∧ t.on F.BP_POOL_STATUS_READY [k] = true ∧ (t.pool k).free = n ∧
        (t.pool k).cache = (List.range (min n 512)).map (fun i => base + i * bpSize k) ∧
        (∀ i < n, leNat (t.mem.read (ring + 8 * i) 8) = (base + i * bpSize k) % 2 ^ 64) ∧ keepsOutside s t ring (8 * n) ∧
        t.tiles = s.tiles ∧ regsBut s t [regAddr .bpPoolStatus [k]] ∧ ∀ i, i ≠ k.val → t.pool i = s.pool i) ∧
    (∀ (n : Nat), let p := s.pool k
      p.refill = true → 0 < n → n ≤ p.ringCount → p.cache.length + n ≤ 512 → 128 ≤ p.cache.length + n → s.memPoison = [] →
      ∃ t, Does (.bpRefillDone k n Ecc.clean) s t ∧ t = { s with bp := t.bp, regs := t.regs } ∧
        regsBut s t [regAddr .bpPoolStatus [k]] ∧ (t.pool k).ringCount = p.ringCount - n ∧ (t.pool k).refill = false ∧
        (t.pool k).cache = p.cache ++ (List.range n).map (fun i => leNat (s.mem.read (s.bpSlot k (p.ringHead + i)) 8)) ∧
        (t.pool k).ringHead = (p.ringHead + n) % max 1 (s.bpCount k) ∧ ∀ i, i ≠ k.val → t.pool i = s.pool i)

/-- R115, R424, R425, R427, R455, R456: plates. The scrub steps through a plate's lines, and a pass ends with the last; a
period of zero stops it. A hand-over is refused while one of its plate is pending; else it waits, shown in PENDING, while
an access to the plate is under way, and takes effect at once where none is. Hand-overs of other plates in use stay as
they are. -/
def Sys2Proof.Claim.PlatesKept : Prop :=
  ∀ (p : Fin 64) (s : State), s.ready →
    (∀ ecc, s.rd F.PLATE_SCRUB_PERIOD [p] = 0 → Does (.plateScrubRead p ecc) s s) ∧
    (let l := (s.tile p).scrubLine
     s.rd F.PLATE_SCRUB_PERIOD [p] ≠ 0 → l < 131072 → sound s (plateBase + p * plateSize + 64 * l) 64 →
      ∃ t, Does (.plateScrubRead p Ecc.clean) s t ∧ onlyTileRegs s t p [regAddr .plateScrub [p]] ∧
        t.tile p = { s.tile p with scrubLine := (l + 1) % 131072 } ∧
        (l + 1 < 131072 → t.regs = s.regs) ∧
        (l + 1 = 131072 → t.rd F.PLATE_SCRUB_PASSES [p] = (s.rd F.PLATE_SCRUB_PASSES [p] + 1) % 2 ^ F.PLATE_SCRUB_PASSES.width)) ∧
    (∀ (kind : BitVec 2) (tile : Fin 16), s.reaches .plateOwner [p] →
      let c := Instr.plateOwnerWrite p kind tile
      let pending (t : State) : Nat × Nat × Nat := (t.rd F.PLATE_OWNER_KIND [p], t.rd F.PLATE_OWNER_TILE [p], t.rd F.PLATE_OWNER_PENDING [p])
      (s.on F.PLATE_OWNER_PENDING [p] = true → ∃ t, Does c s t ∧ refused s t (regAddr .plateOwner [p])) ∧
      (s.on F.PLATE_OWNER_PENDING [p] = false → ∃ t, Does c s t ∧
        t = { s with regs := t.regs, tiles := t.tiles } ∧ regsBut s t plateRegs ∧
        (∀ q < 64, q ≠ p.val → s.plateInUse q = true ∨ (s.tile q).handOver = none →
          t.tile q = s.tile q ∧ t.rawReg .plateOwner [q] = s.rawReg .plateOwner [q]) ∧
        (s.plateInUse p = true → t.tile p = { s.tile p with handOver := some (kind.toNat + 4 * tile.val) } ∧
          pending t = (s.rd F.PLATE_OWNER_KIND [p], s.rd F.PLATE_OWNER_TILE [p], 1)) ∧
        (s.plateInUse p = false → t.tile p = { s.tile p with handOver := none } ∧ pending t = (kind.toNat, tile.val, 0))))

/-- R432 to R438, R457, R458, R499: HBM and DDR5. The first INIT of HBM starts it, with the mapping; what HBM has kept
appears at other addresses under another mapping than the last (where within a stack, log 41); a later INIT does nothing.
Its end sets READY, or every failed stack reports a fatal fault to its die and READY stays clear. INIT of DDR5 starts its
training, whose end tells what each channel holds, its size at most 128 GiB and its speed at most the limit. The patrol
scrub of sound memory changes nothing. -/
def Sys2Proof.Claim.HbmAndDdr : Prop :=
  ∀ (s : State), s.ready →
    (∀ (map : Bool), s.sys.fwRuns = true →
      (s.memc.hbmWritten = true → ∃ t, Does (.hbmInit map) s t ∧ s.onlyReg t .hbmCtrl []) ∧
      (s.memc.hbmWritten = false → s.memc.lastMap = b2n map → ∃ t, Does (.hbmInit map) s t ∧
        t = { s with regs := t.regs, memc := { s.memc with hbmWritten := true, hbmBusy := true } } ∧
        regsBut s t [regAddr .hbmCtrl [], regAddr .hbmStatus []] ∧ t.rd F.HBM_STATUS_MAP_ACTIVE [] = b2n map ∧
        t.rd F.HBM_STATUS_READY [] = s.rd F.HBM_STATUS_READY []) ∧
      (s.memc.hbmWritten = false → s.memc.lastMap = 1 - b2n map → s.mem.wf = true → ∃ t, Does (.hbmInit map) s t ∧
        t = { s with regs := t.regs, mem := t.mem, memPoison := t.memPoison,
                     memc := { s.memc with hbmWritten := true, hbmBusy := true, lastMap := b2n map } } ∧
        regsBut s t [regAddr .hbmCtrl [], regAddr .hbmStatus []] ∧ t.rd F.HBM_STATUS_MAP_ACTIVE [] = b2n map ∧
        (∀ off < 384 * 2 ^ 30, Memory.readByte (hbmBase + placeOffset (b2n map) (stackPlace (1 - b2n map) off)) t.mem =
          Memory.readByte (hbmBase + off) s.mem) ∧
        ∀ a, a < hbmBase ∨ hbmBase + 384 * 2 ^ 30 ≤ a → Memory.readByte a t.mem = Memory.readByte a s.mem)) ∧
    (∀ (map : Bool), s.sys.fwRuns = false → Does (.hbmInit map) s s) ∧
    (∀ (ok : BitVec 8),
      (s.memc.hbmBusy = false → Does (.hbmInitDone ok) s s) ∧
      (s.memc.hbmBusy = true → ok.toNat = 255 → ∃ t, Does (.hbmInitDone ok) s t ∧
        t = { s with regs := t.regs, memc := { s.memc with hbmBusy := false } } ∧ regsBut s t [regAddr .hbmStatus []] ∧
        t.on F.HBM_STATUS_READY [] = true ∧ t.rd F.HBM_STATUS_STACK_OK [] = 255 ∧ t.rd F.HBM_STATUS_STACK_FAIL [] = 0) ∧
      (s.memc.hbmBusy = true → ok.toNat ≠ 255 → ∃ u, Does (.hbmInitDone ok) s (s.after u) ∧
        u.todo = List.replicate ((List.range 8).filter (fun k => !ok.toNat.testBit k)).length .uf ∧
        (∀ k < 8, ok.toNat.testBit k = false → u.on F.FLT_DIE_STATUS_UF [k / 2] = true) ∧
        u.memc.hbmBusy = false ∧ u.rd F.HBM_STATUS_READY [] = s.rd F.HBM_STATUS_READY [] ∧ u.rd F.HBM_STATUS_STACK_OK [] = ok.toNat ∧
        u.rd F.HBM_STATUS_STACK_FAIL [] = 255 - ok.toNat)) ∧
    (∀ (speed : BitVec 2), s.sys.fwRuns = true → ∃ t, Does (.ddrInit speed) s t ∧
      t = { s with regs := t.regs, memc := { s.memc with ddrBusy := true } } ∧ regsBut s t [regAddr .ddrCtrl []] ∧
      t.rd F.DDR_CTRL_MAX_SPEED [] = speed.toNat) ∧
    (∀ (ms : List DdrModule), s.memc.ddrBusy = true → ∃ t, Does (.ddrInitDone ms) s t ∧
      t = { s with regs := t.regs, memc := { s.memc with ddrBusy := false } } ∧
      regsBut s t ((List.range 8).map (fun c => regAddr .ddrChStatus [c])) ∧
      ∀ c < 8, (∀ m, ms[c]? = some m → m.present = true →
          t.on F.DDR_CH_STATUS_PRESENT [c] = true ∧ t.on F.DDR_CH_STATUS_TRAINED [c] = m.trains ∧
          t.on F.DDR_CH_STATUS_FAILED [c] = !m.trains ∧ t.rd F.DDR_CH_STATUS_SIZE_GIB [c] = min m.sizeGib 128 ∧
          (m.trains = true → 1 ≤ t.rd F.DDR_CH_STATUS_SPEED [c] ∧
            t.rd F.DDR_CH_STATUS_SPEED [c] ≤ max 1 (s.rd F.DDR_CTRL_MAX_SPEED []))) ∧
        (ms.length ≤ c → t.on F.DDR_CH_STATUS_PRESENT [c] = false ∧ t.on F.DDR_CH_STATUS_TRAINED [c] = false ∧
          t.rd F.DDR_CH_STATUS_SIZE_GIB [c] = 0)) ∧
    (∀ (line : Nat), sound s (hbmBase + 64 * line) 64 → Does (.hbmPatrolScrub line Ecc.clean) s s) ∧
    (∀ (c : Fin 8) (line : Nat), sound s (ddrBase + c * ddrRange + 64 * line) 64 → Does (.ddrPatrolScrub c line Ecc.clean) s s)

/-- R367: an audit of a tile's output buffer that is enabled, one period after the last, counts a pass and keeps what
leaked: the cells out of use that were taken a period ago or more; reclaimed cells are counted and free again; a doubly
referenced cell is a fault of the slice. -/
def Sys2Proof.Claim.BufferAudit : Prop :=
  ∀ (tile : Fin 64) (strays : List Nat) (dbl : Bool) (s : State), s.ready →
    let due := (s.tm tile).auditAt + s.auditPeriod tile ≤ s.now
    let leaked := min 16384 (strays.filter (fun a => decide (a + s.auditPeriod tile ≤ s.now))).length
    let back := if s.on F.TM_AUDIT_CFG_RECLAIM [tile] then leaked else 0
    ((s.on F.TM_AUDIT_CFG_EN [tile] = false ∨ s.inReset 3 tile = true ∨ ¬due) → Does (.auditPass tile strays dbl) s s) ∧
    (s.on F.TM_AUDIT_CFG_EN [tile] = true → s.inReset 3 tile = false → due →
      roomy s F.TM_CNT_COUNT [tile, 27] leaked → roomy s F.TM_CNT_COUNT [tile, 28] leaked →
      let seen (u : State) : Prop :=
        u.rd F.TM_AUDIT_STATUS_PASSES [tile] = (s.rd F.TM_AUDIT_STATUS_PASSES [tile] + 1) % 2 ^ F.TM_AUDIT_STATUS_PASSES.width ∧
        u.rd F.TM_AUDIT_STATUS_LAST_LEAKED [tile] = leaked ∧ (0 < leaked → u.on F.TM_AUDIT_STATUS_FOUND [tile] = true) ∧
        counted s u F.TM_CNT_COUNT [tile, 27] leaked ∧ counted s u F.TM_CNT_COUNT [tile, 28] back ∧
        u.fab = { s.fab with tm := u.fab.tm } ∧ u.tm tile = { s.tm tile with auditAt := s.now, leaked := strays.length - back } ∧
        ∀ k, k ≠ tile.val → u.tm k = s.tm k
      (dbl = false → ∃ t, Does (.auditPass tile strays dbl) s t ∧ seen t ∧
        tells { s with fab := t.fab } t (tileDie tile)
          [regAddr .tmAuditStatus [tile], regAddr .tmCnt [tile, 27], regAddr .tmCnt [tile, 28]]) ∧
      (dbl = true → ∃ u, Does (.auditPass tile strays dbl) s (s.after u) ∧ seen u ∧ u.on F.TM_AUDIT_STATUS_DOUBLE [tile] = true ∧
        u.todo = [.isolate 3 tile true] ∧ u.tiles = s.tiles ∧ u.mem = s.mem))

namespace Sys2Proof.Claim
/-- A report of a checker whose count stays within the limits of escalation (R503). -/
def withinLimits (s : State) (r : Report) : Prop :=
  (s.escCount r).ce + 1 ≤ s.rd F.FLT_ESC_CE_LIMIT [] ∧ (s.escCount r).uc + 1 ≤ s.rd F.FLT_ESC_UC_LIMIT []

/-- The value that the next hardware update of an RWS field starts from: what stood there before a software write of the
same cycle, for the update wins (R8; which accesses share a cycle, log 58). -/
def eventBase (s : State) (f : Fld) (idx : List Nat) : Nat :=
  match s.rwsMark (regAddr f.reg idx) with
  | some m => if m.hw then s.rd f idx else fieldOf m.old f.lo f.width
  | none => s.rd f idx

/-- An RWS count that hardware has raised by one, where it did not stand at its end (R8, R10). -/
def raised (s t : State) (f : Fld) (idx : List Nat) : Prop :=
  eventBase s f idx + 1 < 2 ^ f.width - 1 → t.rd f idx = eventBase s f idx + 1

/-- A checker's record at a die, after its report (R500, R501): counted, its status bit set, the last that the die has
recorded. -/
def recorded (s u : State) (d cls checker tile detail : Nat) : Prop :=
  counted s u F.FLT_DIE_CNT_COUNT [d, cls] 1 ∧ u.on ⟨.fltDieStatus, cls, 1⟩ [d] = true ∧
  u.rd F.FLT_DIE_LAST0_WORD [d] % 8 = cls ∧ u.rd F.FLT_DIE_LAST0_WORD [d] / 2 ^ 8 % 256 = checker ∧
  u.rd F.FLT_DIE_LAST0_WORD [d] / 2 ^ 16 % 64 = tile ∧ u.rd F.FLT_DIE_LAST0_WORD [d] / 2 ^ 22 % 4 = d % 4 ∧
  u.rd F.FLT_DIE_LAST0_WORD [d] / 2 ^ 32 = detail ∧ u.rd F.FLT_DIE_LAST1_WORD [d] = s.now

/-- The pair shows the fault state (R505). -/
def pairAt (t : State) (fault : Bool) : Prop :=
  t.faults.pairFault = fault ∧ t.faults.pinP = !fault ∧ t.faults.pinN = fault

/-- `t` differs from `s` in the health block's working state, in registers at these addresses and in what left the switch. -/
def onlyHealth (s t : State) (as : List Nat) : Prop :=
  t = { s with regs := t.regs, faults := t.faults, outbox := t.outbox } ∧ regsBut s t as

/-- `u` differs from `s` in a tile, in registers, in free values used up and in what a fault changes; the tile itself only
by `f`. -/
def testStep (s u : State) (k : Nat) (f : Tile → Tile) : Prop :=
  u = { s with regs := u.regs, tiles := u.tiles, faults := u.faults, stylus := u.stylus, outbox := u.outbox, draws := u.draws, todo := u.todo } ∧
  (∀ i, i ≠ k → u.tile i = s.tile i) ∧ u.tile k = f (s.tile k)

/-- The domains that have no lane groups. -/
def plainDomain (n : Nat) : Prop := 64 ≤ n ∧ n < 200

/-- No life-cycle transition is in progress or to be finished (R580). -/
def settledLc (s : State) : Prop := s.sec.cmd = none ∧ s.sec.fuses.pending = none ∧ s.sec.redo = none

/-- A cold or power-on reset (R559, R560, R564, R565, R585): no memory, no work, every register at its reset value but for
those that show fuses, strap and cause and for the stylus links, which train unless RESET_N is low; the fault pair in the
fault state, the fuses and the flash as they were. -/
def coldFrom (s t : State) (cause strap : Nat) : Prop :=
  t.mem = [] ∧ t.memPoison = [] ∧ t.tiles = [] ∧ t.dm = [] ∧ t.fab = FabricSt.fresh ∧ t.cs = CollSt.fresh ∧ t.bp = BpSt.fresh ∧
  t.stylus = StylusSt.fresh ∧ pairAt t true ∧ t.faults.inReset = [] ∧ t.sys.fwRuns = false ∧ t.count = 0 ∧
  t.sec.fuses = s.sec.fuses ∧ t.sec.flash = s.sec.flash ∧ t.rd F.SEC_LC_STATE [] = s.sec.fuses.lc % 8 ∧
  t.rd F.GLB_RESET_CAUSE_CAUSE [] = cause ∧ t.rd F.GLB_COORD_SLOT_CODE [] = strap ∧
  t.rd F.GLB_COORD_Z [] = (if strap ≤ 9 then strap else 15) ∧
  (∀ p < 2, t.rd F.GLB_STYLUS_STATUS_STATE [p] = (if t.sys.resetN then 0 else 1)) ∧
  ∀ r idx, regAddr r idx ∉ [regAddr .secLc [], regAddr .secSerial [], regAddr .glbCoord [], regAddr .glbResetCause [],
      regAddr .glbStylusStatus [0], regAddr .glbStylusStatus [1]] →
    t.rawReg r idx = resetWord r idx

/-- A warm reset (R6, R559 to R563): memory, the registers that keep their values, strap, stylus links and fault pair
stay; the rest of the registers and all work are as after reset. -/
def warmFrom (s t : State) (cause : Nat) : Prop :=
  t.mem = s.mem ∧ t.memPoison = s.memPoison ∧ t.tiles = [] ∧ t.dm = [] ∧ t.fab = FabricSt.fresh ∧ t.cs = CollSt.fresh ∧ t.bp = BpSt.fresh ∧
  t.stylus = StylusSt.fresh ∧ t.sys.fwRuns = false ∧ t.sys.power = true ∧ t.count = s.count ∧
  (t.faults.pairFault, t.faults.pinP, t.faults.pinN) = (s.faults.pairFault, s.faults.pinP, s.faults.pinN) ∧
  t.sec.fuses = s.sec.fuses ∧ t.sec.flash = s.sec.flash ∧ t.sec.lcReset = false ∧ t.sec.lcBoot = (s.sec.lcBoot || s.sec.lcReset) ∧
  t.rd F.GLB_RESET_CAUSE_CAUSE [] = cause ∧
  raised s t F.GLB_RESET_CAUSE_WARM_COUNT [] ∧ t.rd F.GC_STATUS_EVER_SYNCED [] = s.rd F.GC_STATUS_EVER_SYNCED [] ∧
  t.time = { TimeSt.fresh with stepped := s.time.stepped } ∧
  t.rd F.GLB_COORD_SLOT_CODE [] = s.rd F.GLB_COORD_SLOT_CODE [] ∧
  (∀ p < 2, t.rd F.GLB_STYLUS_STATUS_STATE [p] = s.rd F.GLB_STYLUS_STATUS_STATE [p]) ∧
  ∀ r idx, findReg (regAddr r idx) = some (r, idx) →
    regAddr r idx ∉ [regAddr .secLc [], regAddr .secSerial [], regAddr .glbCoord [], regAddr .glbResetCause [], regAddr .fltPair [],
      regAddr .gcStatus [], regAddr .glbStylusStatus [0], regAddr .glbStylusStatus [1]] → t.rawReg r idx = warmValue r idx (s.rawReg r idx)

/-- A range reads as zero. -/
def zeroed (t : State) (a n : Nat) : Prop := ∀ x, a ≤ x → x < a + n → t.mem.readByte x = 0

/-- The sealed windows read as zero (R428, R429). -/
def sealedWiped (t : State) : Prop := ∀ p ∈ [0, 16, 32, 48], zeroed t (plateBase + p * plateSize) 0x80000

/-- The security commands in the order of their operation codes (R585). -/
def secRows : List (Instr × Nat) :=
  [(.attest, 1), (.getCerts, 2), (.keylist, 3), (.lcAdvance, 4), (.svnAdvance, 5), (.recoverBoot, 6)]

/-- A security command has ended (R587). -/
def secSays (t : State) (result len : Nat) : Prop :=
  t.rd F.SEC_CMD_STATUS_LAST_RESULT [] = result ∧ t.rd F.SEC_CMD_STATUS_LENGTH [] = len ∧ t.rd F.SEC_CMD_STATUS_BUSY [] = 0 ∧
  t.sec.cmd = none

/-- `t` differs from `s` in registers of SEC_CMD_STATUS and the command in progress alone. -/
def onlySec (s t : State) : Prop :=
  t = { s with regs := t.regs, sec := { s.sec with cmd := t.sec.cmd } } ∧ regsBut s t [regAddr .secCmdStatus []]

/-- A range that a security command reads: in a window, its words sound, these its bytes. -/
def secSource (s : State) (a : Nat) (b : List Byte) : Prop :=
  s.rangeWin a b.length ≠ none ∧ sound s a b.length ∧ s.mem.read a b.length = b

/-- What drives the output pins (R601): 1 the boundary register and 2 nothing, both only while RESET_N is low, else 0, the
device. -/
def driver (x : SysSt) : Nat :=
  if x.resetN = false then 0 else if x.jtagIr = 0 ∨ x.jtagIr = 3 ∨ x.jtagIr = 4 then 1 else if x.jtagIr = 5 then 2 else 0

/-- A change of what drives the pins, as it is seen outside. -/
def pinsSeen (s t : State) : List Emit :=
  if driver t.sys = driver s.sys then [] else [.pins (driver t.sys) (if driver t.sys = 1 then t.sys.boundary else 0)]

/-- The JTAG instruction register holds an opcode, and what the instruction that it acts as selects has left (R601). -/
def shifts (s t : State) (op acts bits : Nat) : Prop :=
  t = { s with sys := { s.sys with jtagIr := op }, outbox := s.outbox ++ [.jtag acts bits] ++ pinsSeen s t }

/-- The fields that both software writes and hardware updates (R8), with their indices. -/
def rwsRows : List (Fld × List Nat) :=
  [(F.GLB_RESET_CAUSE_WARM_COUNT, []), (F.SEC_TAMPER_COUNT, []), (F.FLT_RECOVERY_COUNT, [])] ++
  (List.range 4).flatMap (fun d => [(F.FLT_DIE_LAST0_WORD, [d]), (F.FLT_DIE_LAST1_WORD, [d])])

/-- A field after a software write by its access code (R6). -/
def fieldWritten (f : FieldDesc) (old v new : Nat) : Prop :=
  let a := fieldOf old f.lo f.width
  let b := fieldOf v f.lo f.width
  fieldOf new f.lo f.width = (match f.access with
    | .rw | .rws => b
    | .w1c => a - (a &&& b)
    | .wo => 0
    | .ro | .rc => a)
end Sys2Proof.Claim

/-- R78, R498 to R501, R511: a checker's report. A class that the checker does not raise changes nothing. A report of
another is counted at the die of its unit, sets its status bit and is the die's last record; a UL of a block isolates it,
a UF stops data service. An uncorrectable route entry becomes invalid, a residue mismatch is counted at its tile. A report
of a memory speaks of a word of the line or page that DETAIL names (which, log 10), and an uncorrectable one is poison
from then on. An injected report uses up an injection armed for its checker and unit and has the class of that injection
(log 38); without one nothing happens. -/
def Sys2Proof.Claim.CheckersReport : Prop :=
  ∀ (die : Fin 4) (checker : Byte) (cls : Fin 6) (tile : Fin 64) (detail index : BitVec 32) (thread : Fin 128) (s : State), s.ready →
    let k := checker.toNat
    let perTile : Prop := 1 ≤ k ∧ k ≤ 9
    let inMem : Prop := k = 7 ∨ k = 0x11 ∨ k = 0x12
    let t := if 1 ≤ k ∧ k ≤ 9 then tile.val else 0
    let d := checkerDie die k tile index.toNat
    let c (inj : Bool) := Instr.faultReport die checker cls tile detail index thread inj
    let r (cl : Nat) (inj : Bool) : Report := ⟨d, cl, k, t, detail.toNat, index.toNat, inj, false, false⟩
    (cls.val ∉ checkerClasses k → Does (c false) s s) ∧
    (¬inMem → cls.val ∈ checkerClasses k → (k = 0x10 → cls.val = 2 → s.comm (detail.toNat % 2 ^ 20) = none) →
      d < 4 → withinLimits s (r cls false) → roomy s F.FLT_DIE_CNT_COUNT [d, cls] 1 →
      ∃ u, Does (c false) s (s.after u) ∧ recorded s u d cls k t detail.toNat ∧
        (∀ w, cls.val = 3 → wrapperOf (r cls false) = some w → Due.isolate w.1 w.2 true ∈ u.todo) ∧
        (cls.val = 4 → Due.uf ∈ u.todo ∧ u.faults.ufOut = true) ∧
        (k = 5 ∨ k = 6 → (roomy s F.TILE_RESIDUE_CNT_COUNT [tile] 1 → counted s u F.TILE_RESIDUE_CNT_COUNT [tile] 1) ∧
          u.on (if k = 6 then F.TILE_RESIDUE_STATUS_XH_ERR else F.TILE_RESIDUE_STATUS_HATCH_ERR) [tile] = true) ∧
        (k = 0x0A → cls.val = 2 → s.validId (detail.toNat / 64) = true → detail.toNat < 65536 →
          u.rd ⟨.rtEntry, 0, 1⟩ [detail.toNat] = 0 ∧ u.tiles = s.tiles)) ∧
    (inMem → cls.val ∈ checkerClasses k → s.faults.inject = none →
      let n := if k = 7 then 64 else 4096
      let a := if k = 7 then plateBase + tile.val * plateSize + detail.toNat % 131072 * 64 else detail.toNat * 4096
      let win := if k = 7 then Win.plate else if k = 0x11 then Win.hbm else Win.ddr
      ((∀ w ∈ wordsOf a n, s.byteWin (8 * w) ≠ some win) → Does (c false) s { s with draws := s.draws + 1 }) ∧
      ((∀ w ∈ wordsOf a n, s.byteWin (8 * w) = some win ∧ w ∉ s.memPoison ∧
          (let h := s.eccHome (8 * w)
           withinLimits s ⟨h.2.2, cls, k, t, 0, h.2.1, false, false, false⟩ ∧ roomy s F.FLT_DIE_CNT_COUNT [h.2.2, cls] 1)) →
        ∃ u w, w ∈ wordsOf a n ∧ Does (c false) s (s.after u) ∧
          recorded s u (s.eccHome (8 * w)).2.2 cls k t (if k = 7 then detail.toNat % 131072 else detail.toNat) ∧
          u.memPoison = (if cls.val = 2 then addWord w s.memPoison else s.memPoison) ∧ u.mem = s.mem ∧ u.tiles = s.tiles)) ∧
    (¬inMem → s.faults.inject = none → Does (c true) s s) ∧
    (∀ j, s.faults.inject = some j → ¬inMem → k ≠ 0x10 → k ≠ 0x16 → checkerClasses k ≠ [] →
      j.checker = k → j.die = d → (perTile → j.tile = t % 16) → (¬perTile → j.index = index.toNat) → 0 < j.left →
      s.checkerShut k d t index.toNat = false →
      let cl := injectedClass k j.mode
      d < 4 → withinLimits s (r cl true) → roomy s F.FLT_DIE_CNT_COUNT [d, cl] 1 →
      ∃ u, Does (c true) s (s.after u) ∧ recorded s u d cl k t detail.toNat ∧ u.rd F.FLT_DIE_LAST0_WORD [d] / 8 % 2 = 1 ∧
        u.faults.inject = (if j.left = 1 then none else some { j with left := j.left - 1 }) ∧
        (j.left = 1 → u.rd F.FLT_INJECT_ARMED [] = 0 ∧ u.rd F.FLT_INJECT_DONE [] = 1))

/-- R503, R505 to R507, R511, R523, R524: the health block's periods and pins, and fault injection. A period's end
restarts the escalation counts. Quiet time returns the pair to normal and counts the recovery, but not while a UF is out,
not before READY, not until QUIET_MS has passed since the last such fault, and the first return after reset is not
counted. FORCE enters the fault state. Unequal pins set SENSE_ERR. GO arms an injection, unless one is armed or the
checker is none of those that it can address. -/
def Sys2Proof.Claim.PairAndInjection : Prop :=
  ∀ (s : State), s.ready →
    Does .escWindowExpire s { s with faults := { s.faults with esc := [], ul := [] } } ∧
    (s.faults.pairFault = false ∨ s.faults.ufOut = true ∨ s.rd F.SEC_BOOT_STATUS_PHASE [] ≠ 3 ∨ s.quietPast = false → Does .quietPeriodEnd s s) ∧
    (s.faults.pairFault = true → s.faults.ufOut = false → s.rd F.SEC_BOOT_STATUS_PHASE [] = 3 → s.quietPast = true →
      ∃ t, Does .quietPeriodEnd s t ∧ onlyHealth s t [regAddr .fltPair [], regAddr .fltRecovery []] ∧ pairAt t false ∧
        t.rd F.FLT_PAIR_STATE [] = 0 ∧ t.faults.firstReturn = false ∧
        (s.faults.firstReturn = true → t.rd F.FLT_RECOVERY_COUNT [] = s.rd F.FLT_RECOVERY_COUNT []) ∧
        (s.faults.firstReturn = false → raised s t F.FLT_RECOVERY_COUNT [])) ∧
    (s.reaches .fltPair [] → ∃ t, Does .pairForce s t ∧ onlyHealth s t [regAddr .fltPair []] ∧ pairAt t true ∧
      t.faults.lastFault = some s.now ∧ t.rd F.FLT_PAIR_STATE [] = (if s.faults.ufOut then 2 else 1) ∧
      t.outbox = s.outbox ++ (if !s.faults.pairFault && s.i3c.ibiEn then [.ibi 1] else [])) ∧
    (∃ t, Does .pairSenseMismatch s t ∧ tells s t 0 [regAddr .fltPair []] ∧ t.on F.FLT_PAIR_SENSE_ERR [] = true) ∧
    (∀ (v : Word), s.reaches .fltInject [] →
      let k := v.toNat % 256
      let bad : Prop := s.on F.FLT_INJECT_ARMED [] = true ∨ k = 0 ∨ 0x17 < k ∨ k = 0x16
      (bad → ∃ t, Does (.fltInjectGo v) s t ∧ refused s t (regAddr .fltInject [])) ∧
      (¬bad → ∃ t j, Does (.fltInjectGo v) s t ∧ onlyHealth s t [regAddr .fltInject []] ∧ t.outbox = s.outbox ∧
        t.on F.FLT_INJECT_ARMED [] = true ∧ t.faults = { s.faults with inject := some j } ∧ j.checker = k ∧ j.die = v.toNat / 2 ^ 8 % 4 ∧
        j.tile = v.toNat / 2 ^ 10 % 16 ∧ j.index = v.toNat / 2 ^ 16 % 1024 ∧ j.left = max 1 (v.toNat / 2 ^ 26 % 256) ∧ j.noEsc = v.toNat.testBit 34))

/-- R503, R508 to R510, R525: resets of blocks, outside a warm reset. A request for a unit that does not exist ends with
RESULT 2, for one in reset with 1; while BUSY its GO is ignored and its fields are written; another isolates the unit: a
tile's core loses its threads and its queues, and nothing that it had under way reaches a ticket any more; a port trains
again, a datamover halts, the pool manager's requests end. The end of the reset time opens the wrapper and raises an
event; a unit that stays in reset is a UF. -/
def Sys2Proof.Claim.BlockResets : Prop :=
  ∀ (dom : Fin 8) (inst : Fin 64) (s : State), s.ready →
    let mine (b : InReset) : Bool := b.domain == dom.val && b.inst == inst.val
    (s.reaches .fltBlkrst [] → s.inWarm = false →
      let c := Instr.blockResetRequest dom inst
      let named (t : State) : Prop := t.rd F.FLT_BLKRST_DOMAIN [] = dom ∧ t.rd F.FLT_BLKRST_INSTANCE [] = inst
      (s.on F.FLT_BLKRST_BUSY [] = true → ∃ t, Does c s t ∧ s.onlyReg t .fltBlkrst [] ∧ named t ∧ t.on F.FLT_BLKRST_BUSY [] = true ∧
        t.rd F.FLT_BLKRST_RESULT [] = s.rd F.FLT_BLKRST_RESULT []) ∧
      (s.on F.FLT_BLKRST_BUSY [] = false →
        (domainSize dom ≤ inst → ∃ t, Does c s t ∧ s.onlyReg t .fltBlkrst [] ∧ named t ∧ t.rd F.FLT_BLKRST_RESULT [] = 2) ∧
        (inst < domainSize dom → s.inReset dom inst = true → ∃ t, Does c s t ∧ s.onlyReg t .fltBlkrst [] ∧ named t ∧
          t.rd F.FLT_BLKRST_RESULT [] = 1) ∧
        (inst < domainSize dom → s.inReset dom inst = false → ∃ u, Does c s (s.after u) ∧
          u.faults.inReset = s.faults.inReset ++ [⟨dom.val, inst.val, true⟩] ∧ named u ∧ u.on F.FLT_BLKRST_BUSY [] = true ∧
          (dom.val = 0 → handsOver (s.updTile inst Tile.resetCore) u ∧
            u.fab = { s.fab with xfers := s.fab.xfers.filter (fun x => x.tile != inst.val) } ∧
            (∀ id cm, s.comm id = some cm → u.comm id =
              some { cm with ops := cm.ops.map (fun x => if x.home = inst.val then { x with entry := 512 } else x) }) ∧
            ((s.tile inst).memRun = [] → u.mem = s.mem ∧ u.memPoison = s.memPoison)) ∧
          (dom.val = 4 → s.fabricPort inst = true → s.roleIdles inst = false → u.portState inst = pTRAINING ∧ u.tiles = s.tiles) ∧
          (dom.val = 6 → u.on F.DM_STATUS_HALTED [inst] = true ∧ ∀ c < 56, u.dmState inst c = 3 ∧ (u.chan inst c).desc = none) ∧
          (dom.val = 7 → u.bp.waits = [] ∧ (∀ k < 4, (u.pool k).cache = []) ∧ u.tiles = s.tiles)))) ∧
    (s.inReset dom inst = false → Does (.blockResetRelease dom inst) s s ∧ Does (.blockResetStuck dom inst) s s) ∧
    (∀ b, s.faults.inReset.find? mine = some b →
      (∃ u, Does (.blockResetRelease dom inst) s (s.after u) ∧ u.faults.inReset = s.faults.inReset.filter (fun x => !mine x) ∧
        (b.asked = true → u.on F.FLT_BLKRST_BUSY [] = false ∧ u.rd F.FLT_BLKRST_RESULT [] = 0) ∧
        u.todo = (if dom.val = 3 then [.retryAll, .reoffer] else []) ∧ u.tiles = s.tiles ∧ u.mem = s.mem ∧ u.fab = s.fab) ∧
      (∃ u, Does (.blockResetStuck dom inst) s (s.after u) ∧ u.faults.inReset = s.faults.inReset ∧ u.faults.ufOut = true ∧
        (b.asked = true → u.on F.FLT_BLKRST_BUSY [] = false ∧ u.rd F.FLT_BLKRST_RESULT [] = 3) ∧ u.todo = [.uf]))

/-- R519, R527: the arithmetic self-test of a tile. A request under a tolerance below 40 µs answers BUSY, one while a test
waits or runs does nothing, another holds the tile's new work. A test runs once the engines are empty and no gating group
is on the tile, and does not if they are not in time. PASS lets the work go; a first FAIL isolates the engine and the test
runs again, a second is a UF. Completion: on these premises Sys2Proof.Machine.exec answers a next state for
aselftestRequest, aselftestRun, aselftestWaitExpire, aselftestEnd. -/
def Obligations.ArithmeticSelfTest : Prop :=
  ∀ (k : Fin 64) (s : State), s.ready →
    let r := s.rd F.FLT_ASELFTEST_RESULT [k]
    let hold (b : Bool) (tries : Nat) (tl : Tile) : Tile := ({ tl with testHold := b, stTries := tries }).settle
    let tries := (s.tile k).stTries
    (s.reaches .fltAselftest [k] →
      (r = 1 ∨ r = 2 → Does (.aselftestRequest k) s s) ∧
      (r ≠ 1 → r ≠ 2 → s.rd F.PWR_DOMAIN_TOL_NS [64 + k.val] < 40000 →
        ∃ t, Does (.aselftestRequest k) s t ∧ s.onlyReg t .fltAselftest [k] ∧ t.rd F.FLT_ASELFTEST_RESULT [k] = 5) ∧
      (r ≠ 1 → r ≠ 2 → 40000 ≤ s.rd F.PWR_DOMAIN_TOL_NS [64 + k.val] → ∃ u, Does (.aselftestRequest k) s (s.after u) ∧
        testStep s u k (hold true 0) ∧ regsBut s u [regAddr .fltAselftest [k]] ∧ u.rd F.FLT_ASELFTEST_RESULT [k] = 1)) ∧
    (r ≠ 1 → Does (.aselftestRun k) s s ∧ Does (.aselftestWaitExpire k) s s) ∧
    (r = 1 →
      let empty : Prop := (s.tile k).hatchQ = [] ∧ (s.tile k).xhQ = [] ∧ (s.tile k).hatchRun = [] ∧ (s.tile k).xhRun = [] ∧
        s.gatingOn k = false ∧ s.inReset 1 k = false ∧ s.inReset 2 k = false
      (empty → ∃ t, Does (.aselftestRun k) s t ∧ s.onlyReg t .fltAselftest [k] ∧ t.rd F.FLT_ASELFTEST_RESULT [k] = 2) ∧
      (¬empty → Does (.aselftestRun k) s s) ∧
      (∃ u, Does (.aselftestWaitExpire k) s (s.after u) ∧ testStep s u k (hold false tries) ∧
        regsBut s u [regAddr .fltAselftest [k]] ∧ u.rd F.FLT_ASELFTEST_RESULT [k] = 5)) ∧
    (∀ xh, let runs (u : State) : Prop := u.rd F.FLT_ASELFTEST_RUNS [k] = (s.rd F.FLT_ASELFTEST_RUNS [k] + 1) % 65536
      (∀ pass, r ≠ 2 → Does (.aselftestEnd k pass xh) s s) ∧
      (r = 2 →
        (∃ u, Does (.aselftestEnd k true xh) s (s.after u) ∧ testStep s u k (hold false tries) ∧ runs u ∧
          regsBut s u [regAddr .fltAselftest [k]] ∧ u.rd F.FLT_ASELFTEST_RESULT [k] = 3) ∧
        (tries = 0 → ∃ u, Does (.aselftestEnd k false xh) s (s.after u) ∧ testStep s u k (fun tl => { tl with stTries := 1 }) ∧ runs u ∧
          u.rd F.FLT_ASELFTEST_RESULT [k] = 1 ∧ u.todo = [.isolate (if xh then 2 else 1) k true]) ∧
        (tries ≠ 0 → ∃ u, Does (.aselftestEnd k false xh) s (s.after u) ∧ testStep s u k (hold false tries) ∧ runs u ∧
          u.rd F.FLT_ASELFTEST_RESULT [k] = 4 ∧ u.todo = [.uf])))

/-- R552, R553: power domains beside the lanes. A tolerance below the exit latency of the low state that a domain is in
wakes it. A domain that is idle and tolerates the exit latency enters a low state, counted; with a tolerance of zero none
does. The end of the exit makes it active, and collectives that waited for it go on. -/
def Sys2Proof.Claim.PowerDomains : Prop :=
  ∀ (n : Fin 200) (s : State), s.ready → plainDomain n →
    let st := s.pwrState n
    let tol := s.rd F.PWR_DOMAIN_TOL_NS [n]
    (∀ (v : BitVec 32), s.reaches .pwrDomain [n] → ∃ t, Does (.pwrDomainWrite n v) s t ∧ s.onlyReg t .pwrDomain [n] ∧
      t.rd F.PWR_DOMAIN_TOL_NS [n] = v.toNat ∧ t.rd F.PWR_DOMAIN_ENTRIES [n] = s.rd F.PWR_DOMAIN_ENTRIES [n] ∧
      t.pwrState n = (if (st = 1 ∨ st = 2) ∧ v.toNat < exitLatency n (st == 2) then 3 else st)) ∧
    (∀ deep, let goal := if deep then 2 else 1
      (tol = 0 ∨ tol < exitLatency n deep ∨ s.pwrIdle n deep = false ∨ goal ≤ st → Does (.powerStateEnter n deep) s s) ∧
      (0 < tol → exitLatency n deep ≤ tol → s.pwrIdle n deep = true → st < goal → ∃ t, Does (.powerStateEnter n deep) s t ∧
        s.onlyReg t .pwrDomain [n] ∧ t.pwrState n = goal ∧ t.rd F.PWR_DOMAIN_TOL_NS [n] = tol ∧
        t.rd F.PWR_DOMAIN_ENTRIES [n] = (s.rd F.PWR_DOMAIN_ENTRIES [n] + 1) % 65536)) ∧
    (st = 0 → Does (.powerStateExit n) s s) ∧
    (st ≠ 0 → ∃ u, Does (.powerStateExit n) s (s.after u) ∧ u.pwrState n = 0 ∧
      u = { s with regs := u.regs, todo := s.cs.comms.map (fun e => Due.advance e.1) } ∧ regsBut s u [regAddr .pwrDomain [n]] ∧
      u.rd F.PWR_DOMAIN_ENTRIES [n] = s.rd F.PWR_DOMAIN_ENTRIES [n] ∧ u.rd F.PWR_DOMAIN_TOL_NS [n] = tol)

/-- R593, R596, R597: temperature and input power. A sample is shown; above its threshold it sets ALERT or THROTTLING,
ALERT clears 5 °C below it, and above 115 °C the module switches off until power good rises again below 90 °C. Each
millisecond the throttle halves the rate while the last sample was above its threshold, at most thrice, and doubles it
while that was 3 °C below until it ends. Through a warm reset THERM_N holds its level (R562). Excess of input power slows
some die, and without excess no die is slowed further. -/
def Sys2Proof.Claim.HeatAndPower : Prop :=
  ∀ (s : State), s.ready →
    (∀ (x : BitVec 16), x.toInt ≤ 1150 →
      let alert : Int := (s.rd F.PWR_THERM_ALERT_C [] : Int) * 10
      let thr : Int := (s.rd F.PWR_THERM_THROTTLE_C [] : Int) * 10
      ∃ t, Does (.thermalSample x) s t ∧
        t = { s with regs := t.regs, sys := { s.sys with thermN := t.sys.thermN, heat := t.sys.heat }, faults := t.faults, stylus := t.stylus, outbox := t.outbox } ∧
        regsBut s t (regAddr .pwrTherm [] :: eventRegs 0) ∧ t.rd F.PWR_THERM_TEMP [] = x.toNat ∧
        (alert < x.toInt → t.on F.PWR_THERM_ALERT [] = true ∧ (s.inWarm = false → t.sys.thermN = true)) ∧
        (x.toInt < alert - 50 → t.on F.PWR_THERM_ALERT [] = false ∧ (s.inWarm = false → t.sys.thermN = false)) ∧
        (s.inWarm = true → t.sys.thermN = s.sys.thermN) ∧
        t.sys.heat = (if thr < x.toInt then 2 else if x.toInt < thr - 30 then 0 else 1) ∧
        (alert - 50 ≤ x.toInt → x.toInt ≤ alert → t.on F.PWR_THERM_ALERT [] = s.on F.PWR_THERM_ALERT []) ∧
        t.on F.PWR_THERM_THROTTLING [] = (s.on F.PWR_THERM_THROTTLING [] || decide (thr < x.toInt))) ∧
    (∀ (x : BitVec 16), 1150 < x.toInt → ∃ t, Does (.thermalSample x) s t ∧ t.sys.power = false ∧ t.sys.tripped = true ∧
      t.faults.pinP = false ∧ t.faults.pinN = false ∧ t.sys.thermN = false) ∧
    (let n := s.sys.throttleT
     let step (k : Nat) : State := { s with sys := { s.sys with throttleT := k } }
     (s.on F.PWR_THERM_THROTTLING [] = false → Does .throttleStep s s) ∧
     (s.on F.PWR_THERM_THROTTLING [] = true →
      (s.sys.heat = 2 → Does .throttleStep s (step (min 3 (n + 1)))) ∧
      (s.sys.heat ≠ 2 → s.sys.heat ≠ 0 → Does .throttleStep s s) ∧
      (s.sys.heat = 0 → 1 < n → Does .throttleStep s (step (n - 1))) ∧
      (s.sys.heat = 0 → n ≤ 1 → ∃ t, Does .throttleStep s t ∧ t.sys.throttleT = 0 ∧ t.on F.PWR_THERM_THROTTLING [] = false ∧
        t.mem = s.mem ∧ t.tiles = s.tiles))) ∧
    (∀ (vin ms1 ms10 ms1000 : Nat), vin < 65536 → ms1 < 65536 →
      let over_ : Prop := 2300 < ms10 ∨ s.rd F.PWR_INPUT_CAP_W [] < ms1000
      ∃ t, Does (.powerCapSample vin ms1 ms10 ms1000) s t ∧ t.rd F.PWR_INPUT_VIN_MV [] = vin ∧ t.rd F.PWR_INPUT_PIN_W [] = ms1 ∧
        regsBut s t (regAddr .pwrInput [] :: eventRegs 0) ∧ t.tiles = s.tiles ∧ t.mem = s.mem ∧
        (over_ → t.on F.PWR_INPUT_CAPPING [] = true) ∧
        (¬over_ → ∀ d < 4, Tbl.look 0 t.sys.throttleP d ≤ Tbl.look 0 s.sys.throttleP d) ∧
        (t.on F.PWR_INPUT_CAPPING [] = false → ∀ d < 4, Tbl.look 0 t.sys.throttleP d = 0))

/-- R559, R560, R564, R592, R597, R598: power and cold resets. Power good rises on a module that has not tripped and
RESET_N asserted on a powered one bring the reset state, with their causes; a module that has tripped stays off until its
hottest junction reads below 90 °C (R596). Loss of power keeps fuses and flash. The release of RESET_N lets the stylus
links train (R569) and latches the strap code: the band of 112.5 mV in which all of its 16 samples lie, else 15. -/
def Sys2Proof.Claim.PowerAndColdResets : Prop :=
  ∀ (s : State), settledLc s → s.todo = [] →
    (∀ (samples : List Nat), let strap := strapCode samples
      (∀ c < 15, samples.length = 16 → (∀ v ∈ samples, 1125 * c ≤ v ∧ v < 1125 * (c + 1)) → strap = c) ∧
      ((∀ c < 15, ¬(samples.length = 16 ∧ ∀ v ∈ samples, 1125 * c ≤ v ∧ v < 1125 * (c + 1))) → strap = 15) ∧
      (s.sys.power = true ∨ s.sys.tripped = true → Does (.powerGoodRise samples) s s) ∧
      (s.sys.power = false → s.sys.tripped = false → ∃ t, Does (.powerGoodRise samples) s t ∧ coldFrom s t 0 strap ∧
        t.sys.power = true ∧ t.sys.resetN = s.sys.resetN ∧ t.pending = s.pending) ∧
      (s.sys.resetN = false → Does (.resetNRelease samples) s s) ∧
      (s.sys.resetN = true → s.sys.power = true → ∃ t, Does (.resetNRelease samples) s t ∧
        t = { s with regs := t.regs, sys := { s.sys with resetN := false }, outbox := s.outbox ++ pinsSeen s t } ∧
        regsBut s t [regAddr .glbCoord [], regAddr .glbStylusStatus [0], regAddr .glbStylusStatus [1]] ∧
        (∀ p < 2, t.rd F.GLB_STYLUS_STATUS_STATE [p] = max 1 (s.rd F.GLB_STYLUS_STATUS_STATE [p])) ∧
        t.rd F.GLB_COORD_SLOT_CODE [] = strap ∧ t.rd F.GLB_COORD_Z [] = (if strap ≤ 9 then strap else 15)) ∧
      (s.sys.resetN = true → s.sys.power = false → Does (.resetNRelease samples) s { s with sys := { s.sys with resetN := false } })) ∧
    (s.sys.power = false → Does .powerGoodFall s s) ∧
    (s.sys.power = true → ∃ t, Does .powerGoodFall s t ∧ t.sys.power = false ∧ t.sys.fwRuns = false ∧ t.faults.pinP = false ∧
      t.faults.pinN = false ∧ t.sys.thermN = false ∧ t.sys.jtagIr = 1 ∧ t.sys.boundary = 0 ∧ t.sec.fuses = s.sec.fuses ∧
      t.sec.flash = s.sec.flash) ∧
    (s.sys.power = true → ∃ t, Does .resetNAssert s t ∧ coldFrom s t 1 (s.rd F.GLB_COORD_SLOT_CODE []) ∧ t.sys.resetN = true ∧ t.live = false ∧
      t.outbox = s.outbox ++ pinsSeen s t) ∧
    (s.sys.power = false → Does .resetNAssert s { s with sys := { s.sys with resetN := true } }) ∧
    (∀ (x : BitVec 16), s.sys.power = false →
      (s.sys.tripped = false ∨ 900 ≤ x.toInt → Does (.thermalSample x) s s) ∧
      (s.sys.tripped = true → x.toInt < 900 → Does (.thermalSample x) s { s with sys := { s.sys with tripped := false } }))

/-- R504, R559 to R563, R580, R583, R584: warm resets, each with its cause; a key that is wrong, a watchdog that is off, a
UF without its action and a transition not confirmed perform none; nor does one in progress. A kick starts the watchdog's
period again. -/
def Sys2Proof.Claim.WarmResets : Prop :=
  ∀ (s : State), s.ready → s.inWarm = false → settledLc s → Tbl.sorted s.regs →
    let warm (c : Instr) (cause : Nat) : Prop := ∃ t, Does c s t ∧ warmFrom s t cause
    warm .wresetNPulse 2 ∧ (s.reaches .glbResetCmd [] → warm .warmResetCmd 3) ∧
    (s.sys.fwRuns = true → s.rd F.GLB_MGMT_WDOG_PERIOD_MS [] ≠ 0 → warm .mgmtWdogExpire 4) ∧
    (s.sys.fwRuns = false ∨ s.rd F.GLB_MGMT_WDOG_PERIOD_MS [] = 0 → Does .mgmtWdogExpire s s) ∧
    (s.faults.ufOut = true → s.on F.FLT_ESC_UF_ACTION [] = true → warm .escalationReset 5) ∧
    (s.faults.ufOut = false ∨ s.on F.FLT_ESC_UF_ACTION [] = false → Does .escalationReset s s) ∧
    (s.sec.lcReset = true → warm .lcChangeReset 6) ∧
    (s.sec.lcReset = false → Does .lcChangeReset s s) ∧
    (s.reaches .glbMgmtWdog [] → ∃ t, Does .mgmtWdogKick s t ∧ t = { s with regs := t.regs, sys := { s.sys with wdogFrom := s.now } } ∧
      regsBut s t [regAddr .glbMgmtWdog []] ∧ t.rd F.GLB_MGMT_WDOG_PERIOD_MS [] = s.rd F.GLB_MGMT_WDOG_PERIOD_MS [])

/-- R568 to R570, R578: boot. A slot that cannot be read, or whose image is refused, gives its result to the slot; after
slot A comes slot B, with PHASE VERIFY, after slot B recovery with every plate the host's; an image that passes every
check runs. READY opens the device, gives the plates their owners after a life-cycle change and restarts the escalation
counts. Completion: on these premises Sys2Proof.Machine.exec answers a next state for bootSlotChecked, bootReady. -/
def Obligations.BootRuns : Prop :=
  ∀ (s : State), s.ready →
    let phase := s.rd F.SEC_BOOT_STATUS_PHASE []
    let second := s.rd F.SEC_BOOT_STATUS_RESULT_A [] != 1
    let result (t : State) : Nat := t.rd (if second then F.SEC_BOOT_STATUS_RESULT_B else F.SEC_BOOT_STATUS_RESULT_A) []
    let next (t : State) : Prop := (second = false → t.rd F.SEC_BOOT_STATUS_PHASE [] = 1 ∧ t.tiles = s.tiles) ∧
      (second = true → t.rd F.SEC_BOOT_STATUS_PHASE [] = 4 ∧ ∀ p < 64, t.rd F.PLATE_OWNER_KIND [p] = 2 ∧ t.rd F.PLATE_OWNER_TILE [p] = p % 16)
    let known := if second then s.sec.flash.slotB else s.sec.flash.slotA
    (∀ found fails, s.sys.fwRuns = true ∨ phase = 4 → Does (.bootSlotChecked found fails) s s) ∧
    (s.sys.fwRuns = false → phase ≠ 4 →
      (∀ found, ∃ t, Does (.bootSlotChecked found true) s t ∧ result t = 6 ∧ next t ∧ t.sec = s.sec ∧ t.sys = s.sys) ∧
      (known = none → ∃ t, Does (.bootSlotChecked none false) s t ∧ result t = 6 ∧ next t ∧ t.sec = s.sec ∧ t.sys = s.sys) ∧
      (∀ found img, known.or found = some img → s.slotCheck img ≠ 0 → ∃ t, Does (.bootSlotChecked found false) s t ∧
        result t = s.slotCheck img ∧ next t ∧ t.sys = s.sys ∧ t.sec.flash = s.sec.flash.learn second (some img)) ∧
      (∀ found img, known.or found = some img → s.slotCheck img = 0 → ∃ u, Does (.bootSlotChecked found false) s (s.after u) ∧
        result u = 0 ∧ u.sys.fwRuns = true ∧ u.rd F.SEC_BOOT_STATUS_PHASE [] = 2 ∧ u.rd F.SEC_BOOT_STATUS_SLOT [] = b2n second ∧
        u.rd F.SEC_BOOT_STATUS_FW_SVN [] = leAt img 8 4 ∧ u.sec.measure = hashNat (img.take (0x100 + leAt img 0xC 4)) ∧ u.tiles = s.tiles ∧
        (∀ key secret, s.sec.fuses.identity = some (key, secret) → u.sec.aliasKey = aliasScalar secret u.sec.measure (leAt img 8 4)) ∧
        (s.sec.fuses.identity = none → u.sec.aliasKey = s.sec.aliasKey ∧ u.sec.aliasCert = s.sec.aliasCert))) ∧
    (phase ≠ 2 → Does .bootReady s s) ∧
    (phase = 2 → ∃ t, Does .bootReady s t ∧ t.rd F.SEC_BOOT_STATUS_PHASE [] = 3 ∧ t.sys = { s.sys with coldBoot := false } ∧
      t.faults.esc = [] ∧ t.faults.ul = [] ∧ t.sec = { s.sec with lcBoot := false } ∧ t.mem = s.mem ∧
      (s.faults.pairFault = true → s.faults.ufOut = false → s.faults.lastFault = none → pairAt t false) ∧
      (s.sec.fuses.lc = 1 → ∀ p < 64, t.rd F.PLATE_OWNER_KIND [p] = 2 ∧ t.rd F.PLATE_OWNER_TILE [p] = p % 16) ∧
      (s.sec.lcBoot = true → s.sec.fuses.lc = 2 ∨ s.sec.fuses.lc = 3 →
        ∀ p < 64, t.rd F.PLATE_OWNER_KIND [p] = 0 ∧ t.rd F.PLATE_OWNER_TILE [p] = p % 16) ∧
      (s.sec.fuses.lc ≠ 1 → s.sec.lcBoot = false → t.tiles = s.tiles))

/-- R581, R588, R428, R429, R574, R575, R579, R585, R587, R607: tamper and security commands. Tamper is recorded and wipes
the sealed windows. GO with OP none does nothing; an operation makes the block BUSY with its addresses, and a command
while BUSY is lost. An operation ends with the result of its own checks: a misaligned address, a life-cycle state that has
no attestation; or it writes its output, stores the key list, raises the fused counter, or changes the life-cycle state
with its wipes. Completion: on these premises Sys2Proof.Machine.exec answers a next state for tamperDetect, secCmdNone,
attest, getCerts, keylist, lcAdvance, svnAdvance, recoverBoot, secCmdDone. -/
def Obligations.SecurityCommands : Prop :=
  ∀ (s : State), s.ready →
    (∀ (kind : Fin 4), ∃ t, Does (.tamperDetect kind) s t ∧ t.on ⟨.secTamper, kind, 1⟩ [] = true ∧
      raised s t F.SEC_TAMPER_COUNT [] ∧ t.on F.SEC_LC_TAMPERED [] = true ∧ sealedWiped t ∧ t.tiles = s.tiles ∧ t.sec = s.sec) ∧
    (s.reaches .secCmd [] → ∀ row ∈ secRows ++ [(Instr.secCmdNone, 0)],
      (s.on F.SEC_CMD_STATUS_BUSY [] = true → ∃ t, Does row.1 s t ∧ s.onlyReg t .secCmdStatus [] ∧ t.on F.SEC_CMD_STATUS_CMD_LOST [] = true) ∧
      (s.on F.SEC_CMD_STATUS_BUSY [] = false →
        (row.2 = 0 → ∃ t, Does row.1 s t ∧ s.onlyReg t .secCmd []) ∧
        (row.2 ≠ 0 → ∃ t, Does row.1 s t ∧ t.on F.SEC_CMD_STATUS_BUSY [] = true ∧ regsBut s t [regAddr .secCmd [], regAddr .secCmdStatus []] ∧
          t = { s with regs := t.regs, sec := { s.sec with cmd := some (row.2, s.rd F.SEC_CMD_SRC_ADDR [], s.rd F.SEC_CMD_DST_ADDR []) } }))) ∧
    (s.sec.cmd = none → ∀ ecc, Does (.secCmdDone ecc) s s) ∧
    (∀ (op src dst : Nat), s.sec.cmd = some (op, src, dst) →
      (src % 64 ≠ 0 ∨ dst % 64 ≠ 0 → ∃ t, Does (.secCmdDone Ecc.clean) s t ∧ onlySec s t ∧ secSays t 4 0) ∧
      (src % 64 = 0 → dst % 64 = 0 → s.mem.wf = true →
        let writes (t : State) (out : List Byte) : Prop :=
          secSays t 0 out.length ∧ t.mem.read dst out.length = out ∧ keepsOutside s t dst out.length ∧ t.tiles = s.tiles
        (op = 1 → s.sec.fuses.lc = 0 ∨ s.sec.fuses.lc = 4 → ∃ t, Does (.secCmdDone Ecc.clean) s t ∧ onlySec s t ∧ secSays t 3 0) ∧
        (∀ nonce : List Byte, op = 1 → s.sec.fuses.lc ≠ 0 → s.sec.fuses.lc ≠ 4 → nonce.length = 48 → secSource s src nonce →
          let body := s.report0 nonce
          let out := body ++ signBytes s.sec.aliasKey (scalarOf (Config.nonce s.draws).toNat) body
          s.rangeWin dst out.length ≠ none → ∃ t, Does (.secCmdDone Ecc.clean) s t ∧ writes t out) ∧
        (op = 2 →
          let certs := s.sec.flash.deviceCert ++ s.sec.aliasCert
          let out := leBytes 4 certs.length ++ certs
          s.rangeWin dst out.length ≠ none → out.length < 2 ^ 32 → ∃ t, Does (.secCmdDone Ecc.clean) s t ∧ writes t out) ∧
        (∀ kl : List Byte, op = 3 → kl.length = 976 → secSource s src kl →
          let key := (kl.drop 0x10).take 96
          (leAt kl 0 4 = 0x4B4C5453 → leAt kl 4 2 = 1 → 1 ≤ leAt kl 6 1 → leAt kl 6 1 ≤ 8 → leAt kl 7 1 = 0 → s.sec.flash.keyList = none →
            s.sec.fuses.owner = some (hashNat key) → (∀ b ∈ (kl.drop (0x70 + 96 * leAt kl 6 1)).take (768 - 96 * leAt kl 6 1), b = 0) →
            (sigOk key (kl.take 0x370) ((kl.drop 0x370).take 96) = true → ∃ t, Does (.secCmdDone Ecc.clean) s t ∧ secSays t 0 0 ∧
              t.sec = { s.sec with cmd := none, keysOk := true, flash := { s.sec.flash with keyList := some kl } } ∧ t.mem = s.mem) ∧
            (sigOk key (kl.take 0x370) ((kl.drop 0x370).take 96) = false → ∃ t, Does (.secCmdDone Ecc.clean) s t ∧ onlySec s t ∧ secSays t 2 0)) ∧
          (leAt kl 0 4 ≠ 0x4B4C5453 → ∃ t, Does (.secCmdDone Ecc.clean) s t ∧ onlySec s t ∧ secSays t 4 0)) ∧
        (∀ (req : List Byte) (target : Nat), op = 4 → req.length = 208 → secSource s src req → s.lcVerdict req = .inr target → target ≠ 1 → target < 8 →
          ∃ t, Does (.secCmdDone Ecc.clean) s t ∧ secSays t 0 0 ∧ t.rd F.SEC_LC_STATE [] = target ∧ t.sec.fuses.lc = target ∧ t.sec.fuses.pending = none ∧
            t.sec.lcReset = true ∧ sealedWiped t ∧ (target = 2 → t.sec.fuses.owner = some (hashNat ((req.drop 0x10).take 96))) ∧
            (target = 3 ∨ target = 4 → zeroed t plateBase (64 * plateSize) ∧ zeroed t hbmBase (384 * 2 ^ 30) ∧ zeroed t ddrBase (8 * ddrRange))) ∧
        (∀ (req : List Byte) (e : Nat), op = 4 → req.length = 208 → secSource s src req → s.lcVerdict req = .inl e →
          ∃ t, Does (.secCmdDone Ecc.clean) s t ∧ onlySec s t ∧ secSays t e 0) ∧
        (op = 5 → (s.sec.fuses.lc = 2 ∨ s.sec.fuses.lc = 3 → ∃ t, Does (.secCmdDone Ecc.clean) s t ∧ secSays t 0 0 ∧ t.mem = s.mem ∧
            t.sec = { s.sec with cmd := none, fuses := { s.sec.fuses with svn := max s.sec.fuses.svn (s.rd F.SEC_BOOT_STATUS_FW_SVN []) } }) ∧
          (s.sec.fuses.lc ≠ 2 → s.sec.fuses.lc ≠ 3 → ∃ t, Does (.secCmdDone Ecc.clean) s t ∧ onlySec s t ∧ secSays t 3 0)) ∧
        (op = 6 → s.rd F.SEC_BOOT_STATUS_PHASE [] ≠ 4 → ∃ t, Does (.secCmdDone Ecc.clean) s t ∧ onlySec s t ∧ secSays t 3 0)))

/-- R577, R601, R603: JTAG of a powered module. BYPASS selects its register; the test instructions act only while RESET_N
is low and else as BYPASS; HIGHZ selects the bypass register, too; what drives the pins is seen when it changes;
SAMPLE/PRELOAD takes the preloaded value; test access is open to an unprovisioned part alone, or to one returned with the
service strap, and is tamper elsewhere; a reset of the TAP selects IDCODE. Completion: on these premises
Sys2Proof.Machine.exec answers a next state for extest, samplePreload, extestPulse, extestTrain, highz, bypass,
filavoTestAccess, jtagTapReset. -/
def Obligations.JtagInstructions : Prop :=
  ∀ (s : State), s.sys.power = true → s.todo = [] →
    (∃ t, Does .bypass s t ∧ shifts s t 0x3FF 0x3FF 0) ∧
    (∀ row ∈ [(Instr.extest, 0), (.extestPulse, 3), (.extestTrain, 4), (.highz, 5)],
      (s.sys.resetN = true → ∃ t, Does row.1 s t ∧ shifts s t row.2 row.2 (if row.2 = 5 then 0 else s.sys.boundary)) ∧
      (s.sys.resetN = false → ∃ t, Does row.1 s t ∧ shifts s t row.2 0x3FF 0)) ∧
    (∀ preload, ∃ t bits, Does (.samplePreload preload) s t ∧
      shifts { s with sys := { s.sys with boundary := preload }, draws := s.draws + 1 } t 2 2 bits) ∧
    (∀ (opcode : Fin 511), let lc := s.sec.fuses.lc
      let isOpen : Prop := lc = 0 ∨ (lc = 3 ∧ s.rd F.GLB_COORD_SLOT_CODE [] = 10)
      (isOpen → ∃ t, Does (.filavoTestAccess opcode) s t ∧ shifts s t (0x200 + opcode.val) (0x200 + opcode.val) 0) ∧
      (¬isOpen → ∃ t, Does (.filavoTestAccess opcode) s t ∧ t.sys.jtagIr = 0x3FF ∧ t.sec = s.sec ∧
        t.on F.SEC_TAMPER_TEST_ACCESS [] = true ∧ raised s t F.SEC_TAMPER_COUNT [] ∧ t.on F.SEC_LC_TAMPERED [] = true ∧ sealedWiped t)) ∧
    (∃ t, Does .jtagTapReset s t ∧ t = { s with sys := { s.sys with jtagIr := 1 }, outbox := s.outbox ++ pinsSeen s t })

/-- R359, R363, R365, R366, R377, R382, R413, R495, R496: registers whose access does more than store. -/
def Sys2Proof.Claim.RegistersWithRules : Prop :=
  ∀ (s : State), s.ready →
    (∀ (tile : Fin 64) (n : Fin 4096) (v : Word), s.reaches .tmPolicer [tile, n] → regAbsent .tmPolicer [tile, n] = false →
      ∃ t b, Does (.tmPolicerWrite tile n v) s t ∧ t = { s with regs := t.regs, fab := { s.fab with pol := t.fab.pol } } ∧
        regsBut s t [regAddr .tmPolicer [tile, n]] ∧ Tbl.find (4096 * tile.val + n.val) t.fab.pol = some b ∧
        b.tc = t.rd F.TM_POLICER_CBS [tile, n] * 64 * 800 ∧ b.te = t.rd F.TM_POLICER_EBS [tile, n] * 64 * 800) ∧
    (∀ (tile : Fin 64) (v : Word), s.reaches .tmPortShape [tile] → regAbsent .tmPortShape [tile] = false →
      let p := tilePort tile
      ∃ t, Does (.shaperWrite (BitVec.ofNat 64 (regAddr .tmPortShape [tile])) v) s t ∧
        t = { s with regs := t.regs, fab := { s.fab with sched := t.fab.sched } } ∧ regsBut s t [regAddr .tmPortShape [tile]] ∧
        (fieldOf (s.rawReg .tmPortShape [tile]) 18 39 = fieldOf v.toNat 18 39 → t.fab = s.fab) ∧
        (fieldOf (s.rawReg .tmPortShape [tile]) 18 39 ≠ fieldOf v.toNat 18 39 → Tbl.find 99 (t.schedOf p).tok = some ((0 : Int), s.now))) ∧
    (∀ (tile : Fin 64) (c : Fin 8) (v : Word), s.reaches .tmSample [tile, c] → regAbsent .tmSample [tile, c] = false →
      ∃ t, Does (.tmSampleWrite tile c v) s t ∧ t = { s with regs := t.regs, fab := { s.fab with sampler := t.fab.sampler } } ∧
        regsBut s t [regAddr .tmSample [tile, c]] ∧ (Tbl.look (0, 0) t.fab.sampler (tilePort tile * 8 + c.val)).1 = 0 ∧
        t.rd F.TM_SAMPLE_N [tile, c] = v.toNat % 65536) ∧
    (∀ (tile : Fin 64) (r : Fin 2) (v : Word), s.reaches .tmSringCfg [tile, r] → regAbsent .tmSringCfg [tile, r] = false →
      let a := 64 * fieldOf v.toNat 6 42
      let len := ringEntries (fieldOf v.toNat 48 4) * (64 + 64 * (fieldOf v.toNat 52 4 + 1))
      let bad : Prop := r.val = 0 ∧ s.closed a len = true
      (bad → ∃ t, Does (.tmSringCfgWrite tile r v) s t ∧ refused s t (regAddr .tmSringCfg [tile, r])) ∧
      (¬bad → ∃ t, Does (.tmSringCfgWrite tile r v) s t ∧ alters s t [regAddr .tmSringCfg [tile, r], regAddr .tmSringIdx [tile, r]] ∧
        t.rd F.TM_SRING_IDX_HEAD [tile, r] = 0 ∧ t.rd F.TM_SRING_IDX_TAIL [tile, r] = 0)) ∧
    (∀ (tile : Fin 64) (j : Fin 16384), s.reaches .tmQcfg [tile, j] →
      ((s.tm tile).resident j = true → ∃ t, Does (.tmQcfgRead tile j) s t ∧ t = { s with fab := t.fab } ∧ t.tm tile = s.tm tile) ∧
      ((s.tm tile).resident j = false → Tbl.find j.val (s.tm tile).filling = none → (s.tm tile).cached < 2048 →
        ∃ t, Does (.tmQcfgRead tile j) s t ∧ t = { s with fab := { s.fab with tm := t.fab.tm } } ∧
          t.tm tile = { s.tm tile with lru := j.val :: (s.tm tile).lru } ∧ ∀ k, k ≠ tile.val → t.tm k = s.tm k)) ∧
    (∀ (lane : Fin 512), s.reaches .lanePrbsErr [lane] → ∃ t, Does (.lanePrbsErrRead lane) s t ∧ s.onlyReg t .lanePrbsErr [lane] ∧
      t.rawReg .lanePrbsErr [lane] = 0) ∧
    (∀ (ring : BitVec 12) (v : Word), s.reaches .glbSqCfg [ring.toNat] →
      let n := ring.toNat
      let on_ := s.on F.GLB_SQ_CFG_EN [n]
      let moved : Prop := fieldOf (s.rawReg .glbSqCfg [n]) 0 11 ≠ fieldOf v.toNat 0 11
      (on_ = true → moved → ∃ t, Does (.glbSqCfgWrite ring v) s t ∧ refused s t (regAddr .glbSqCfg [n])) ∧
      ((on_ = true ∧ ¬moved) ∨ (on_ = false ∧ v.toNat.testBit 11 = false) →
        ∃ t, Does (.glbSqCfgWrite ring v) s t ∧ s.onlyReg t .glbSqCfg [n]) ∧
      (on_ = false → v.toNat.testBit 11 = true → ∃ t, Does (.glbSqCfgWrite ring v) s t ∧ ringsAndRegs s t ∧ t.outbox = s.outbox ∧
        regsBut s t [regAddr .glbSqCfg [n], regAddr .glbSqIdx [n]] ∧ t.rd F.GLB_SQ_IDX_HEAD [n] = 0 ∧ t.rd F.GLB_SQ_IDX_TAIL [n] = 0 ∧
        t.on F.GLB_SQ_CFG_EN [n] = true)) ∧
    (∀ (ring : BitVec 12) (v : Word), s.reaches .glbCqCfg [ring.toNat] →
      let n := ring.toNat
      let old := s.rawReg .glbCqCfg [n]
      let moved : Prop := fieldOf old 0 4 ≠ fieldOf v.toNat 0 4 ∨ fieldOf old 5 1 ≠ fieldOf v.toNat 5 1
      (old.testBit 4 = true → moved → ∃ t, Does (.glbCqCfgWrite ring v) s t ∧ refused s t (regAddr .glbCqCfg [n])) ∧
      (old.testBit 4 = false → v.toNat.testBit 4 = true → ∃ u, Does (.glbCqCfgWrite ring v) s (s.after u) ∧ u.on F.GLB_CQ_CFG_EN [n] = true ∧
        u.rd F.GLB_CQ_IDX_HEAD [n] = 0 ∧ u.rd F.GLB_CQ_IDX_TAIL [n] = 0 ∧ u.rd F.GLB_CQ_CFG_STALLED [n] = 0 ∧ u.todo = [.rings] ∧
        u.tiles = s.tiles ∧ u.mem = s.mem))

/-- R6, R8, R9, R489, R490: a write of any register that has no rule of its own gives each of its fields the value of its
access code and changes no other register; a field that hardware updates too takes the value, unless hardware has updated
it in the same cycle, and an update that follows in that cycle starts from what stood there before; a write of an address
that is unassigned, closed or isolated changes nothing. -/
def Sys2Proof.Claim.RegisterWrites : Prop :=
  ∀ (addr v : Word) (s : State), s.ready → (regWindow addr.toNat 8).isSome = true →
    (∀ r idx, plainWrite s addr.toNat r idx v.toNat → regAddr r idx = addr.toNat → ∃ t, Does (.registerWrite addr v) s t ∧ s.onlyReg t r idx ∧
      ∀ f ∈ r.fields, fieldWritten f (s.rawReg r idx) v.toNat (t.rawReg r idx)) ∧
    (∀ row ∈ rwsRows, regAddr row.1.reg row.2 = addr.toNat → s.reaches row.1.reg row.2 →
      let f := row.1
      let updated : Prop := ∃ m, s.rwsMark addr.toNat = some m ∧ m.hw = true
      ∃ t, Does (.registerWrite addr v) s t ∧ t = { s with regs := t.regs, faults := { s.faults with rws := t.faults.rws } } ∧
        regsBut s t [addr.toNat] ∧ (updated → t.rd f row.2 = s.rd f row.2) ∧ (¬updated → t.rd f row.2 = fieldOf v.toNat f.lo f.width) ∧
        eventBase t f row.2 = eventBase s f row.2) ∧
    (s.reach addr.toNat 8 = .hole ∨ (∃ st, s.reach addr.toNat 8 = .fail st) → Does (.registerWrite addr v) s s)

namespace Sys2Proof.Claim
/-- The commands that a module without power, or held in cold reset, still answers: power, RESET_N, CREF, the temperature
reading and JTAG. -/
def heardAsleep (c : Instr) : Bool :=
  match c with
  | .powerGoodRise _ | .powerGoodFall | .resetNAssert | .resetNRelease _ | .crefLoss | .crefReturn | .thermalSample _ | .extest | .idcode | .samplePreload _ |
    .extestPulse | .extestTrain | .highz | .bypass | .filavoTestAccess _ | .jtagTapReset => true
  | _ => false

/-- Fields that are not zero after reset, as their tables state them. -/
def resetRows : List (Fld × List Nat × Nat) :=
  [(F.GLB_MGMT_WDOG_PERIOD_MS, [], 1000), (F.FLT_PAIR_STATE, [], 1), (F.FLT_PAIR_QUIET_MS, [], 250), (F.FLT_PAIR_LEVEL, [], 3),
   (F.FLT_INJECT_COUNT, [], 1), (F.GLB_SQ_CFG_ENTRIES_LOG2, [0], 4), (F.GLB_CQ_CFG_ENTRIES_LOG2, [0], 4), (F.GLB_CQ_CFG_MOD_COUNT, [0], 1),
   (F.GLB_COORD_ROLE, [], 1)]

/-- A transaction that fits its message (R464 to R466). -/
def txnFits (x : Txn) : Prop :=
  x.ty ∈ [1, 3, 4, 5] ∧ x.flags < 4 ∧ x.tag < 2 ^ 16 ∧ x.len < 8192 ∧ x.addr < 2 ^ 64 ∧
  x.data.length = (if x.ty = 3 ∨ x.ty = 5 then x.len else 0) ∧ (x.ty = 5 → x.len = 8 ∧ x.addr = 0 ∧ fieldOf (leNat x.data) 14 2 = 0 ∧ leNat x.data < 2 ^ 32)

/-- A packet whose fields fit their places on the wire and are those of its kind (R287 to R290). -/
def pktFits (p : Pkt) : Prop :=
  p.dst < 2 ^ 16 ∧ p.src < 2 ^ 16 ∧ p.cls < 8 ∧ p.vc < 3 ∧ p.flags < 256 ∧ p.seq < 2 ^ 16 ∧ p.hops < 32 ∧ p.comm < 2 ^ 20 ∧
  p.chunk < 2 ^ 32 ∧ p.opseq < 2 ^ 32 ∧ p.kind < 64 ∧ p.tile < 16 ∧ p.pktIdx < 4096 ∧ p.msgLast < 4096 ∧ p.arg < 2 ^ 30 ∧
  p.trailer < 2 ^ 32 ∧ p.formOk = true

/-- Some tile runs or stops an image that requires deterministic mode. -/
def needsDeterm (s : State) : Prop :=
  ∃ e ∈ s.tiles, ∃ k ∈ [0, 1, 2, 3], (e.2.slot k).flags.testBit 0 = true ∧ ((e.2.slot k).st = .running ∨ (e.2.slot k).st = .stopping)
end Sys2Proof.Claim

/-- R559, R592: no command stops the machine and none touches the queue of those that wait; a module without power or held
in cold reset hears its power, its reset pin, its reference clock, its temperature and JTAG, and nothing else. With
nothing waiting, a step counts one cycle (the model's choice, log 1), and while an offset is slewed away one cycle in
5,000 counts twice or not at all, in holdover without end (the model's choice, log 40). -/
def Obligations.EveryCommandCompletes : Prop :=
  (∀ (c : Instr) (s : State), ∃ t, exec c s = .next t ∧ t.pending = s.pending ∧
    (s.live = false → s.todo = [] → heardAsleep c = false → t = s)) ∧
  ∀ (s : State), s.pending = [] → ∃ t, step s = .next t ∧ t = { s with count := t.count, time := { s.time with debt := t.time.debt, phase := t.time.phase } } ∧
    (s.live = false → t = s) ∧
    (s.live = true → -8 < s.time.debt → s.time.debt < 8 → t = { s with count := s.count + 1 }) ∧
    (s.live = true → s.time.debt ≤ -8 ∨ 8 ≤ s.time.debt →
      (s.time.phase + 1 < 5000 → t.count = s.count + 1 ∧ t.time.debt = s.time.debt ∧ t.time.phase = s.time.phase + 1) ∧
      (5000 ≤ s.time.phase + 1 → t.time.phase = 0 ∧
        let k : Int := if s.on F.GC_STATUS_HOLDOVER [] then 0 else 8
        (0 < s.time.debt → t.count = s.count + 2 ∧ t.time.debt = s.time.debt - k) ∧
        (s.time.debt < 0 → t.count = s.count ∧ t.time.debt = s.time.debt + k)))

/-- R6, R7, R122, R424, R430, R507, R559: what reset leaves, as the spec gives it: no work, no poison, plates of zeros,
every thread FREE, every slot EMPTY, the fault pair in the fault state, each plate of its own tile, and the fields that
the tables give another value than zero. -/
def Obligations.ResetState : Prop :=
  State.reset.mem.wf = true ∧ (∀ x, plateBase ≤ x → x < plateBase + 64 * plateSize → State.reset.mem.readByte x = 0) ∧
  State.reset.memPoison = [] ∧ State.reset.todo = [] ∧ State.reset.pending = [] ∧ State.reset.live = true ∧
  State.reset.sys.fwRuns = false ∧ State.reset.sys.jtagIr = 1 ∧ State.reset.faults.inReset = [] ∧
  State.reset.faults.pairFault = true ∧ State.reset.faults.pinP = false ∧ State.reset.faults.pinN = true ∧
  (∀ t k, ((State.reset.tile t).thread k).st = .free) ∧ (∀ t k, ((State.reset.tile t).slot k).st = .empty) ∧
  (∀ p < 64, State.reset.rd F.PLATE_OWNER_KIND [p] = 0 ∧ State.reset.rd F.PLATE_OWNER_TILE [p] = p % 16) ∧
  (∀ row ∈ resetRows, State.reset.rd row.1 row.2.1 = row.2.2) ∧
  ∀ r idx, regAddr r idx ≠ regAddr .secSerial [] → State.reset.rawReg r idx = resetWord r idx

/-- R464 to R466: every transaction that fits its message is read back from its bytes as it was. -/
def Obligations.TransactionsReadBack : Prop := ∀ (x : Txn), txnFits x → Txn.parse x.encode = some x

/-- R286 to R292, R301: every packet that fits is read back from its bytes as it was; bytes that read as a packet are that
packet's bytes; a sealed packet's trailer agrees, and neither VC nor hops are part of it. -/
def Obligations.PacketsReadBack : Prop :=
  (∀ (p : Pkt), pktFits p → Pkt.parse p.encode = .ok p) ∧
  (∀ (b : List Byte) (p : Pkt), Pkt.parse b = .ok p → p.encode = b ∧ pktFits p) ∧
  (∀ (p : Pkt) (vc hops : Nat), p.seal.trailerOk = true ∧ ({ p.seal with vc := vc, hops := hops } : Pkt).trailerOk = true)

/-- Every step keeps memory in its canonical form: addresses rise and no cell holds what an unlisted address reads as
(R424, R430). -/
def Obligations.MemoryStaysCanonical : Prop :=
  ∀ (s t : State), s.mem.wf = true → step s = .next t → t.mem.wf = true

/-- R602: the identity that IDCODE shifts out, and the revision that the board view shows. Completion: on these premises
Sys2Proof.Machine.exec answers a next state for idcode. -/
def Obligations.IdentityCode : Prop :=
  ∀ (s : State), s.sys.power = true → s.todo = [] →
    let code := Config.revision * 2 ^ 28 + 0x2048 * 2 ^ 12 + 0xB47
    (∃ t, Does .idcode s t ∧ shifts s t 1 1 code) ∧ code < 2 ^ 32 ∧ code / 2 % 2 ^ 11 = 0x5A3 ∧ code % 2 = 1 ∧
    (Config.revision = 0 → code = 0x02048B47) ∧ s.boardView[2]? = some (BitVec.ofNat 8 Config.revision)

/-- R34: a write of X, Y or XY_VALID takes effect only while every torus port is down; else the fields stay and the global
error status holds the write, be the values new or not. Completion: on these premises Sys2Proof.Machine.exec answers a
next state for glbCoordXyWrite. -/
def Obligations.CoordinateWrites : Prop :=
  ∀ (x y : BitVec 3) (valid : Bool) (s : State), s.ready → s.reaches .glbCoord [] →
    let xy (t : State) : Nat × Nat × Nat := (t.rd F.GLB_COORD_X [], t.rd F.GLB_COORD_Y [], t.rd F.GLB_COORD_XY_VALID [])
    let v := (x.toNat, y.toNat, b2n valid)
    (xy s = v → torusPorts.any s.portUp = false → Does (.glbCoordXyWrite x y valid) s s) ∧
    (torusPorts.any s.portUp = true → ∃ t, Does (.glbCoordXyWrite x y valid) s t ∧ refused s t (regAddr .glbCoord []) ∧ xy t = xy s) ∧
    (xy s ≠ v → torusPorts.any s.portUp = false → ∃ u, Does (.glbCoordXyWrite x y valid) s (s.after u) ∧ xy u = v ∧
      u.rd F.GLB_COORD_Z [] = s.rd F.GLB_COORD_Z [] ∧ u.rd F.GLB_COORD_ROLE [] = s.rd F.GLB_COORD_ROLE [] ∧ u.tiles = s.tiles ∧ u.mem = s.mem)

/-- R35: a change of role: SPARE idles the accelerator ports, ACTIVE starts every idle port again, OUT idles every port
once the output queues have drained, and until then none. A write that leaves ROLE as it was is one of X, Y and XY_VALID,
too, and refused while a torus port is UP (R34; log 59). Completion: on these premises Sys2Proof.Machine.exec answers a
next state for roleChange. -/
def Obligations.RoleChanges : Prop :=
  ∀ (role : BitVec 2) (s : State), s.ready → s.reaches .glbCoord [] →
    (s.rd F.GLB_COORD_ROLE [] = role.toNat → torusPorts.any s.portUp = false → Does (.roleChange role) s s) ∧
    (s.rd F.GLB_COORD_ROLE [] = role.toNat → torusPorts.any s.portUp = true →
      ∃ t, Does (.roleChange role) s t ∧ refused s t (regAddr .glbCoord [])) ∧
    (s.rd F.GLB_COORD_ROLE [] ≠ role.toNat → ∃ u, Does (.roleChange role) s (s.after u) ∧ u.rd F.GLB_COORD_ROLE [] = role.toNat ∧
      u.rd F.GLB_COORD_X [] = s.rd F.GLB_COORD_X [] ∧ u.rd F.GLB_COORD_SLOT_CODE [] = s.rd F.GLB_COORD_SLOT_CODE [] ∧
      u.tiles = s.tiles ∧ u.mem = s.mem ∧
      (role.toNat = 1 → ∀ p < 16, u.portState p = pOFF) ∧
      (role.toNat = 0 → s.slotIdles = false → s.faults.ufOut = false → s.sys.fwRuns = true →
        ∀ p < 24, s.portState p = pOFF → u.portState p = pTRAINING) ∧
      (2 ≤ role.toNat → s.outDrained = true →
        (∀ p < 26, s.fabricPort p = true → u.portState p = pOFF) ∧ ∀ e < 4, u.ethState e = eOFF) ∧
      (2 ≤ role.toNat → s.outDrained = false → ∀ p < 26, fits s p → u.portState p = s.portState p))

/-- R555: DETERM is not cleared while some tile runs or stops an image that requires it; every other write of GLB_MODE
sets it. Completion: on these premises Sys2Proof.Machine.exec answers a next state for glbModeWrite. -/
def Obligations.DeterminismKept : Prop :=
  ∀ (v : Word) (s : State), s.ready → s.reaches .glbMode [] →
    regAddr .glbMode [] = 0x50 ∧
    (s.on F.GLB_MODE_DETERM [] = true → v.toNat.testBit 0 = false → needsDeterm s →
      ∃ t, Does (.glbModeWrite v) s t ∧ refused s t (regAddr .glbMode []) ∧ t.rawReg .glbMode [] = s.rawReg .glbMode []) ∧
    (¬(s.on F.GLB_MODE_DETERM [] = true ∧ v.toNat.testBit 0 = false ∧ needsDeterm s) →
      ∃ t, Does (.glbModeWrite v) s t ∧ s.onlyReg t .glbMode [] ∧ t.on F.GLB_MODE_DETERM [] = v.toNat.testBit 0)

/-- R530: GC_SET loads the count on an unsynchronised master alone; every other write leaves the count and sets the global
error status. Completion: on these premises Sys2Proof.Machine.exec answers a next state for gcSetWrite. -/
def Obligations.GlobalCountSet : Prop :=
  ∀ (v : Word) (s : State), s.ready → s.reaches .gcSet [] →
    (s.on F.GC_STATUS_MASTER [] = true → s.on F.GC_STATUS_EVER_SYNCED [] = false → Does (.gcSetWrite v) s { s with count := v }) ∧
    ((s.on F.GC_STATUS_MASTER [] = false ∨ s.on F.GC_STATUS_EVER_SYNCED [] = true) →
      ∃ t, Does (.gcSetWrite v) s t ∧ refused s t (regAddr .gcSet []) ∧ t.count = s.count)

/-- Branches, NOP, RDFLAG, RDCNT, CLRFLAG: R139, R138, R140. Completion: on these premises Sys2Proof.Machine.exec answers
a next state for nop, rdflag, clrflag, rdcnt, br, beq, bne, blt, bltu, bge, bgeu, brl, jr. -/
def Obligations.ScalarControlAndDeviceAccess : Prop := Branches ∧ ScalarDeviceAccess

/-- WAIT, WAITANY, TEST, FENCE, LAUNCHAT, HALT: R98, R99, R101, R100, R101, R103, R112, R113, R121. Completion: on these
premises Sys2Proof.Machine.exec answers a next state for wait, waitany, test, fence, launchat, launchatRelease, halt. -/
def Obligations.TicketWaits : Prop := WaitAndWaitAny ∧ TestTicket ∧ FenceLaunchatHalt

/-- Launches of collectives: accepted and turned away: R183, R207, R208, R95, R93, R207, R208, R229. Completion: on these
premises Sys2Proof.Machine.exec answers a next state for ared, rsct, agth, bcst, redu, a2av, agmm, arap, disp, comb. -/
def Obligations.CollectiveLaunches : Prop := CollectiveLaunch ∧ LaunchRefused

/-- Mask operations and operations on lane bits: R146, R147, R187, R93, R143, R146, R147. Completion: on these premises
Sys2Proof.Machine.exec answers a next state for hatchComplete. -/
def Obligations.MaskAndRawLaneOperations : Prop := MaskOperations ∧ RawLaneOperations

/-- Hatch and chain instructions end; a residue mismatch: R73, R93, R136, R143, R187, R77, R78, R93, R136. Completion: on
these premises Sys2Proof.Machine.exec answers a next state for hatchComplete. -/
def Obligations.HatchEnds : Prop := HatchCompletes ∧ ResidueMismatch

/-- Memory operations end: words, registers, failures: R106, R177, R178, R174 to R176, R143, R175, R176, R106, R110, R136.
Completion: on these premises Sys2Proof.Machine.exec answers a next state for memoryComplete. -/
def Obligations.MemoryOperations : Prop := WordMemoryOperations ∧ RegisterLoads ∧ RegisterStores ∧ FailedMemoryOperations

/-- Image commands: turned away, LOAD begins, START: R119, R124, R126, R607, R119, R120. Completion: on these premises
Sys2Proof.Machine.exec answers a next state for imgCmdNone, imgLoad, imgStart, imgStop, imgUnload. -/
def Obligations.ImageCommands : Prop := ImageCommandsTurnedAway ∧ ImageLoadBegins ∧ ImageStarts

/-- STOP, UNLOAD and the end of a load: R121, R121, R117 to R119, R576. Completion: on these premises
Sys2Proof.Machine.exec answers a next state for imgLoadDone, imgStop, imgUnload. -/
def Obligations.ImageEnds : Prop := ImageStops ∧ ImageUnloads ∧ ImageLoadDone

/-- Communicator commands and their results: R192, R235, R237, R607, R192. Completion: on these premises
Sys2Proof.Machine.exec answers a next state for commCmdNone, commCreate, commArm, commDestroy, commReset, commQuery. -/
def Obligations.CommunicatorCommandsEnd : Prop := CommunicatorReports ∧ CommunicatorCommands

/-- A communicator is created, arms and agrees: R192, R198, R204, R237, R192, R194, R195, R200, R194, R298. Completion: on
these premises Sys2Proof.Machine.exec answers a next state for commArm, digestReceive, armTimeout, commCreateDone,
digestRepeat. -/
def Obligations.CommunicatorComesUp : Prop := CommunicatorCreated ∧ CommunicatorArms ∧ CommunicatorAgrees

/-- Messages ahead of a launch, credits and the timeout: R199 to R201, R206, R209, R305, R206, R229, R230. Completion: on
these premises Sys2Proof.Machine.exec answers a next state for contribReceive, partialReceive, resultReceive,
creditReceive, collectiveTimeout, tokenReceive. -/
def Obligations.CollectiveMessages : Prop := MessagesAheadOfLaunch ∧ CreditsArrive ∧ CollectiveTimeout

/-- Chunks are combined, finished and sent on: R212, R215 to R217, R200, R213, R216, R218, R232, R213, R215, R225.
Completion: on these premises Sys2Proof.Machine.exec answers a next state for chunkCombine, agmmPieceMultiply. -/
def Obligations.CollectiveChunks : Prop := ChunkCombined ∧ ChunkFinished ∧ PartialLeaves ∧ AgmmPieceMultiplied

/-- Gating groups and answers: R253, R257, R242, R258, R264, R270, R305. Completion: on these premises
Sys2Proof.Machine.exec answers a next state for gatingGroupStart, gatingGroupDone, answerReceive. -/
def Obligations.DispatchAndCombine : Prop := GatingGroupStarts ∧ GatingGroupDone ∧ AnswersArrive

/-- Gate slots: commands and page-in: R246, R247, R281 to R284, R607, R247, R248, R283, R424. Completion: on these
premises Sys2Proof.Machine.exec answers a next state for gateCmdNone, gateLoad, gateEvict, gatePin, gateUnpin, pageInDone. -/
def Obligations.GateSlots : Prop := GateCommands ∧ PageInDone

/-- A communicator is saved and loaded: R542, R543, R545, R546. Completion: on these premises Sys2Proof.Machine.exec
answers a next state for pause, pauseAt, pauseSaveStart, pauseSaveDone, resumeLoadDone. -/
def Obligations.PauseAndResume : Prop := PauseSaves ∧ ResumeLoads

/-- Packets arrive, wait and are admitted: R293, R296, R297, R313, R320, R340, R392, R347, R349, R354, R406, R418.
Completion: on these premises Sys2Proof.Machine.exec answers a next state for packetArrive, packetAdmitRetry,
queueStateFill, holdExpire. -/
def Obligations.PacketsIn : Prop := PacketsArrive ∧ WaitingPackets

/-- PUT and GET are served and return: R427, R302, R185. Completion: on these premises Sys2Proof.Machine.exec answers a
next state for putDataReceive, getReqReceive, getDataReceive. -/
def Obligations.RemoteTransfers : Prop := PutAndGetServed ∧ GetDataReturns

/-- End-to-end retry: sources and contexts: R300, R302, R303, R297, R300. Completion: on these premises
Sys2Proof.Machine.exec answers a next state for ackReceive, nackReceive, retxTimerExpire, ackTimerExpire, contextAgeOut. -/
def Obligations.EndToEndStreams : Prop := StreamSources ∧ StreamContexts

/-- Route commands and the route table: R318, R319, R325, R329, R330, R607, R312, R317, R329, R331, R338, R523.
Completion: on these premises Sys2Proof.Machine.exec answers a next state for rtCmdNone, rtHold, rtRelease, rtLoad,
rtOpen, rtEntryWrite, rtLoadDone. -/
def Obligations.RouteControl : Prop := RouteCommands ∧ RouteTable

/-- CREF and the synchronisation of the global count: R599, R531 to R534, R536. Completion: on these premises
Sys2Proof.Machine.exec answers a next state for timeExchangeTimer, timeRequestReceive, timeResponseReceive,
holdoverExpire, crefLoss, crefReturn. -/
def Obligations.TimeKept : Prop := TimeBase ∧ TimeSynchronisation

/-- Control flits and frames of a port: R388, R390 to R394, R396, R400, R402, R511, R513, R384 to R387, R391, R392, R395,
R400, R411. Completion: on these premises Sys2Proof.Machine.exec answers a next state for portFrameReceive, idleFlit,
creditLo, creditHi, retryFlit, widthFlit, testFlit, lpiFlit, retryRepeatTimer, creditFlitTimer. -/
def Obligations.LinkMessages : Prop := ControlFlits ∧ PortFrames

/-- Requests and doorbells of the control node: R466 to R472, R490, R562, R473, R475, R476, R483, R484. Completion: on
these premises Sys2Proof.Machine.exec answers a next state for mrd, mwr, dbSubmission, dbCompletion, wrackReceive. -/
def Obligations.StylusRequests : Prop := StylusReadsAndWrites ∧ Doorbells

/-- Datamover commands and bus errors: R452, R454, R461, R462, R444, R450, R451, R453. Completion: on these premises
Sys2Proof.Machine.exec answers a next state for pause, dmGo, dmAbort, dmResume, dmBusError. -/
def Obligations.Datamovers : Prop := DatamoverCommands ∧ BusErrorHalts

/-- Descriptors are fetched and run: R444 to R446, R449 to R451, R453, R553, R434, R447 to R451, R461, R553. Completion:
on these premises Sys2Proof.Machine.exec answers a next state for dmDescFetch, dmBurstIssue, dmBurstWritten,
dmReadbackDone. -/
def Obligations.Descriptors : Prop := DescriptorsFetched ∧ DescriptorsRun

/-- Plates, HBM4, DDR5 and the buffer audit: R115, R424, R425, R427, R455, R456, R432 to R438, R457, R458, R499, R367.
Completion: on these premises Sys2Proof.Machine.exec answers a next state for plateScrubRead, plateOwnerWrite, hbmInit,
hbmInitDone, hbmPatrolScrub, ddrInit, ddrInitDone, ddrPatrolScrub, auditPass. -/
def Obligations.Memories : Prop := PlatesKept ∧ HbmAndDdr ∧ BufferAudit

/-- Reports of checkers, the fault pair and injection: R78, R498 to R501, R511, R503, R505 to R507, R511, R523, R524.
Completion: on these premises Sys2Proof.Machine.exec answers a next state for faultReport, escWindowExpire,
quietPeriodEnd, pairForce, pairSenseMismatch, fltInjectGo. -/
def Obligations.FaultReports : Prop := CheckersReport ∧ PairAndInjection

/-- Block resets and the core watchdog: R503, R508 to R510, R525, R123. Completion: on these premises
Sys2Proof.Machine.exec answers a next state for tileWatchdogFire, blockResetRequest, blockResetRelease, blockResetStuck. -/
def Obligations.Isolation : Prop := BlockResets ∧ TileWatchdog

/-- Power domains, temperature and input power: R552, R553, R593, R596, R597. Completion: on these premises
Sys2Proof.Machine.exec answers a next state for pwrDomainWrite, powerStateEnter, powerStateExit, thermalSample,
throttleStep, powerCapSample. -/
def Obligations.PowerAndHeat : Prop := PowerDomains ∧ HeatAndPower

/-- Power, cold and warm resets: R559, R560, R564, R592, R597, R598, R504, R559 to R563, R580, R583, R584. Completion: on
these premises Sys2Proof.Machine.exec answers a next state for powerGoodRise, powerGoodFall, resetNAssert, resetNRelease,
wresetNPulse, warmResetCmd, mgmtWdogKick, mgmtWdogExpire, escalationReset, lcChangeReset. -/
def Obligations.Resets : Prop := PowerAndColdResets ∧ WarmResets

/-- Register accesses that do more than store, and plain writes: R359, R363, R365, R366, R377, R382, R413, R495, R496, R6,
R8, R9, R489, R490. Completion: on these premises Sys2Proof.Machine.exec answers a next state for tmPolicerWrite,
shaperWrite, tmSampleWrite, tmSringCfgWrite, tmQcfgRead, lanePrbsErrRead, glbSqCfgWrite, glbCqCfgWrite, registerWrite. -/
def Obligations.RegisterAccesses : Prop := RegistersWithRules ∧ RegisterWrites
end

