-- ==== Sys2Proof/Laws/Fec.lean ====
section
/-! SUPPORT. Products in the field of the outer code are linear; the syndromes of a codeword from tables of products; what a lane
frame without errors is decoded to. -/
namespace Sys2Proof.Machine
set_option maxRecDepth 4000

/-- Twice a symbol. -/
theorem double_eq (a : Nat) (h : a < 1024) :
    (if 1024 ≤ 2 * a then (2 * a) ^^^ 0x409 else 2 * a) = (2 * a) ^^^ (2 * a / 1024 * 0x409) := by
  by_cases c : 1024 ≤ 2 * a
  · have : 2 * a / 1024 = 1 := by omega
    simp [c, this]
  · have : 2 * a / 1024 = 0 := by omega
    simp [c, this]

theorem double_lt (a : Nat) (h : a < 1024) : (2 * a) ^^^ (2 * a / 1024 * 0x409) < 1024 := by
  have h9 : ∀ x < 1024, (2 * x) ^^^ (2 * x / 1024 * 0x409) < 1024 := by decide +kernel
  exact h9 a h

theorem two_mul_xor (a b : Nat) : 2 * (a ^^^ b) = 2 * a ^^^ 2 * b := by
  have := Nat.shiftLeft_xor_distrib (a := a) (b := b) (i := 1)
  simpa [Nat.shiftLeft_eq, Nat.mul_comm] using this

theorem div_xor (a b : Nat) : (a ^^^ b) / 1024 = a / 1024 ^^^ b / 1024 := by
  have := Nat.shiftRight_xor_distrib (a := a) (b := b) (i := 10)
  simpa [Nat.shiftRight_eq_div_pow] using this

theorem double_xor (a b : Nat) (ha : a < 1024) (hb : b < 1024) :
    (2 * (a ^^^ b)) ^^^ (2 * (a ^^^ b) / 1024 * 0x409) =
      ((2 * a) ^^^ (2 * a / 1024 * 0x409)) ^^^ ((2 * b) ^^^ (2 * b / 1024 * 0x409)) := by
  rw [two_mul_xor, div_xor]
  have hu : 2 * a / 1024 = 0 ∨ 2 * a / 1024 = 1 := by omega
  have hv : 2 * b / 1024 = 0 ∨ 2 * b / 1024 = 1 := by omega
  rcases hu with hu | hu <;> rcases hv with hv | hv <;> simp [hu, hv] <;>
    first
    | ac_rfl
    | rw [show (2 * a ^^^ 1033) ^^^ (2 * b ^^^ 1033) = 2 * a ^^^ 2 * b ^^^ (1033 ^^^ 1033) by ac_rfl, Nat.xor_self, Nat.xor_zero]

/-- A product is linear in its first factor. -/
theorem gfShift_xor (k : Nat) : ∀ a a' b acc acc' : Nat, a < 1024 → a' < 1024 →
    gfShift k (a ^^^ a') b (acc ^^^ acc') = gfShift k a b acc ^^^ gfShift k a' b acc' := by
  induction k with
  | zero => intros; rfl
  | succ k ih =>
    intro a a' b acc acc' ha ha'
    have hx : a ^^^ a' < 1024 := Nat.xor_lt_two_pow (n := 10) ha ha'
    simp only [gfShift, double_eq _ hx, double_eq _ ha, double_eq _ ha', double_xor _ _ ha ha']
    rw [← ih _ _ _ _ _ (double_lt _ ha) (double_lt _ ha')]
    by_cases c : b % 2 = 1
    · simp only [c, if_true]; congr 1; ac_rfl
    · simp only [c, if_false]

/-- Products of each of the 30 roots with the symbols below 32, ten bits each. -/
def gfLow : List Nat :=
  [
   0x7C1E0741C06C1A0641805C160541404C120441003C0E0340C02C0A0240801C060140400C0200400,
   0xF83C0E8380D8340C8300B82C0A82809824088200781C0681805814048100380C028080180400800,
   0x1F0781D0701B06819060170581505013048110400F0380D0300B0280902007018050100300801000,
   0x3E0F03A0E0360D0320C02E0B02A0A026090220801E0701A06016050120400E0300A0200601002000,
   0x7C1E0741C06C1A0641805C160541404C120441003C0E0340C02C0A0240801C060140400C02004000,
   0xF83C0E8380D8340C8300B82C0A82809824088200781C0681805814048100380C0280801804008000,
   0xF2789D2709B26899260972589525093248912409F0380D0300B02809020070180501003008010000,
   0xE6F1BA6E1B66D1B26C1BE4B12A4A126491224812E2709A26096250922409E0300A02006010020000,
   0xCFE3F4FC3FCDA364D836CB62D4B42DC922449024C6E1B46C1BC4A1244812C260942409C020040000,
   0x9DC779F87E994659B06C94C539685A90441920488FC3F8D8368B42D8902486C1B848128240980000] ++
  [
   0x39CEE3D4FC30CCA344D82BCA62F4B422C82264901DC7E1946C14C5A104480FC360B42406C1202400,
   0x739DC7A9F861994689B05794C5E968459044C9203B8FC328D8298B4208901F86C168480D82404800,
   0xE73B8F53F0C3328D1360AF298BD2D08B20899240771F8651B053168411203F0D82D0901B04809000,
   0xCC779E87E984659A06C95C539785A91441930489EE3F0CA360A62D0822407E1B05A1203609012000,
   0x9AEFBD2FDB0ACBB42D9BB8A72F0B522883260912DE7E9966C94E5A906489FC360B42406C12024000,
   0x37DFFA7FBF1597685B36734EDE36AD51064C1224BEFDB2ED9B9CB520C912FA6C96A489D824048000,
   0x6FBFE4DF772B2EC09665E69DAC4D53A20C8804417FFBF5DB363B6AD19224F6D9BD4912B248990000,
   0xDF3F59BAE7561D1128C3CF7B48BEA64659002C82FFB77BB2657695332041EFF36AB62466D1222400,
   0xBC7E3355C7AC3A2251869CF6115D458CB2005904FD6E7744C3ED2A664082DDE6554C41CDA2444800,
   0x7AFCF6AB8E5A74D4A30C3BECB2BA8A1B6490B208F8DC7E8986D8545C8104B9CC3A98829944189000] ++
  [
   0xF5B97D5315B4A93942117799F5711D3689B16019F3F8ED370CB2E8A9260871D865150430C8210400,
   0xE9727A86236B52F2A42BEF33EAE23A6D1362C032E5F15A4E1167D1D26C19E3B0CA2A086190420800,
   0xD0E4752C4FD6A5E54856DC6755E47DDA26C58064C9E234BC2BCFA3A4D832C561147419C320841000,
   0xA3C87A589EAF4B5A90ACBACE3BC8FAB64D1B00C891C4F978569D47D9B06488C2B8E8328441982000,
   0x45D0E4953C5CD6A5055877DC67B5F46EDA26259021C9E2D4AC38CFA344C813C561F4640AC3206400,
   0x8BA1C92A78B9AD4A0AB0EFB8CF6BE8DDB44C4B204393C5A958719F468990278AC3E8C8158640C800,
   0x15431274F9715A143569DD711EF7D9B96818B64987278B52B0E33E8D13204F1587D1902B0C819000,
   0x2A8624E9F2E2B4286AD2B8E2BDCFBB70D0B14C9B0C4F968569C47D9A06499E2B0FA3205619032000,
   0x550C49D3E4C768D0F5AD73C5FBBF7FE1A1629936189F2D0AD28AFBB42C9B3E569F6649AC32064000,
   0xAA188387C18CD131EB5AE78BE75EF7C14255326C313E4A35AD17F7F859367CAD2EEC9B5A649C8000]
/-- Products of each of the 30 roots with the multiples of 32. -/
def gfHigh : List Nat :=
  [
   0xF83C0E8380D8340C8300B82C0A82809824088200781C0681805814048100380C0280801804008000,
   0xF2789D2709B26899260972589525093248912409F0380D0300B02809020070180501003008010000,
   0xE6F1BA6E1B66D1B26C1BE4B12A4A126491224812E2709A26096250922409E0300A02006010020000,
   0xCFE3F4FC3FCDA364D836CB62D4B42DC922449024C6E1B46C1BC4A1244812C260942409C020040000,
   0x9DC779F87E994659B06C94C539685A90441920488FC3F8D8368B42D8902486C1B848128240980000,
   0x39CEE3D4FC30CCA344D82BCA62F4B422C82264901DC7E1946C14C5A104480FC360B42406C1202400,
   0x739DC7A9F861994689B05794C5E968459044C9203B8FC328D8298B4208901F86C168480D82404800,
   0xE73B8F53F0C3328D1360AF298BD2D08B20899240771F8651B053168411203F0D82D0901B04809000,
   0xCC779E87E984659A06C95C539785A91441930489EE3F0CA360A62D0822407E1B05A1203609012000,
   0x9AEFBD2FDB0ACBB42D9BB8A72F0B522883260912DE7E9966C94E5A906489FC360B42406C12024000] ++
  [
   0x37DFFA7FBF1597685B36734EDE36AD51064C1224BEFDB2ED9B9CB520C912FA6C96A489D824048000,
   0x6FBFE4DF772B2EC09665E69DAC4D53A20C8804417FFBF5DB363B6AD19224F6D9BD4912B248990000,
   0xDF3F59BAE7561D1128C3CF7B48BEA64659002C82FFB77BB2657695332041EFF36AB62466D1222400,
   0xBC7E3355C7AC3A2251869CF6115D458CB2005904FD6E7744C3ED2A664082DDE6554C41CDA2444800,
   0x7AFCF6AB8E5A74D4A30C3BECB2BA8A1B6490B208F8DC7E8986D8545C8104B9CC3A98829944189000,
   0xF5B97D5315B4A93942117799F5711D3689B16019F3F8ED370CB2E8A9260871D865150430C8210400,
   0xE9727A86236B52F2A42BEF33EAE23A6D1362C032E5F15A4E1167D1D26C19E3B0CA2A086190420800,
   0xD0E4752C4FD6A5E54856DC6755E47DDA26C58064C9E234BC2BCFA3A4D832C561147419C320841000,
   0xA3C87A589EAF4B5A90ACBACE3BC8FAB64D1B00C891C4F978569D47D9B06488C2B8E8328441982000,
   0x45D0E4953C5CD6A5055877DC67B5F46EDA26259021C9E2D4AC38CFA344C813C561F4640AC3206400] ++
  [
   0x8BA1C92A78B9AD4A0AB0EFB8CF6BE8DDB44C4B204393C5A958719F468990278AC3E8C8158640C800,
   0x15431274F9715A143569DD711EF7D9B96818B64987278B52B0E33E8D13204F1587D1902B0C819000,
   0x2A8624E9F2E2B4286AD2B8E2BDCFBB70D0B14C9B0C4F968569C47D9A06499E2B0FA3205619032000,
   0x550C49D3E4C768D0F5AD73C5FBBF7FE1A1629936189F2D0AD28AFBB42C9B3E569F6649AC32064000,
   0xAA188387C18CD131EB5AE78BE75EF7C14255326C313E4A35AD17F7F859367CAD2EEC9B5A649C8000,
   0x5671070B8B1BE263D2BDCD57CEB9E780C4AA60D1623C144F5A2FAF70966CF91ADDFD36B489B92400,
   0xACA29E131F378457A17398EF8D57CE03C944E5A2C438B89ABD5F1E7128D1F075ABDE6C6B53626C00,
   0x5B45BC06376F08AF42E633DF9A8F95079289CB448A71F11573BE3CE251A2E2EBD79CD1D6A6C4D800,
   0xB68B682C67DE114EA5C567BF253F230F2503B68116E3722AE67E7954A344C7D73F39A2AF4D19B000,
   0x6F56C07CCEBE628D6F8ACF3EDA7A4F1E0A97690B2D867451C5FCB23942818DEE6E57445CDA234400]

theorem gfLow_ok : ∀ i < 30, ∀ p < 32, nth 0 gfLow i / 2 ^ (10 * p) % 1024 = gfMul p (gfPow 2 i) := by decide +kernel
theorem gfHigh_ok : ∀ i < 30, ∀ p < 32, nth 0 gfHigh i / 2 ^ (10 * p) % 1024 = gfMul (32 * p) (gfPow 2 i) := by decide +kernel

theorem split_symbol : ∀ a < 1024, a = (a % 32) ^^^ (32 * (a / 32)) := by decide +kernel

/-- A symbol times a root, from the tables. -/
theorem gfMul_tables (i a : Nat) (hi : i < 30) (ha : a < 1024) :
    gfMul a (gfPow 2 i) =
      (nth 0 gfLow i / 2 ^ (10 * (a % 32)) % 1024) ^^^ (nth 0 gfHigh i / 2 ^ (10 * (a / 32)) % 1024) := by
  rw [gfLow_ok i hi _ (Nat.mod_lt _ (by decide)), gfHigh_ok i hi _ (by omega)]
  conv => lhs; rw [split_symbol a ha]
  have := gfShift_xor 10 (a % 32) (32 * (a / 32)) (gfPow 2 i) 0 0 (by omega) (by omega)
  simpa [gfMul] using this

/-- A symbol times a root from its two tables, another symbol added: operations that the kernel evaluates at once. -/
def tableStep (lo hi acc r : Nat) : Nat :=
  Nat.xor (Nat.xor
    (Nat.mod (Nat.div lo (Nat.pow (nat_lit 2) (Nat.mul (nat_lit 10) (Nat.mod acc (nat_lit 32))))) (nat_lit 1024))
    (Nat.mod (Nat.div hi (Nat.pow (nat_lit 2) (Nat.mul (nat_lit 10) (Nat.div acc (nat_lit 32))))) (nat_lit 1024))) r

/-- One syndrome from the tables. -/
def tableSyndrome (lo hi : Nat) : List Nat → Nat → Nat
  | [], acc => acc
  | r :: cw, acc => tableSyndrome lo hi cw (tableStep lo hi acc r)

/-- A list of symbols whose syndromes, from the tables, are all zero. -/
def wordGood (cw : List Nat) : Bool :=
  cw.all (fun r => Nat.blt r 1024) &&
    (List.range 30).all (fun i => Nat.beq (tableSyndrome (nth 0 gfLow i) (nth 0 gfHigh i) cw 0) 0)

theorem tableStep_eq (i acc r : Nat) (hi : i < 30) (h : acc < 1024) :
    tableStep (nth 0 gfLow i) (nth 0 gfHigh i) acc r = gfMul acc (gfPow 2 i) ^^^ r := by
  rw [gfMul_tables i acc hi h]; rfl

theorem tableSyndrome_eq (i : Nat) (hi : i < 30) : ∀ (cw : List Nat) (acc : Nat), acc < 1024 → (∀ r ∈ cw, r < 1024) →
    tableSyndrome (nth 0 gfLow i) (nth 0 gfHigh i) cw acc = cw.foldl (fun acc r => gfMul acc (gfPow 2 i) ^^^ r) acc := by
  intro cw
  induction cw with
  | nil => intros; rfl
  | cons r cw ih =>
    intro acc h hr
    have hlt : gfMul acc (gfPow 2 i) ^^^ r < 1024 := by
      rw [gfMul_tables i acc hi h]
      exact Nat.xor_lt_two_pow (n := 10)
        (Nat.xor_lt_two_pow (n := 10) (Nat.mod_lt _ (by decide)) (Nat.mod_lt _ (by decide))) (hr r (by simp))
    simp only [tableSyndrome, List.foldl_cons, tableStep_eq i acc r hi h]
    exact ih _ hlt (fun x hx => hr x (by simp [hx]))

/-- Such a list is a codeword without errors. -/
theorem rsDecode_good (cw : List Nat) (h : wordGood cw = true) : rsDecode cw = some (cw, false) := by
  simp only [wordGood, Bool.and_eq_true, List.all_eq_true, List.mem_range] at h
  have hr : ∀ r ∈ cw, r < 1024 := fun r hr => by
    have := h.1 r hr
    simp [Nat.blt] at this
    omega
  have hz : (syndromes cw).all (· == 0) = true := by
    simp only [syndromes, List.all_map, List.all_eq_true, List.mem_range, Function.comp, beq_iff_eq]
    intro i hi
    rw [← tableSyndrome_eq i hi cw 0 (by decide) hr]
    exact Nat.eq_of_beq_eq_true (h.2 i hi)
  simp [rsDecode, hz]

/-- Codeword `j` of a frame's bits. -/
def wordOf (bits j : Nat) : List Nat := (List.range 544).map (fun k => fieldOf bits (10 * (544 * j + k)) 10)

/-- The parity of a number's low bits. -/
def parity (v : Nat) : Nat → Nat
  | 0 => nat_lit 0
  | n + 1 => Nat.xor (parity v n) (Nat.mod (Nat.div v (Nat.pow (nat_lit 2) n)) (nat_lit 2))

theorem parity_eq (v n : Nat) : parity v n = if oddOnes v n then 1 else 0 := by
  induction n with
  | zero => rfl
  | succ n ih =>
    have h2 : v / 2 ^ n % 2 = 0 ∨ v / 2 ^ n % 2 = 1 := by omega
    have hb : bitOf v n = decide (v / 2 ^ n % 2 = 1) := by simp [bitOf, Nat.testBit_eq_decide_div_mod_eq]
    have ho : oddOnes v (n + 1) = (oddOnes v n != bitOf v n) := by simp [oddOnes, List.range_succ]
    have hx : parity v (n + 1) = parity v n ^^^ (v / 2 ^ n % 2) := rfl
    rw [hx, ih, ho, hb]
    rcases h2 with h2 | h2 <;> cases oddOnes v n <;> simp [h2]

/-- Block `i` of a line has even parity and these message bits. -/
def blockGood (line bits i : Nat) : Bool :=
  Nat.beq (parity (fieldOf line (257 * i) 257) 257) 0 &&
    Nat.beq (fieldOf (fieldOf line (257 * i) 257) 0 256) (fieldOf bits (256 * i) 256)

/-- R384: a lane frame with no inner block to repair and eight codewords without errors is decoded to its message, and counts
nothing. -/
theorem decode_good (f : LaneFrame) (bits : Nat)
    (h1 : ∀ i < 170, blockGood f.line bits i = true)
    (h2 : joinBits 256 ((List.range 170).map (fun i => fieldOf bits (256 * i) 256)) = bits)
    (h3 : ∀ j < 8, wordGood (wordOf bits j) = true) :
    LaneFrame.decode f =
      ⟨f.lane, leBytes 5140 (joinBits 10 (((List.range 8).map (fun j => (wordOf bits j).take 514)).flatten)), 0, 0, 0, 0⟩ := by
  have h1 : innerDecode f = (List.range 170).map (fun i => (fieldOf bits (256 * i) 256, none)) := by
    apply List.map_congr_left
    intro i hi
    have h := h1 i (List.mem_range.mp hi)
    simp only [blockGood, Bool.and_eq_true] at h
    have hp := Nat.eq_of_beq_eq_true h.1
    have hv := Nat.eq_of_beq_eq_true h.2
    rw [parity_eq] at hp
    have ho : oddOnes (fieldOf f.line (257 * i) 257) 257 = false := by
      cases hc : oddOnes (fieldOf f.line (257 * i) 257) 257 with
      | false => rfl
      | true => simp [hc] at hp
    simp [ho, hv]
  have hm : (innerDecode f).filterMap (·.2) = [] := by
    rw [h1, List.filterMap_map, List.filterMap_eq_nil_iff]
    intros; rfl
  have hb : joinBits 256 ((innerDecode f).map (·.1)) = bits := by rw [h1, List.map_map]; exact h2
  have hw : (List.range 8).map (fun j =>
      let cw := (List.range 544).map (fun k => fieldOf bits (10 * (544 * j + k)) 10)
      (cw, rsDecode cw, ([] : List (Nat × Nat)).any (fun b => decide (b.2 < 256) && (256 * b.1 + b.2) / 5440 == j))) =
      (List.range 8).map (fun j => (wordOf bits j, some (wordOf bits j, false), false)) := by
    apply List.map_congr_left
    intro j hj
    have := rsDecode_good _ (h3 j (List.mem_range.mp hj))
    simp only [wordOf] at this ⊢
    simp [this]
  simp only [LaneFrame.decode, hm, hb, hw]
  simp [List.map_map, Function.comp_def]

end Sys2Proof.Machine
end

