-- ==== Sys2Proof/Laws/Tables.lean ====
section
/-! SUPPORT. Laws of the sparse tables, of byte numbers and of bit fields. -/
namespace Sys2Proof.Machine

/-! ### Tables -/

/-- A key that was set reads back its value, in a table of any order. -/
theorem Tbl.find_put_same {α : Type} (k : Nat) (v : α) (t : Tbl α) : Tbl.find k (Tbl.put k v t) = some v := by
  induction t with
  | nil => simp [Tbl.put, Tbl.find]
  | cons e t ih =>
    obtain ⟨j, u⟩ := e
    simp only [Tbl.put]
    split
    · simp [Tbl.find]
    · split
      · simp [Tbl.find]
      · rename_i h1 h2
        simp [Tbl.find, ih, Ne.symm h2]

/-- Setting one key leaves every other key alone. -/
theorem Tbl.find_put_ne {α : Type} {k j : Nat} (h : j ≠ k) (v : α) (t : Tbl α) :
    Tbl.find j (Tbl.put k v t) = Tbl.find j t := by
  induction t with
  | nil => simp [Tbl.put, Tbl.find, Ne.symm h]
  | cons e t ih =>
    obtain ⟨i, u⟩ := e
    simp only [Tbl.put]
    split
    · simp [Tbl.find, Ne.symm h]
    · split
      · rename_i h1 h2
        subst h2
        simp [Tbl.find, Ne.symm h]
      · simp only [Tbl.find, ih]

/-- What is found under a key after a key was set. -/
theorem Tbl.find_put {α : Type} (k j : Nat) (v : α) (t : Tbl α) :
    Tbl.find j (Tbl.put k v t) = if j = k then some v else Tbl.find j t := by
  by_cases h : j = k
  · subst h; simp [Tbl.find_put_same]
  · simp [h, Tbl.find_put_ne h]

/-- What is read under a key after a key was set. -/
theorem Tbl.look_put {α : Type} (d : α) (k j : Nat) (v : α) (t : Tbl α) :
    Tbl.look d (Tbl.put k v t) j = if j = k then v else Tbl.look d t j := by
  simp only [Tbl.look, Tbl.find_put]
  split <;> rfl

/-- What is read under a key after a key's value was changed. -/
theorem Tbl.look_upd {α : Type} (d : α) (k j : Nat) (f : α → α) (t : Tbl α) :
    Tbl.look d (Tbl.upd d k f t) j = if j = k then f (Tbl.look d t k) else Tbl.look d t j := by
  simp only [Tbl.upd, Tbl.look_put]

@[simp] theorem Tbl.look_nil {α : Type} (d : α) (j : Nat) : Tbl.look d ([] : Tbl α) j = d := rfl

@[simp] theorem Tbl.look_put_same {α : Type} (d : α) (k : Nat) (v : α) (t : Tbl α) :
    Tbl.look d (Tbl.put k v t) k = v := by simp [Tbl.look_put]

@[simp] theorem Tbl.look_upd_same {α : Type} (d : α) (k : Nat) (f : α → α) (t : Tbl α) :
    Tbl.look d (Tbl.upd d k f t) k = f (Tbl.look d t k) := by simp [Tbl.look_upd]

/-- A key that was removed is not found; the others are as before. -/
theorem Tbl.find_del {α : Type} (k j : Nat) (t : Tbl α) :
    Tbl.find j (Tbl.del k t) = if j = k then none else Tbl.find j t := by
  induction t with
  | nil => simp [Tbl.del, Tbl.find]
  | cons e t ih =>
    obtain ⟨i, u⟩ := e
    simp only [Tbl.del] at ih
    by_cases hk : i = k
    · subst hk
      simp only [Tbl.del, List.filter, Tbl.find]
      simp only [bne_self_eq_false, ih]
      by_cases hj : j = i
      · simp [hj]
      · simp [hj, Ne.symm hj]
    · have : (i != k) = true := by simpa using hk
      simp only [Tbl.del, List.filter, Tbl.find, this, ih]
      by_cases hj : i = j
      · subst hj; simp [hk]
      · simp [hj]

/-- What is read under a key after a key was removed. -/
theorem Tbl.look_del {α : Type} (d : α) (k j : Nat) (t : Tbl α) :
    Tbl.look d (Tbl.del k t) j = if j = k then d else Tbl.look d t j := by
  simp only [Tbl.look, Tbl.find_del]
  split <;> rfl

/-! ### Bytes -/

theorem leBytes_zero (n : Nat) : leBytes 0 n = [] := rfl

/-- The lowest byte first. -/
theorem leBytes_succ (k n : Nat) : leBytes (k + 1) n = BitVec.ofNat 8 n :: leBytes k (n / 256) := by
  simp only [leBytes, List.range_succ_eq_map, List.map_cons, List.map_map]
  congr 1
  apply List.map_congr_left
  intro i _
  simp only [Function.comp, Nat.shiftRight_eq_div_pow]
  rw [show 8 * (i + 1) = 8 + 8 * i by omega, Nat.pow_add, ← Nat.div_div_eq_div_mul]

@[simp] theorem length_leBytes (k n : Nat) : (leBytes k n).length = k := by simp [leBytes]

/-- The number that little-endian bytes of a number spell. -/
theorem leNat_leBytes (k n : Nat) : leNat (leBytes k n) = n % 256 ^ k := by
  induction k generalizing n with
  | zero => simp [leBytes_zero, leNat, Nat.mod_one]
  | succ k ih =>
    rw [leBytes_succ, leNat, ih]
    rw [BitVec.toNat_ofNat, show 256 ^ (k + 1) = 256 * 256 ^ k from by rw [Nat.pow_succ, Nat.mul_comm], Nat.mod_mul]

/-- Bytes stay below their power of 256. -/
theorem leNat_lt (bs : List Byte) : leNat bs < 256 ^ bs.length := by
  induction bs with
  | nil => simp [leNat]
  | cons b bs ih =>
    have := b.isLt
    simp only [leNat, List.length_cons, Nat.pow_succ]
    omega

/-- The bytes of the number that bytes spell. -/
theorem leBytes_leNat (bs : List Byte) : leBytes bs.length (leNat bs) = bs := by
  induction bs with
  | nil => rfl
  | cons b bs ih =>
    have hb := b.isLt
    rw [List.length_cons, leBytes_succ, leNat]
    have h1 : (b.toNat + 256 * leNat bs) / 256 = leNat bs := by omega
    rw [h1, ih]
    congr 1
    apply BitVec.eq_of_toNat_eq
    simp only [BitVec.toNat_ofNat]
    omega

/-! ### Bit fields -/

theorem testBit_fieldOf (n lo w i : Nat) : (fieldOf n lo w).testBit i = (decide (i < w) && n.testBit (lo + i)) := by
  simp [fieldOf, Nat.testBit_mod_two_pow, Nat.testBit_shiftRight]

theorem fieldOf_lt (n lo w : Nat) : fieldOf n lo w < 2 ^ w := Nat.mod_lt _ (Nat.two_pow_pos w)

/-- A number in three parts: below a field, the field, above it. -/
theorem field_split (n lo w : Nat) :
    n = n % 2 ^ lo + fieldOf n lo w * 2 ^ lo + n / 2 ^ (lo + w) * 2 ^ (lo + w) := by
  have h1 := Nat.div_add_mod n (2 ^ lo)
  have h2 := Nat.div_add_mod (n / 2 ^ lo) (2 ^ w)
  have h3 : n / 2 ^ (lo + w) = n / 2 ^ lo / 2 ^ w := by rw [Nat.pow_add, Nat.div_div_eq_div_mul]
  simp only [fieldOf, Nat.shiftRight_eq_div_pow]
  rw [h3, Nat.pow_add]
  have h4 : n / 2 ^ lo / 2 ^ w * (2 ^ lo * 2 ^ w) = 2 ^ lo * (2 ^ w * (n / 2 ^ lo / 2 ^ w)) := by
    rw [Nat.mul_comm, Nat.mul_assoc]
  have h5 : n / 2 ^ lo % 2 ^ w * 2 ^ lo = 2 ^ lo * (n / 2 ^ lo % 2 ^ w) := Nat.mul_comm _ _
  have h6 : 2 ^ lo * (2 ^ w * (n / 2 ^ lo / 2 ^ w)) + 2 ^ lo * (n / 2 ^ lo % 2 ^ w) = 2 ^ lo * (n / 2 ^ lo) := by
    rw [← Nat.mul_add, h2]
  omega

/-- The three parts of a number whose field was set. -/
theorem setFieldOf_split (n lo w v : Nat) :
    setFieldOf n lo w v = n % 2 ^ lo + (v % 2 ^ w) * 2 ^ lo + n / 2 ^ (lo + w) * 2 ^ (lo + w) := by
  have h := field_split n lo w
  simp only [setFieldOf, Nat.shiftLeft_eq]
  generalize n / 2 ^ (lo + w) * 2 ^ (lo + w) = c at h ⊢
  generalize fieldOf n lo w * 2 ^ lo = f at h ⊢
  generalize v % 2 ^ w * 2 ^ lo = g
  omega

theorem setFieldOf_mod (n lo w v : Nat) : setFieldOf n lo w v % 2 ^ lo = n % 2 ^ lo := by
  rw [setFieldOf_split, Nat.pow_add, Nat.add_assoc]
  have : v % 2 ^ w * 2 ^ lo + n / (2 ^ lo * 2 ^ w) * (2 ^ lo * 2 ^ w) =
      2 ^ lo * (v % 2 ^ w + n / (2 ^ lo * 2 ^ w) * 2 ^ w) := by
    rw [Nat.mul_add, Nat.mul_comm (v % 2 ^ w)]
    congr 1
    rw [Nat.mul_left_comm]
  rw [this, Nat.add_mul_mod_self_left, Nat.mod_mod]

theorem setFieldOf_div (n lo w v : Nat) : setFieldOf n lo w v / 2 ^ (lo + w) = n / 2 ^ (lo + w) := by
  rw [setFieldOf_split]
  have hlt : n % 2 ^ lo + v % 2 ^ w * 2 ^ lo < 2 ^ (lo + w) := by
    have h1 : n % 2 ^ lo < 2 ^ lo := Nat.mod_lt _ (Nat.two_pow_pos lo)
    have h2 : v % 2 ^ w + 1 ≤ 2 ^ w := Nat.mod_lt _ (Nat.two_pow_pos w)
    have h3 := Nat.mul_le_mul_right (2 ^ lo) h2
    rw [Nat.add_mul, Nat.one_mul] at h3
    rw [Nat.pow_add, Nat.mul_comm (2 ^ lo)]
    omega
  rw [Nat.add_mul_div_right _ _ (Nat.two_pow_pos _), Nat.div_eq_of_lt hlt, Nat.zero_add]

/-- A field that was set reads back, cut to its width. -/
@[simp] theorem fieldOf_setFieldOf_same (n lo w v : Nat) : fieldOf (setFieldOf n lo w v) lo w = v % 2 ^ w := by
  rw [fieldOf, Nat.shiftRight_eq_div_pow, setFieldOf_split]
  have h : n % 2 ^ lo + v % 2 ^ w * 2 ^ lo + n / 2 ^ (lo + w) * 2 ^ (lo + w) =
      n % 2 ^ lo + (v % 2 ^ w + n / 2 ^ (lo + w) * 2 ^ w) * 2 ^ lo := by
    rw [Nat.add_mul, ← Nat.add_assoc, Nat.mul_assoc, ← Nat.pow_add, Nat.add_comm w lo]
  rw [h, Nat.add_mul_div_right _ _ (Nat.two_pow_pos _), Nat.div_eq_of_lt (Nat.mod_lt _ (Nat.two_pow_pos lo)),
    Nat.zero_add, Nat.add_mul_mod_self_right, Nat.mod_mod]

/-- A field read from a number's low bits. -/
theorem fieldOf_mod (n lo w k : Nat) (h : lo + w ≤ k) : fieldOf (n % 2 ^ k) lo w = fieldOf n lo w := by
  apply Nat.eq_of_testBit_eq
  intro i
  simp only [testBit_fieldOf, Nat.testBit_mod_two_pow]
  by_cases hi : i < w
  · have : lo + i < k := by omega
    simp [hi, this]
  · simp [hi]

/-- A field above a bit position depends on the part above it only. -/
theorem fieldOf_div (n lo w k : Nat) (h : k ≤ lo) : fieldOf n lo w = fieldOf (n / 2 ^ k) (lo - k) w := by
  simp only [fieldOf, Nat.shiftRight_eq_div_pow, Nat.div_div_eq_div_mul, ← Nat.pow_add]
  rw [show k + (lo - k) = lo by omega]

/-- Setting one field leaves a field that does not meet it alone. -/
theorem fieldOf_setFieldOf_ne (n lo w v lo' w' : Nat) (h : lo' + w' ≤ lo ∨ lo + w ≤ lo') :
    fieldOf (setFieldOf n lo w v) lo' w' = fieldOf n lo' w' := by
  rcases h with h | h
  · rw [← fieldOf_mod _ _ _ lo h, setFieldOf_mod, fieldOf_mod _ _ _ lo h]
  · rw [fieldOf_div _ _ _ (lo + w) h, setFieldOf_div, ← fieldOf_div _ _ _ (lo + w) h]

/-- A field of a 64-bit number. -/
theorem fieldOf_ofNat (n lo w : Nat) (h : lo + w ≤ 64) : fieldOf (BitVec.ofNat 64 n).toNat lo w = fieldOf n lo w := by
  rw [BitVec.toNat_ofNat]; exact fieldOf_mod n lo w 64 h

end Sys2Proof.Machine
end

