-- ==== Sys2Proof/Laws/State.lean ====
section
/-! SUPPORT. What the named updates of the state leave alone, one lemma for each field; registers and tiles after a
register or a tile was written. -/
namespace Sys2Proof.Machine

/-! ### setRaw -/

@[simp] theorem State.setRaw_tiles (s : State) (r : RegName) (idx : List Nat) (n : Nat) : (s.setRaw r idx n).tiles = s.tiles := rfl
@[simp] theorem State.setRaw_mem (s : State) (r : RegName) (idx : List Nat) (n : Nat) : (s.setRaw r idx n).mem = s.mem := rfl
@[simp] theorem State.setRaw_memPoison (s : State) (r : RegName) (idx : List Nat) (n : Nat) : (s.setRaw r idx n).memPoison = s.memPoison := rfl
@[simp] theorem State.setRaw_plateQuota (s : State) (r : RegName) (idx : List Nat) (n : Nat) : (s.setRaw r idx n).plateQuota = s.plateQuota := rfl
@[simp] theorem State.setRaw_faults (s : State) (r : RegName) (idx : List Nat) (n : Nat) : (s.setRaw r idx n).faults = s.faults := rfl
@[simp] theorem State.setRaw_stylus (s : State) (r : RegName) (idx : List Nat) (n : Nat) : (s.setRaw r idx n).stylus = s.stylus := rfl
@[simp] theorem State.setRaw_dm (s : State) (r : RegName) (idx : List Nat) (n : Nat) : (s.setRaw r idx n).dm = s.dm := rfl
@[simp] theorem State.setRaw_bp (s : State) (r : RegName) (idx : List Nat) (n : Nat) : (s.setRaw r idx n).bp = s.bp := rfl
@[simp] theorem State.setRaw_memc (s : State) (r : RegName) (idx : List Nat) (n : Nat) : (s.setRaw r idx n).memc = s.memc := rfl
@[simp] theorem State.setRaw_i3c (s : State) (r : RegName) (idx : List Nat) (n : Nat) : (s.setRaw r idx n).i3c = s.i3c := rfl
@[simp] theorem State.setRaw_sec (s : State) (r : RegName) (idx : List Nat) (n : Nat) : (s.setRaw r idx n).sec = s.sec := rfl
@[simp] theorem State.setRaw_sys (s : State) (r : RegName) (idx : List Nat) (n : Nat) : (s.setRaw r idx n).sys = s.sys := rfl
@[simp] theorem State.setRaw_time (s : State) (r : RegName) (idx : List Nat) (n : Nat) : (s.setRaw r idx n).time = s.time := rfl
@[simp] theorem State.setRaw_fab (s : State) (r : RegName) (idx : List Nat) (n : Nat) : (s.setRaw r idx n).fab = s.fab := rfl
@[simp] theorem State.setRaw_cs (s : State) (r : RegName) (idx : List Nat) (n : Nat) : (s.setRaw r idx n).cs = s.cs := rfl
@[simp] theorem State.setRaw_count (s : State) (r : RegName) (idx : List Nat) (n : Nat) : (s.setRaw r idx n).count = s.count := rfl
@[simp] theorem State.setRaw_todo (s : State) (r : RegName) (idx : List Nat) (n : Nat) : (s.setRaw r idx n).todo = s.todo := rfl
@[simp] theorem State.setRaw_outbox (s : State) (r : RegName) (idx : List Nat) (n : Nat) : (s.setRaw r idx n).outbox = s.outbox := rfl
@[simp] theorem State.setRaw_draws (s : State) (r : RegName) (idx : List Nat) (n : Nat) : (s.setRaw r idx n).draws = s.draws := rfl
@[simp] theorem State.setRaw_pending (s : State) (r : RegName) (idx : List Nat) (n : Nat) : (s.setRaw r idx n).pending = s.pending := rfl
@[simp] theorem State.setRaw_tile (s : State) (r : RegName) (idx : List Nat) (n : Nat) : (s.setRaw r idx n).tile = s.tile := rfl

/-! ### wr -/

@[simp] theorem State.wr_tiles (s : State) (f : Fld) (idx : List Nat) (v : Nat) : (s.wr f idx v).tiles = s.tiles := rfl
@[simp] theorem State.wr_mem (s : State) (f : Fld) (idx : List Nat) (v : Nat) : (s.wr f idx v).mem = s.mem := rfl
@[simp] theorem State.wr_memPoison (s : State) (f : Fld) (idx : List Nat) (v : Nat) : (s.wr f idx v).memPoison = s.memPoison := rfl
@[simp] theorem State.wr_plateQuota (s : State) (f : Fld) (idx : List Nat) (v : Nat) : (s.wr f idx v).plateQuota = s.plateQuota := rfl
@[simp] theorem State.wr_faults (s : State) (f : Fld) (idx : List Nat) (v : Nat) : (s.wr f idx v).faults = s.faults := rfl
@[simp] theorem State.wr_stylus (s : State) (f : Fld) (idx : List Nat) (v : Nat) : (s.wr f idx v).stylus = s.stylus := rfl
@[simp] theorem State.wr_dm (s : State) (f : Fld) (idx : List Nat) (v : Nat) : (s.wr f idx v).dm = s.dm := rfl
@[simp] theorem State.wr_bp (s : State) (f : Fld) (idx : List Nat) (v : Nat) : (s.wr f idx v).bp = s.bp := rfl
@[simp] theorem State.wr_memc (s : State) (f : Fld) (idx : List Nat) (v : Nat) : (s.wr f idx v).memc = s.memc := rfl
@[simp] theorem State.wr_i3c (s : State) (f : Fld) (idx : List Nat) (v : Nat) : (s.wr f idx v).i3c = s.i3c := rfl
@[simp] theorem State.wr_sec (s : State) (f : Fld) (idx : List Nat) (v : Nat) : (s.wr f idx v).sec = s.sec := rfl
@[simp] theorem State.wr_sys (s : State) (f : Fld) (idx : List Nat) (v : Nat) : (s.wr f idx v).sys = s.sys := rfl
@[simp] theorem State.wr_time (s : State) (f : Fld) (idx : List Nat) (v : Nat) : (s.wr f idx v).time = s.time := rfl
@[simp] theorem State.wr_fab (s : State) (f : Fld) (idx : List Nat) (v : Nat) : (s.wr f idx v).fab = s.fab := rfl
@[simp] theorem State.wr_cs (s : State) (f : Fld) (idx : List Nat) (v : Nat) : (s.wr f idx v).cs = s.cs := rfl
@[simp] theorem State.wr_count (s : State) (f : Fld) (idx : List Nat) (v : Nat) : (s.wr f idx v).count = s.count := rfl
@[simp] theorem State.wr_todo (s : State) (f : Fld) (idx : List Nat) (v : Nat) : (s.wr f idx v).todo = s.todo := rfl
@[simp] theorem State.wr_outbox (s : State) (f : Fld) (idx : List Nat) (v : Nat) : (s.wr f idx v).outbox = s.outbox := rfl
@[simp] theorem State.wr_draws (s : State) (f : Fld) (idx : List Nat) (v : Nat) : (s.wr f idx v).draws = s.draws := rfl
@[simp] theorem State.wr_pending (s : State) (f : Fld) (idx : List Nat) (v : Nat) : (s.wr f idx v).pending = s.pending := rfl
@[simp] theorem State.wr_tile (s : State) (f : Fld) (idx : List Nat) (v : Nat) : (s.wr f idx v).tile = s.tile := rfl

/-! ### swWrite -/

@[simp] theorem State.swWrite_tiles (s : State) (r : RegName) (idx : List Nat) (v : Nat) : (s.swWrite r idx v).tiles = s.tiles := rfl
@[simp] theorem State.swWrite_mem (s : State) (r : RegName) (idx : List Nat) (v : Nat) : (s.swWrite r idx v).mem = s.mem := rfl
@[simp] theorem State.swWrite_memPoison (s : State) (r : RegName) (idx : List Nat) (v : Nat) : (s.swWrite r idx v).memPoison = s.memPoison := rfl
@[simp] theorem State.swWrite_plateQuota (s : State) (r : RegName) (idx : List Nat) (v : Nat) : (s.swWrite r idx v).plateQuota = s.plateQuota := rfl
@[simp] theorem State.swWrite_faults (s : State) (r : RegName) (idx : List Nat) (v : Nat) : (s.swWrite r idx v).faults = s.faults := rfl
@[simp] theorem State.swWrite_stylus (s : State) (r : RegName) (idx : List Nat) (v : Nat) : (s.swWrite r idx v).stylus = s.stylus := rfl
@[simp] theorem State.swWrite_dm (s : State) (r : RegName) (idx : List Nat) (v : Nat) : (s.swWrite r idx v).dm = s.dm := rfl
@[simp] theorem State.swWrite_bp (s : State) (r : RegName) (idx : List Nat) (v : Nat) : (s.swWrite r idx v).bp = s.bp := rfl
@[simp] theorem State.swWrite_memc (s : State) (r : RegName) (idx : List Nat) (v : Nat) : (s.swWrite r idx v).memc = s.memc := rfl
@[simp] theorem State.swWrite_i3c (s : State) (r : RegName) (idx : List Nat) (v : Nat) : (s.swWrite r idx v).i3c = s.i3c := rfl
@[simp] theorem State.swWrite_sec (s : State) (r : RegName) (idx : List Nat) (v : Nat) : (s.swWrite r idx v).sec = s.sec := rfl
@[simp] theorem State.swWrite_sys (s : State) (r : RegName) (idx : List Nat) (v : Nat) : (s.swWrite r idx v).sys = s.sys := rfl
@[simp] theorem State.swWrite_time (s : State) (r : RegName) (idx : List Nat) (v : Nat) : (s.swWrite r idx v).time = s.time := rfl
@[simp] theorem State.swWrite_fab (s : State) (r : RegName) (idx : List Nat) (v : Nat) : (s.swWrite r idx v).fab = s.fab := rfl
@[simp] theorem State.swWrite_cs (s : State) (r : RegName) (idx : List Nat) (v : Nat) : (s.swWrite r idx v).cs = s.cs := rfl
@[simp] theorem State.swWrite_count (s : State) (r : RegName) (idx : List Nat) (v : Nat) : (s.swWrite r idx v).count = s.count := rfl
@[simp] theorem State.swWrite_todo (s : State) (r : RegName) (idx : List Nat) (v : Nat) : (s.swWrite r idx v).todo = s.todo := rfl
@[simp] theorem State.swWrite_outbox (s : State) (r : RegName) (idx : List Nat) (v : Nat) : (s.swWrite r idx v).outbox = s.outbox := rfl
@[simp] theorem State.swWrite_draws (s : State) (r : RegName) (idx : List Nat) (v : Nat) : (s.swWrite r idx v).draws = s.draws := rfl
@[simp] theorem State.swWrite_pending (s : State) (r : RegName) (idx : List Nat) (v : Nat) : (s.swWrite r idx v).pending = s.pending := rfl
@[simp] theorem State.swWrite_tile (s : State) (r : RegName) (idx : List Nat) (v : Nat) : (s.swWrite r idx v).tile = s.tile := rfl

/-! ### stick -/

@[simp] theorem State.stick_tiles (s : State) (f : Fld) (idx : List Nat) : (s.stick f idx).tiles = s.tiles := rfl
@[simp] theorem State.stick_mem (s : State) (f : Fld) (idx : List Nat) : (s.stick f idx).mem = s.mem := rfl
@[simp] theorem State.stick_memPoison (s : State) (f : Fld) (idx : List Nat) : (s.stick f idx).memPoison = s.memPoison := rfl
@[simp] theorem State.stick_plateQuota (s : State) (f : Fld) (idx : List Nat) : (s.stick f idx).plateQuota = s.plateQuota := rfl
@[simp] theorem State.stick_faults (s : State) (f : Fld) (idx : List Nat) : (s.stick f idx).faults = s.faults := rfl
@[simp] theorem State.stick_stylus (s : State) (f : Fld) (idx : List Nat) : (s.stick f idx).stylus = s.stylus := rfl
@[simp] theorem State.stick_dm (s : State) (f : Fld) (idx : List Nat) : (s.stick f idx).dm = s.dm := rfl
@[simp] theorem State.stick_bp (s : State) (f : Fld) (idx : List Nat) : (s.stick f idx).bp = s.bp := rfl
@[simp] theorem State.stick_memc (s : State) (f : Fld) (idx : List Nat) : (s.stick f idx).memc = s.memc := rfl
@[simp] theorem State.stick_i3c (s : State) (f : Fld) (idx : List Nat) : (s.stick f idx).i3c = s.i3c := rfl
@[simp] theorem State.stick_sec (s : State) (f : Fld) (idx : List Nat) : (s.stick f idx).sec = s.sec := rfl
@[simp] theorem State.stick_sys (s : State) (f : Fld) (idx : List Nat) : (s.stick f idx).sys = s.sys := rfl
@[simp] theorem State.stick_time (s : State) (f : Fld) (idx : List Nat) : (s.stick f idx).time = s.time := rfl
@[simp] theorem State.stick_fab (s : State) (f : Fld) (idx : List Nat) : (s.stick f idx).fab = s.fab := rfl
@[simp] theorem State.stick_cs (s : State) (f : Fld) (idx : List Nat) : (s.stick f idx).cs = s.cs := rfl
@[simp] theorem State.stick_count (s : State) (f : Fld) (idx : List Nat) : (s.stick f idx).count = s.count := rfl
@[simp] theorem State.stick_todo (s : State) (f : Fld) (idx : List Nat) : (s.stick f idx).todo = s.todo := rfl
@[simp] theorem State.stick_outbox (s : State) (f : Fld) (idx : List Nat) : (s.stick f idx).outbox = s.outbox := rfl
@[simp] theorem State.stick_draws (s : State) (f : Fld) (idx : List Nat) : (s.stick f idx).draws = s.draws := rfl
@[simp] theorem State.stick_pending (s : State) (f : Fld) (idx : List Nat) : (s.stick f idx).pending = s.pending := rfl
@[simp] theorem State.stick_tile (s : State) (f : Fld) (idx : List Nat) : (s.stick f idx).tile = s.tile := rfl

/-! ### updTile -/

@[simp] theorem State.updTile_regs (s : State) (t : Nat) (f : Tile → Tile) : (s.updTile t f).regs = s.regs := rfl
@[simp] theorem State.updTile_mem (s : State) (t : Nat) (f : Tile → Tile) : (s.updTile t f).mem = s.mem := rfl
@[simp] theorem State.updTile_memPoison (s : State) (t : Nat) (f : Tile → Tile) : (s.updTile t f).memPoison = s.memPoison := rfl
@[simp] theorem State.updTile_plateQuota (s : State) (t : Nat) (f : Tile → Tile) : (s.updTile t f).plateQuota = s.plateQuota := rfl
@[simp] theorem State.updTile_faults (s : State) (t : Nat) (f : Tile → Tile) : (s.updTile t f).faults = s.faults := rfl
@[simp] theorem State.updTile_stylus (s : State) (t : Nat) (f : Tile → Tile) : (s.updTile t f).stylus = s.stylus := rfl
@[simp] theorem State.updTile_dm (s : State) (t : Nat) (f : Tile → Tile) : (s.updTile t f).dm = s.dm := rfl
@[simp] theorem State.updTile_bp (s : State) (t : Nat) (f : Tile → Tile) : (s.updTile t f).bp = s.bp := rfl
@[simp] theorem State.updTile_memc (s : State) (t : Nat) (f : Tile → Tile) : (s.updTile t f).memc = s.memc := rfl
@[simp] theorem State.updTile_i3c (s : State) (t : Nat) (f : Tile → Tile) : (s.updTile t f).i3c = s.i3c := rfl
@[simp] theorem State.updTile_sec (s : State) (t : Nat) (f : Tile → Tile) : (s.updTile t f).sec = s.sec := rfl
@[simp] theorem State.updTile_sys (s : State) (t : Nat) (f : Tile → Tile) : (s.updTile t f).sys = s.sys := rfl
@[simp] theorem State.updTile_time (s : State) (t : Nat) (f : Tile → Tile) : (s.updTile t f).time = s.time := rfl
@[simp] theorem State.updTile_fab (s : State) (t : Nat) (f : Tile → Tile) : (s.updTile t f).fab = s.fab := rfl
@[simp] theorem State.updTile_cs (s : State) (t : Nat) (f : Tile → Tile) : (s.updTile t f).cs = s.cs := rfl
@[simp] theorem State.updTile_count (s : State) (t : Nat) (f : Tile → Tile) : (s.updTile t f).count = s.count := rfl
@[simp] theorem State.updTile_todo (s : State) (t : Nat) (f : Tile → Tile) : (s.updTile t f).todo = s.todo := rfl
@[simp] theorem State.updTile_outbox (s : State) (t : Nat) (f : Tile → Tile) : (s.updTile t f).outbox = s.outbox := rfl
@[simp] theorem State.updTile_draws (s : State) (t : Nat) (f : Tile → Tile) : (s.updTile t f).draws = s.draws := rfl
@[simp] theorem State.updTile_pending (s : State) (t : Nat) (f : Tile → Tile) : (s.updTile t f).pending = s.pending := rfl
@[simp] theorem State.updTile_rawReg (s : State) (t : Nat) (f : Tile → Tile) : (s.updTile t f).rawReg = s.rawReg := rfl
@[simp] theorem State.updTile_rd (s : State) (t : Nat) (f : Tile → Tile) : (s.updTile t f).rd = s.rd := rfl
@[simp] theorem State.updTile_on (s : State) (t : Nat) (f : Tile → Tile) : (s.updTile t f).on = s.on := rfl

/-! ### tileStep -/

@[simp] theorem State.tileStep_regs (s : State) (t : Nat) (f : Tile → Tile) : (s.tileStep t f).regs = s.regs := rfl
@[simp] theorem State.tileStep_mem (s : State) (t : Nat) (f : Tile → Tile) : (s.tileStep t f).mem = s.mem := rfl
@[simp] theorem State.tileStep_memPoison (s : State) (t : Nat) (f : Tile → Tile) : (s.tileStep t f).memPoison = s.memPoison := rfl
@[simp] theorem State.tileStep_plateQuota (s : State) (t : Nat) (f : Tile → Tile) : (s.tileStep t f).plateQuota = s.plateQuota := rfl
@[simp] theorem State.tileStep_faults (s : State) (t : Nat) (f : Tile → Tile) : (s.tileStep t f).faults = s.faults := rfl
@[simp] theorem State.tileStep_stylus (s : State) (t : Nat) (f : Tile → Tile) : (s.tileStep t f).stylus = s.stylus := rfl
@[simp] theorem State.tileStep_dm (s : State) (t : Nat) (f : Tile → Tile) : (s.tileStep t f).dm = s.dm := rfl
@[simp] theorem State.tileStep_bp (s : State) (t : Nat) (f : Tile → Tile) : (s.tileStep t f).bp = s.bp := rfl
@[simp] theorem State.tileStep_memc (s : State) (t : Nat) (f : Tile → Tile) : (s.tileStep t f).memc = s.memc := rfl
@[simp] theorem State.tileStep_i3c (s : State) (t : Nat) (f : Tile → Tile) : (s.tileStep t f).i3c = s.i3c := rfl
@[simp] theorem State.tileStep_sec (s : State) (t : Nat) (f : Tile → Tile) : (s.tileStep t f).sec = s.sec := rfl
@[simp] theorem State.tileStep_sys (s : State) (t : Nat) (f : Tile → Tile) : (s.tileStep t f).sys = s.sys := rfl
@[simp] theorem State.tileStep_time (s : State) (t : Nat) (f : Tile → Tile) : (s.tileStep t f).time = s.time := rfl
@[simp] theorem State.tileStep_fab (s : State) (t : Nat) (f : Tile → Tile) : (s.tileStep t f).fab = s.fab := rfl
@[simp] theorem State.tileStep_cs (s : State) (t : Nat) (f : Tile → Tile) : (s.tileStep t f).cs = s.cs := rfl
@[simp] theorem State.tileStep_count (s : State) (t : Nat) (f : Tile → Tile) : (s.tileStep t f).count = s.count := rfl
@[simp] theorem State.tileStep_todo (s : State) (t : Nat) (f : Tile → Tile) : (s.tileStep t f).todo = s.todo := rfl
@[simp] theorem State.tileStep_outbox (s : State) (t : Nat) (f : Tile → Tile) : (s.tileStep t f).outbox = s.outbox := rfl
@[simp] theorem State.tileStep_draws (s : State) (t : Nat) (f : Tile → Tile) : (s.tileStep t f).draws = s.draws := rfl
@[simp] theorem State.tileStep_pending (s : State) (t : Nat) (f : Tile → Tile) : (s.tileStep t f).pending = s.pending := rfl
@[simp] theorem State.tileStep_rawReg (s : State) (t : Nat) (f : Tile → Tile) : (s.tileStep t f).rawReg = s.rawReg := rfl
@[simp] theorem State.tileStep_rd (s : State) (t : Nat) (f : Tile → Tile) : (s.tileStep t f).rd = s.rd := rfl
@[simp] theorem State.tileStep_on (s : State) (t : Nat) (f : Tile → Tile) : (s.tileStep t f).on = s.on := rfl

/-! ### emit -/

@[simp] theorem State.emit_regs (s : State) (e : Emit) : (s.emit e).regs = s.regs := rfl
@[simp] theorem State.emit_tiles (s : State) (e : Emit) : (s.emit e).tiles = s.tiles := rfl
@[simp] theorem State.emit_mem (s : State) (e : Emit) : (s.emit e).mem = s.mem := rfl
@[simp] theorem State.emit_memPoison (s : State) (e : Emit) : (s.emit e).memPoison = s.memPoison := rfl
@[simp] theorem State.emit_plateQuota (s : State) (e : Emit) : (s.emit e).plateQuota = s.plateQuota := rfl
@[simp] theorem State.emit_faults (s : State) (e : Emit) : (s.emit e).faults = s.faults := rfl
@[simp] theorem State.emit_stylus (s : State) (e : Emit) : (s.emit e).stylus = s.stylus := rfl
@[simp] theorem State.emit_dm (s : State) (e : Emit) : (s.emit e).dm = s.dm := rfl
@[simp] theorem State.emit_bp (s : State) (e : Emit) : (s.emit e).bp = s.bp := rfl
@[simp] theorem State.emit_memc (s : State) (e : Emit) : (s.emit e).memc = s.memc := rfl
@[simp] theorem State.emit_i3c (s : State) (e : Emit) : (s.emit e).i3c = s.i3c := rfl
@[simp] theorem State.emit_sec (s : State) (e : Emit) : (s.emit e).sec = s.sec := rfl
@[simp] theorem State.emit_sys (s : State) (e : Emit) : (s.emit e).sys = s.sys := rfl
@[simp] theorem State.emit_time (s : State) (e : Emit) : (s.emit e).time = s.time := rfl
@[simp] theorem State.emit_fab (s : State) (e : Emit) : (s.emit e).fab = s.fab := rfl
@[simp] theorem State.emit_cs (s : State) (e : Emit) : (s.emit e).cs = s.cs := rfl
@[simp] theorem State.emit_count (s : State) (e : Emit) : (s.emit e).count = s.count := rfl
@[simp] theorem State.emit_todo (s : State) (e : Emit) : (s.emit e).todo = s.todo := rfl
@[simp] theorem State.emit_draws (s : State) (e : Emit) : (s.emit e).draws = s.draws := rfl
@[simp] theorem State.emit_pending (s : State) (e : Emit) : (s.emit e).pending = s.pending := rfl
@[simp] theorem State.emit_rawReg (s : State) (e : Emit) : (s.emit e).rawReg = s.rawReg := rfl
@[simp] theorem State.emit_rd (s : State) (e : Emit) : (s.emit e).rd = s.rd := rfl
@[simp] theorem State.emit_on (s : State) (e : Emit) : (s.emit e).on = s.on := rfl
@[simp] theorem State.emit_tile (s : State) (e : Emit) : (s.emit e).tile = s.tile := rfl

/-! ### owe -/

@[simp] theorem State.owe_regs (s : State) (d : Due) : (s.owe d).regs = s.regs := rfl
@[simp] theorem State.owe_tiles (s : State) (d : Due) : (s.owe d).tiles = s.tiles := rfl
@[simp] theorem State.owe_mem (s : State) (d : Due) : (s.owe d).mem = s.mem := rfl
@[simp] theorem State.owe_memPoison (s : State) (d : Due) : (s.owe d).memPoison = s.memPoison := rfl
@[simp] theorem State.owe_plateQuota (s : State) (d : Due) : (s.owe d).plateQuota = s.plateQuota := rfl
@[simp] theorem State.owe_faults (s : State) (d : Due) : (s.owe d).faults = s.faults := rfl
@[simp] theorem State.owe_stylus (s : State) (d : Due) : (s.owe d).stylus = s.stylus := rfl
@[simp] theorem State.owe_dm (s : State) (d : Due) : (s.owe d).dm = s.dm := rfl
@[simp] theorem State.owe_bp (s : State) (d : Due) : (s.owe d).bp = s.bp := rfl
@[simp] theorem State.owe_memc (s : State) (d : Due) : (s.owe d).memc = s.memc := rfl
@[simp] theorem State.owe_i3c (s : State) (d : Due) : (s.owe d).i3c = s.i3c := rfl
@[simp] theorem State.owe_sec (s : State) (d : Due) : (s.owe d).sec = s.sec := rfl
@[simp] theorem State.owe_sys (s : State) (d : Due) : (s.owe d).sys = s.sys := rfl
@[simp] theorem State.owe_time (s : State) (d : Due) : (s.owe d).time = s.time := rfl
@[simp] theorem State.owe_fab (s : State) (d : Due) : (s.owe d).fab = s.fab := rfl
@[simp] theorem State.owe_cs (s : State) (d : Due) : (s.owe d).cs = s.cs := rfl
@[simp] theorem State.owe_count (s : State) (d : Due) : (s.owe d).count = s.count := rfl
@[simp] theorem State.owe_outbox (s : State) (d : Due) : (s.owe d).outbox = s.outbox := rfl
@[simp] theorem State.owe_draws (s : State) (d : Due) : (s.owe d).draws = s.draws := rfl
@[simp] theorem State.owe_pending (s : State) (d : Due) : (s.owe d).pending = s.pending := rfl
@[simp] theorem State.owe_rawReg (s : State) (d : Due) : (s.owe d).rawReg = s.rawReg := rfl
@[simp] theorem State.owe_rd (s : State) (d : Due) : (s.owe d).rd = s.rd := rfl
@[simp] theorem State.owe_on (s : State) (d : Due) : (s.owe d).on = s.on := rfl
@[simp] theorem State.owe_tile (s : State) (d : Due) : (s.owe d).tile = s.tile := rfl

/-! ### updCq -/

@[simp] theorem State.updCq_regs (s : State) (n : Nat) (f : CqSt → CqSt) : (s.updCq n f).regs = s.regs := rfl
@[simp] theorem State.updCq_tiles (s : State) (n : Nat) (f : CqSt → CqSt) : (s.updCq n f).tiles = s.tiles := rfl
@[simp] theorem State.updCq_mem (s : State) (n : Nat) (f : CqSt → CqSt) : (s.updCq n f).mem = s.mem := rfl
@[simp] theorem State.updCq_memPoison (s : State) (n : Nat) (f : CqSt → CqSt) : (s.updCq n f).memPoison = s.memPoison := rfl
@[simp] theorem State.updCq_plateQuota (s : State) (n : Nat) (f : CqSt → CqSt) : (s.updCq n f).plateQuota = s.plateQuota := rfl
@[simp] theorem State.updCq_faults (s : State) (n : Nat) (f : CqSt → CqSt) : (s.updCq n f).faults = s.faults := rfl
@[simp] theorem State.updCq_dm (s : State) (n : Nat) (f : CqSt → CqSt) : (s.updCq n f).dm = s.dm := rfl
@[simp] theorem State.updCq_bp (s : State) (n : Nat) (f : CqSt → CqSt) : (s.updCq n f).bp = s.bp := rfl
@[simp] theorem State.updCq_memc (s : State) (n : Nat) (f : CqSt → CqSt) : (s.updCq n f).memc = s.memc := rfl
@[simp] theorem State.updCq_i3c (s : State) (n : Nat) (f : CqSt → CqSt) : (s.updCq n f).i3c = s.i3c := rfl
@[simp] theorem State.updCq_sec (s : State) (n : Nat) (f : CqSt → CqSt) : (s.updCq n f).sec = s.sec := rfl
@[simp] theorem State.updCq_sys (s : State) (n : Nat) (f : CqSt → CqSt) : (s.updCq n f).sys = s.sys := rfl
@[simp] theorem State.updCq_time (s : State) (n : Nat) (f : CqSt → CqSt) : (s.updCq n f).time = s.time := rfl
@[simp] theorem State.updCq_fab (s : State) (n : Nat) (f : CqSt → CqSt) : (s.updCq n f).fab = s.fab := rfl
@[simp] theorem State.updCq_cs (s : State) (n : Nat) (f : CqSt → CqSt) : (s.updCq n f).cs = s.cs := rfl
@[simp] theorem State.updCq_count (s : State) (n : Nat) (f : CqSt → CqSt) : (s.updCq n f).count = s.count := rfl
@[simp] theorem State.updCq_todo (s : State) (n : Nat) (f : CqSt → CqSt) : (s.updCq n f).todo = s.todo := rfl
@[simp] theorem State.updCq_outbox (s : State) (n : Nat) (f : CqSt → CqSt) : (s.updCq n f).outbox = s.outbox := rfl
@[simp] theorem State.updCq_draws (s : State) (n : Nat) (f : CqSt → CqSt) : (s.updCq n f).draws = s.draws := rfl
@[simp] theorem State.updCq_pending (s : State) (n : Nat) (f : CqSt → CqSt) : (s.updCq n f).pending = s.pending := rfl
@[simp] theorem State.updCq_rawReg (s : State) (n : Nat) (f : CqSt → CqSt) : (s.updCq n f).rawReg = s.rawReg := rfl
@[simp] theorem State.updCq_rd (s : State) (n : Nat) (f : CqSt → CqSt) : (s.updCq n f).rd = s.rd := rfl
@[simp] theorem State.updCq_on (s : State) (n : Nat) (f : CqSt → CqSt) : (s.updCq n f).on = s.on := rfl
@[simp] theorem State.updCq_tile (s : State) (n : Nat) (f : CqSt → CqSt) : (s.updCq n f).tile = s.tile := rfl

/-! ### setEsc -/

@[simp] theorem State.setEsc_regs (s : State) (e : EscCount) : (s.setEsc e).regs = s.regs := rfl
@[simp] theorem State.setEsc_tiles (s : State) (e : EscCount) : (s.setEsc e).tiles = s.tiles := rfl
@[simp] theorem State.setEsc_mem (s : State) (e : EscCount) : (s.setEsc e).mem = s.mem := rfl
@[simp] theorem State.setEsc_memPoison (s : State) (e : EscCount) : (s.setEsc e).memPoison = s.memPoison := rfl
@[simp] theorem State.setEsc_plateQuota (s : State) (e : EscCount) : (s.setEsc e).plateQuota = s.plateQuota := rfl
@[simp] theorem State.setEsc_stylus (s : State) (e : EscCount) : (s.setEsc e).stylus = s.stylus := rfl
@[simp] theorem State.setEsc_dm (s : State) (e : EscCount) : (s.setEsc e).dm = s.dm := rfl
@[simp] theorem State.setEsc_bp (s : State) (e : EscCount) : (s.setEsc e).bp = s.bp := rfl
@[simp] theorem State.setEsc_memc (s : State) (e : EscCount) : (s.setEsc e).memc = s.memc := rfl
@[simp] theorem State.setEsc_i3c (s : State) (e : EscCount) : (s.setEsc e).i3c = s.i3c := rfl
@[simp] theorem State.setEsc_sec (s : State) (e : EscCount) : (s.setEsc e).sec = s.sec := rfl
@[simp] theorem State.setEsc_sys (s : State) (e : EscCount) : (s.setEsc e).sys = s.sys := rfl
@[simp] theorem State.setEsc_time (s : State) (e : EscCount) : (s.setEsc e).time = s.time := rfl
@[simp] theorem State.setEsc_fab (s : State) (e : EscCount) : (s.setEsc e).fab = s.fab := rfl
@[simp] theorem State.setEsc_cs (s : State) (e : EscCount) : (s.setEsc e).cs = s.cs := rfl
@[simp] theorem State.setEsc_count (s : State) (e : EscCount) : (s.setEsc e).count = s.count := rfl
@[simp] theorem State.setEsc_todo (s : State) (e : EscCount) : (s.setEsc e).todo = s.todo := rfl
@[simp] theorem State.setEsc_outbox (s : State) (e : EscCount) : (s.setEsc e).outbox = s.outbox := rfl
@[simp] theorem State.setEsc_draws (s : State) (e : EscCount) : (s.setEsc e).draws = s.draws := rfl
@[simp] theorem State.setEsc_pending (s : State) (e : EscCount) : (s.setEsc e).pending = s.pending := rfl
@[simp] theorem State.setEsc_rawReg (s : State) (e : EscCount) : (s.setEsc e).rawReg = s.rawReg := rfl
@[simp] theorem State.setEsc_rd (s : State) (e : EscCount) : (s.setEsc e).rd = s.rd := rfl
@[simp] theorem State.setEsc_on (s : State) (e : EscCount) : (s.setEsc e).on = s.on := rfl
@[simp] theorem State.setEsc_tile (s : State) (e : EscCount) : (s.setEsc e).tile = s.tile := rfl

/-! ### setGate -/

@[simp] theorem State.setGate_regs (s : State) (n : Nat) (g : GateSt) : (s.setGate n g).regs = s.regs := rfl
@[simp] theorem State.setGate_tiles (s : State) (n : Nat) (g : GateSt) : (s.setGate n g).tiles = s.tiles := rfl
@[simp] theorem State.setGate_mem (s : State) (n : Nat) (g : GateSt) : (s.setGate n g).mem = s.mem := rfl
@[simp] theorem State.setGate_memPoison (s : State) (n : Nat) (g : GateSt) : (s.setGate n g).memPoison = s.memPoison := rfl
@[simp] theorem State.setGate_plateQuota (s : State) (n : Nat) (g : GateSt) : (s.setGate n g).plateQuota = s.plateQuota := rfl
@[simp] theorem State.setGate_faults (s : State) (n : Nat) (g : GateSt) : (s.setGate n g).faults = s.faults := rfl
@[simp] theorem State.setGate_stylus (s : State) (n : Nat) (g : GateSt) : (s.setGate n g).stylus = s.stylus := rfl
@[simp] theorem State.setGate_dm (s : State) (n : Nat) (g : GateSt) : (s.setGate n g).dm = s.dm := rfl
@[simp] theorem State.setGate_bp (s : State) (n : Nat) (g : GateSt) : (s.setGate n g).bp = s.bp := rfl
@[simp] theorem State.setGate_memc (s : State) (n : Nat) (g : GateSt) : (s.setGate n g).memc = s.memc := rfl
@[simp] theorem State.setGate_i3c (s : State) (n : Nat) (g : GateSt) : (s.setGate n g).i3c = s.i3c := rfl
@[simp] theorem State.setGate_sec (s : State) (n : Nat) (g : GateSt) : (s.setGate n g).sec = s.sec := rfl
@[simp] theorem State.setGate_sys (s : State) (n : Nat) (g : GateSt) : (s.setGate n g).sys = s.sys := rfl
@[simp] theorem State.setGate_time (s : State) (n : Nat) (g : GateSt) : (s.setGate n g).time = s.time := rfl
@[simp] theorem State.setGate_fab (s : State) (n : Nat) (g : GateSt) : (s.setGate n g).fab = s.fab := rfl
@[simp] theorem State.setGate_count (s : State) (n : Nat) (g : GateSt) : (s.setGate n g).count = s.count := rfl
@[simp] theorem State.setGate_todo (s : State) (n : Nat) (g : GateSt) : (s.setGate n g).todo = s.todo := rfl
@[simp] theorem State.setGate_outbox (s : State) (n : Nat) (g : GateSt) : (s.setGate n g).outbox = s.outbox := rfl
@[simp] theorem State.setGate_draws (s : State) (n : Nat) (g : GateSt) : (s.setGate n g).draws = s.draws := rfl
@[simp] theorem State.setGate_pending (s : State) (n : Nat) (g : GateSt) : (s.setGate n g).pending = s.pending := rfl
@[simp] theorem State.setGate_rawReg (s : State) (n : Nat) (g : GateSt) : (s.setGate n g).rawReg = s.rawReg := rfl
@[simp] theorem State.setGate_rd (s : State) (n : Nat) (g : GateSt) : (s.setGate n g).rd = s.rd := rfl
@[simp] theorem State.setGate_on (s : State) (n : Nat) (g : GateSt) : (s.setGate n g).on = s.on := rfl
@[simp] theorem State.setGate_tile (s : State) (n : Nat) (g : GateSt) : (s.setGate n g).tile = s.tile := rfl

/-! ### setComm -/

@[simp] theorem State.setComm_regs (s : State) (c : Comm) : (s.setComm c).regs = s.regs := rfl
@[simp] theorem State.setComm_tiles (s : State) (c : Comm) : (s.setComm c).tiles = s.tiles := rfl
@[simp] theorem State.setComm_mem (s : State) (c : Comm) : (s.setComm c).mem = s.mem := rfl
@[simp] theorem State.setComm_memPoison (s : State) (c : Comm) : (s.setComm c).memPoison = s.memPoison := rfl
@[simp] theorem State.setComm_plateQuota (s : State) (c : Comm) : (s.setComm c).plateQuota = s.plateQuota := rfl
@[simp] theorem State.setComm_faults (s : State) (c : Comm) : (s.setComm c).faults = s.faults := rfl
@[simp] theorem State.setComm_stylus (s : State) (c : Comm) : (s.setComm c).stylus = s.stylus := rfl
@[simp] theorem State.setComm_dm (s : State) (c : Comm) : (s.setComm c).dm = s.dm := rfl
@[simp] theorem State.setComm_bp (s : State) (c : Comm) : (s.setComm c).bp = s.bp := rfl
@[simp] theorem State.setComm_memc (s : State) (c : Comm) : (s.setComm c).memc = s.memc := rfl
@[simp] theorem State.setComm_i3c (s : State) (c : Comm) : (s.setComm c).i3c = s.i3c := rfl
@[simp] theorem State.setComm_sec (s : State) (c : Comm) : (s.setComm c).sec = s.sec := rfl
@[simp] theorem State.setComm_sys (s : State) (c : Comm) : (s.setComm c).sys = s.sys := rfl
@[simp] theorem State.setComm_time (s : State) (c : Comm) : (s.setComm c).time = s.time := rfl
@[simp] theorem State.setComm_fab (s : State) (c : Comm) : (s.setComm c).fab = s.fab := rfl
@[simp] theorem State.setComm_count (s : State) (c : Comm) : (s.setComm c).count = s.count := rfl
@[simp] theorem State.setComm_todo (s : State) (c : Comm) : (s.setComm c).todo = s.todo := rfl
@[simp] theorem State.setComm_outbox (s : State) (c : Comm) : (s.setComm c).outbox = s.outbox := rfl
@[simp] theorem State.setComm_draws (s : State) (c : Comm) : (s.setComm c).draws = s.draws := rfl
@[simp] theorem State.setComm_pending (s : State) (c : Comm) : (s.setComm c).pending = s.pending := rfl
@[simp] theorem State.setComm_rawReg (s : State) (c : Comm) : (s.setComm c).rawReg = s.rawReg := rfl
@[simp] theorem State.setComm_rd (s : State) (c : Comm) : (s.setComm c).rd = s.rd := rfl
@[simp] theorem State.setComm_on (s : State) (c : Comm) : (s.setComm c).on = s.on := rfl
@[simp] theorem State.setComm_tile (s : State) (c : Comm) : (s.setComm c).tile = s.tile := rfl

/-! ### updLink -/

@[simp] theorem State.updLink_regs (s : State) (p : Nat) (f : LinkPort → LinkPort) : (s.updLink p f).regs = s.regs := rfl
@[simp] theorem State.updLink_tiles (s : State) (p : Nat) (f : LinkPort → LinkPort) : (s.updLink p f).tiles = s.tiles := rfl
@[simp] theorem State.updLink_mem (s : State) (p : Nat) (f : LinkPort → LinkPort) : (s.updLink p f).mem = s.mem := rfl
@[simp] theorem State.updLink_memPoison (s : State) (p : Nat) (f : LinkPort → LinkPort) : (s.updLink p f).memPoison = s.memPoison := rfl
@[simp] theorem State.updLink_plateQuota (s : State) (p : Nat) (f : LinkPort → LinkPort) : (s.updLink p f).plateQuota = s.plateQuota := rfl
@[simp] theorem State.updLink_faults (s : State) (p : Nat) (f : LinkPort → LinkPort) : (s.updLink p f).faults = s.faults := rfl
@[simp] theorem State.updLink_stylus (s : State) (p : Nat) (f : LinkPort → LinkPort) : (s.updLink p f).stylus = s.stylus := rfl
@[simp] theorem State.updLink_dm (s : State) (p : Nat) (f : LinkPort → LinkPort) : (s.updLink p f).dm = s.dm := rfl
@[simp] theorem State.updLink_bp (s : State) (p : Nat) (f : LinkPort → LinkPort) : (s.updLink p f).bp = s.bp := rfl
@[simp] theorem State.updLink_memc (s : State) (p : Nat) (f : LinkPort → LinkPort) : (s.updLink p f).memc = s.memc := rfl
@[simp] theorem State.updLink_i3c (s : State) (p : Nat) (f : LinkPort → LinkPort) : (s.updLink p f).i3c = s.i3c := rfl
@[simp] theorem State.updLink_sec (s : State) (p : Nat) (f : LinkPort → LinkPort) : (s.updLink p f).sec = s.sec := rfl
@[simp] theorem State.updLink_sys (s : State) (p : Nat) (f : LinkPort → LinkPort) : (s.updLink p f).sys = s.sys := rfl
@[simp] theorem State.updLink_time (s : State) (p : Nat) (f : LinkPort → LinkPort) : (s.updLink p f).time = s.time := rfl
@[simp] theorem State.updLink_cs (s : State) (p : Nat) (f : LinkPort → LinkPort) : (s.updLink p f).cs = s.cs := rfl
@[simp] theorem State.updLink_count (s : State) (p : Nat) (f : LinkPort → LinkPort) : (s.updLink p f).count = s.count := rfl
@[simp] theorem State.updLink_todo (s : State) (p : Nat) (f : LinkPort → LinkPort) : (s.updLink p f).todo = s.todo := rfl
@[simp] theorem State.updLink_outbox (s : State) (p : Nat) (f : LinkPort → LinkPort) : (s.updLink p f).outbox = s.outbox := rfl
@[simp] theorem State.updLink_draws (s : State) (p : Nat) (f : LinkPort → LinkPort) : (s.updLink p f).draws = s.draws := rfl
@[simp] theorem State.updLink_pending (s : State) (p : Nat) (f : LinkPort → LinkPort) : (s.updLink p f).pending = s.pending := rfl
@[simp] theorem State.updLink_rawReg (s : State) (p : Nat) (f : LinkPort → LinkPort) : (s.updLink p f).rawReg = s.rawReg := rfl
@[simp] theorem State.updLink_rd (s : State) (p : Nat) (f : LinkPort → LinkPort) : (s.updLink p f).rd = s.rd := rfl
@[simp] theorem State.updLink_on (s : State) (p : Nat) (f : LinkPort → LinkPort) : (s.updLink p f).on = s.on := rfl
@[simp] theorem State.updLink_tile (s : State) (p : Nat) (f : LinkPort → LinkPort) : (s.updLink p f).tile = s.tile := rfl

/-! ### setStream -/

@[simp] theorem State.setStream_regs (s : State) (x : SrcStream) : (s.setStream x).regs = s.regs := rfl
@[simp] theorem State.setStream_tiles (s : State) (x : SrcStream) : (s.setStream x).tiles = s.tiles := rfl
@[simp] theorem State.setStream_mem (s : State) (x : SrcStream) : (s.setStream x).mem = s.mem := rfl
@[simp] theorem State.setStream_memPoison (s : State) (x : SrcStream) : (s.setStream x).memPoison = s.memPoison := rfl
@[simp] theorem State.setStream_plateQuota (s : State) (x : SrcStream) : (s.setStream x).plateQuota = s.plateQuota := rfl
@[simp] theorem State.setStream_faults (s : State) (x : SrcStream) : (s.setStream x).faults = s.faults := rfl
@[simp] theorem State.setStream_stylus (s : State) (x : SrcStream) : (s.setStream x).stylus = s.stylus := rfl
@[simp] theorem State.setStream_dm (s : State) (x : SrcStream) : (s.setStream x).dm = s.dm := rfl
@[simp] theorem State.setStream_bp (s : State) (x : SrcStream) : (s.setStream x).bp = s.bp := rfl
@[simp] theorem State.setStream_memc (s : State) (x : SrcStream) : (s.setStream x).memc = s.memc := rfl
@[simp] theorem State.setStream_i3c (s : State) (x : SrcStream) : (s.setStream x).i3c = s.i3c := rfl
@[simp] theorem State.setStream_sec (s : State) (x : SrcStream) : (s.setStream x).sec = s.sec := rfl
@[simp] theorem State.setStream_sys (s : State) (x : SrcStream) : (s.setStream x).sys = s.sys := rfl
@[simp] theorem State.setStream_time (s : State) (x : SrcStream) : (s.setStream x).time = s.time := rfl
@[simp] theorem State.setStream_cs (s : State) (x : SrcStream) : (s.setStream x).cs = s.cs := rfl
@[simp] theorem State.setStream_count (s : State) (x : SrcStream) : (s.setStream x).count = s.count := rfl
@[simp] theorem State.setStream_todo (s : State) (x : SrcStream) : (s.setStream x).todo = s.todo := rfl
@[simp] theorem State.setStream_outbox (s : State) (x : SrcStream) : (s.setStream x).outbox = s.outbox := rfl
@[simp] theorem State.setStream_draws (s : State) (x : SrcStream) : (s.setStream x).draws = s.draws := rfl
@[simp] theorem State.setStream_pending (s : State) (x : SrcStream) : (s.setStream x).pending = s.pending := rfl
@[simp] theorem State.setStream_rawReg (s : State) (x : SrcStream) : (s.setStream x).rawReg = s.rawReg := rfl
@[simp] theorem State.setStream_rd (s : State) (x : SrcStream) : (s.setStream x).rd = s.rd := rfl
@[simp] theorem State.setStream_on (s : State) (x : SrcStream) : (s.setStream x).on = s.on := rfl
@[simp] theorem State.setStream_tile (s : State) (x : SrcStream) : (s.setStream x).tile = s.tile := rfl

/-! ### setXfer -/

@[simp] theorem State.setXfer_regs (s : State) (x : Xfer) : (s.setXfer x).regs = s.regs := rfl
@[simp] theorem State.setXfer_tiles (s : State) (x : Xfer) : (s.setXfer x).tiles = s.tiles := rfl
@[simp] theorem State.setXfer_mem (s : State) (x : Xfer) : (s.setXfer x).mem = s.mem := rfl
@[simp] theorem State.setXfer_memPoison (s : State) (x : Xfer) : (s.setXfer x).memPoison = s.memPoison := rfl
@[simp] theorem State.setXfer_plateQuota (s : State) (x : Xfer) : (s.setXfer x).plateQuota = s.plateQuota := rfl
@[simp] theorem State.setXfer_faults (s : State) (x : Xfer) : (s.setXfer x).faults = s.faults := rfl
@[simp] theorem State.setXfer_stylus (s : State) (x : Xfer) : (s.setXfer x).stylus = s.stylus := rfl
@[simp] theorem State.setXfer_dm (s : State) (x : Xfer) : (s.setXfer x).dm = s.dm := rfl
@[simp] theorem State.setXfer_bp (s : State) (x : Xfer) : (s.setXfer x).bp = s.bp := rfl
@[simp] theorem State.setXfer_memc (s : State) (x : Xfer) : (s.setXfer x).memc = s.memc := rfl
@[simp] theorem State.setXfer_i3c (s : State) (x : Xfer) : (s.setXfer x).i3c = s.i3c := rfl
@[simp] theorem State.setXfer_sec (s : State) (x : Xfer) : (s.setXfer x).sec = s.sec := rfl
@[simp] theorem State.setXfer_sys (s : State) (x : Xfer) : (s.setXfer x).sys = s.sys := rfl
@[simp] theorem State.setXfer_time (s : State) (x : Xfer) : (s.setXfer x).time = s.time := rfl
@[simp] theorem State.setXfer_cs (s : State) (x : Xfer) : (s.setXfer x).cs = s.cs := rfl
@[simp] theorem State.setXfer_count (s : State) (x : Xfer) : (s.setXfer x).count = s.count := rfl
@[simp] theorem State.setXfer_todo (s : State) (x : Xfer) : (s.setXfer x).todo = s.todo := rfl
@[simp] theorem State.setXfer_outbox (s : State) (x : Xfer) : (s.setXfer x).outbox = s.outbox := rfl
@[simp] theorem State.setXfer_draws (s : State) (x : Xfer) : (s.setXfer x).draws = s.draws := rfl
@[simp] theorem State.setXfer_pending (s : State) (x : Xfer) : (s.setXfer x).pending = s.pending := rfl
@[simp] theorem State.setXfer_rawReg (s : State) (x : Xfer) : (s.setXfer x).rawReg = s.rawReg := rfl
@[simp] theorem State.setXfer_rd (s : State) (x : Xfer) : (s.setXfer x).rd = s.rd := rfl
@[simp] theorem State.setXfer_on (s : State) (x : Xfer) : (s.setXfer x).on = s.on := rfl
@[simp] theorem State.setXfer_tile (s : State) (x : Xfer) : (s.setXfer x).tile = s.tile := rfl

/-! ### setChan -/

@[simp] theorem State.setChan_regs (s : State) (d c : Nat) (x : DmChan) : (s.setChan d c x).regs = s.regs := rfl
@[simp] theorem State.setChan_tiles (s : State) (d c : Nat) (x : DmChan) : (s.setChan d c x).tiles = s.tiles := rfl
@[simp] theorem State.setChan_mem (s : State) (d c : Nat) (x : DmChan) : (s.setChan d c x).mem = s.mem := rfl
@[simp] theorem State.setChan_memPoison (s : State) (d c : Nat) (x : DmChan) : (s.setChan d c x).memPoison = s.memPoison := rfl
@[simp] theorem State.setChan_plateQuota (s : State) (d c : Nat) (x : DmChan) : (s.setChan d c x).plateQuota = s.plateQuota := rfl
@[simp] theorem State.setChan_faults (s : State) (d c : Nat) (x : DmChan) : (s.setChan d c x).faults = s.faults := rfl
@[simp] theorem State.setChan_stylus (s : State) (d c : Nat) (x : DmChan) : (s.setChan d c x).stylus = s.stylus := rfl
@[simp] theorem State.setChan_bp (s : State) (d c : Nat) (x : DmChan) : (s.setChan d c x).bp = s.bp := rfl
@[simp] theorem State.setChan_memc (s : State) (d c : Nat) (x : DmChan) : (s.setChan d c x).memc = s.memc := rfl
@[simp] theorem State.setChan_i3c (s : State) (d c : Nat) (x : DmChan) : (s.setChan d c x).i3c = s.i3c := rfl
@[simp] theorem State.setChan_sec (s : State) (d c : Nat) (x : DmChan) : (s.setChan d c x).sec = s.sec := rfl
@[simp] theorem State.setChan_sys (s : State) (d c : Nat) (x : DmChan) : (s.setChan d c x).sys = s.sys := rfl
@[simp] theorem State.setChan_time (s : State) (d c : Nat) (x : DmChan) : (s.setChan d c x).time = s.time := rfl
@[simp] theorem State.setChan_fab (s : State) (d c : Nat) (x : DmChan) : (s.setChan d c x).fab = s.fab := rfl
@[simp] theorem State.setChan_cs (s : State) (d c : Nat) (x : DmChan) : (s.setChan d c x).cs = s.cs := rfl
@[simp] theorem State.setChan_count (s : State) (d c : Nat) (x : DmChan) : (s.setChan d c x).count = s.count := rfl
@[simp] theorem State.setChan_todo (s : State) (d c : Nat) (x : DmChan) : (s.setChan d c x).todo = s.todo := rfl
@[simp] theorem State.setChan_outbox (s : State) (d c : Nat) (x : DmChan) : (s.setChan d c x).outbox = s.outbox := rfl
@[simp] theorem State.setChan_draws (s : State) (d c : Nat) (x : DmChan) : (s.setChan d c x).draws = s.draws := rfl
@[simp] theorem State.setChan_pending (s : State) (d c : Nat) (x : DmChan) : (s.setChan d c x).pending = s.pending := rfl
@[simp] theorem State.setChan_rawReg (s : State) (d c : Nat) (x : DmChan) : (s.setChan d c x).rawReg = s.rawReg := rfl
@[simp] theorem State.setChan_rd (s : State) (d c : Nat) (x : DmChan) : (s.setChan d c x).rd = s.rd := rfl
@[simp] theorem State.setChan_on (s : State) (d c : Nat) (x : DmChan) : (s.setChan d c x).on = s.on := rfl
@[simp] theorem State.setChan_tile (s : State) (d c : Nat) (x : DmChan) : (s.setChan d c x).tile = s.tile := rfl

/-! ### updEth -/

@[simp] theorem State.updEth_regs (s : State) (e : Nat) (f : EthPort → EthPort) : (s.updEth e f).regs = s.regs := rfl
@[simp] theorem State.updEth_tiles (s : State) (e : Nat) (f : EthPort → EthPort) : (s.updEth e f).tiles = s.tiles := rfl
@[simp] theorem State.updEth_mem (s : State) (e : Nat) (f : EthPort → EthPort) : (s.updEth e f).mem = s.mem := rfl
@[simp] theorem State.updEth_memPoison (s : State) (e : Nat) (f : EthPort → EthPort) : (s.updEth e f).memPoison = s.memPoison := rfl
@[simp] theorem State.updEth_plateQuota (s : State) (e : Nat) (f : EthPort → EthPort) : (s.updEth e f).plateQuota = s.plateQuota := rfl
@[simp] theorem State.updEth_faults (s : State) (e : Nat) (f : EthPort → EthPort) : (s.updEth e f).faults = s.faults := rfl
@[simp] theorem State.updEth_stylus (s : State) (e : Nat) (f : EthPort → EthPort) : (s.updEth e f).stylus = s.stylus := rfl
@[simp] theorem State.updEth_dm (s : State) (e : Nat) (f : EthPort → EthPort) : (s.updEth e f).dm = s.dm := rfl
@[simp] theorem State.updEth_bp (s : State) (e : Nat) (f : EthPort → EthPort) : (s.updEth e f).bp = s.bp := rfl
@[simp] theorem State.updEth_memc (s : State) (e : Nat) (f : EthPort → EthPort) : (s.updEth e f).memc = s.memc := rfl
@[simp] theorem State.updEth_i3c (s : State) (e : Nat) (f : EthPort → EthPort) : (s.updEth e f).i3c = s.i3c := rfl
@[simp] theorem State.updEth_sec (s : State) (e : Nat) (f : EthPort → EthPort) : (s.updEth e f).sec = s.sec := rfl
@[simp] theorem State.updEth_sys (s : State) (e : Nat) (f : EthPort → EthPort) : (s.updEth e f).sys = s.sys := rfl
@[simp] theorem State.updEth_time (s : State) (e : Nat) (f : EthPort → EthPort) : (s.updEth e f).time = s.time := rfl
@[simp] theorem State.updEth_cs (s : State) (e : Nat) (f : EthPort → EthPort) : (s.updEth e f).cs = s.cs := rfl
@[simp] theorem State.updEth_count (s : State) (e : Nat) (f : EthPort → EthPort) : (s.updEth e f).count = s.count := rfl
@[simp] theorem State.updEth_todo (s : State) (e : Nat) (f : EthPort → EthPort) : (s.updEth e f).todo = s.todo := rfl
@[simp] theorem State.updEth_outbox (s : State) (e : Nat) (f : EthPort → EthPort) : (s.updEth e f).outbox = s.outbox := rfl
@[simp] theorem State.updEth_draws (s : State) (e : Nat) (f : EthPort → EthPort) : (s.updEth e f).draws = s.draws := rfl
@[simp] theorem State.updEth_pending (s : State) (e : Nat) (f : EthPort → EthPort) : (s.updEth e f).pending = s.pending := rfl
@[simp] theorem State.updEth_rawReg (s : State) (e : Nat) (f : EthPort → EthPort) : (s.updEth e f).rawReg = s.rawReg := rfl
@[simp] theorem State.updEth_rd (s : State) (e : Nat) (f : EthPort → EthPort) : (s.updEth e f).rd = s.rd := rfl
@[simp] theorem State.updEth_on (s : State) (e : Nat) (f : EthPort → EthPort) : (s.updEth e f).on = s.on := rfl
@[simp] theorem State.updEth_tile (s : State) (e : Nat) (f : EthPort → EthPort) : (s.updEth e f).tile = s.tile := rfl

/-! ### updTm -/

@[simp] theorem State.updTm_regs (s : State) (t : Nat) (f : TmTile → TmTile) : (s.updTm t f).regs = s.regs := rfl
@[simp] theorem State.updTm_tiles (s : State) (t : Nat) (f : TmTile → TmTile) : (s.updTm t f).tiles = s.tiles := rfl
@[simp] theorem State.updTm_mem (s : State) (t : Nat) (f : TmTile → TmTile) : (s.updTm t f).mem = s.mem := rfl
@[simp] theorem State.updTm_memPoison (s : State) (t : Nat) (f : TmTile → TmTile) : (s.updTm t f).memPoison = s.memPoison := rfl
@[simp] theorem State.updTm_plateQuota (s : State) (t : Nat) (f : TmTile → TmTile) : (s.updTm t f).plateQuota = s.plateQuota := rfl
@[simp] theorem State.updTm_faults (s : State) (t : Nat) (f : TmTile → TmTile) : (s.updTm t f).faults = s.faults := rfl
@[simp] theorem State.updTm_stylus (s : State) (t : Nat) (f : TmTile → TmTile) : (s.updTm t f).stylus = s.stylus := rfl
@[simp] theorem State.updTm_dm (s : State) (t : Nat) (f : TmTile → TmTile) : (s.updTm t f).dm = s.dm := rfl
@[simp] theorem State.updTm_bp (s : State) (t : Nat) (f : TmTile → TmTile) : (s.updTm t f).bp = s.bp := rfl
@[simp] theorem State.updTm_memc (s : State) (t : Nat) (f : TmTile → TmTile) : (s.updTm t f).memc = s.memc := rfl
@[simp] theorem State.updTm_i3c (s : State) (t : Nat) (f : TmTile → TmTile) : (s.updTm t f).i3c = s.i3c := rfl
@[simp] theorem State.updTm_sec (s : State) (t : Nat) (f : TmTile → TmTile) : (s.updTm t f).sec = s.sec := rfl
@[simp] theorem State.updTm_sys (s : State) (t : Nat) (f : TmTile → TmTile) : (s.updTm t f).sys = s.sys := rfl
@[simp] theorem State.updTm_time (s : State) (t : Nat) (f : TmTile → TmTile) : (s.updTm t f).time = s.time := rfl
@[simp] theorem State.updTm_cs (s : State) (t : Nat) (f : TmTile → TmTile) : (s.updTm t f).cs = s.cs := rfl
@[simp] theorem State.updTm_count (s : State) (t : Nat) (f : TmTile → TmTile) : (s.updTm t f).count = s.count := rfl
@[simp] theorem State.updTm_todo (s : State) (t : Nat) (f : TmTile → TmTile) : (s.updTm t f).todo = s.todo := rfl
@[simp] theorem State.updTm_outbox (s : State) (t : Nat) (f : TmTile → TmTile) : (s.updTm t f).outbox = s.outbox := rfl
@[simp] theorem State.updTm_draws (s : State) (t : Nat) (f : TmTile → TmTile) : (s.updTm t f).draws = s.draws := rfl
@[simp] theorem State.updTm_pending (s : State) (t : Nat) (f : TmTile → TmTile) : (s.updTm t f).pending = s.pending := rfl
@[simp] theorem State.updTm_rawReg (s : State) (t : Nat) (f : TmTile → TmTile) : (s.updTm t f).rawReg = s.rawReg := rfl
@[simp] theorem State.updTm_rd (s : State) (t : Nat) (f : TmTile → TmTile) : (s.updTm t f).rd = s.rd := rfl
@[simp] theorem State.updTm_on (s : State) (t : Nat) (f : TmTile → TmTile) : (s.updTm t f).on = s.on := rfl
@[simp] theorem State.updTm_tile (s : State) (t : Nat) (f : TmTile → TmTile) : (s.updTm t f).tile = s.tile := rfl

/-! ### setWaiting -/

@[simp] theorem State.setWaiting_regs (s : State) (i : Nat) (l : List WaitPkt) : (s.setWaiting i l).regs = s.regs := rfl
@[simp] theorem State.setWaiting_tiles (s : State) (i : Nat) (l : List WaitPkt) : (s.setWaiting i l).tiles = s.tiles := rfl
@[simp] theorem State.setWaiting_mem (s : State) (i : Nat) (l : List WaitPkt) : (s.setWaiting i l).mem = s.mem := rfl
@[simp] theorem State.setWaiting_memPoison (s : State) (i : Nat) (l : List WaitPkt) : (s.setWaiting i l).memPoison = s.memPoison := rfl
@[simp] theorem State.setWaiting_plateQuota (s : State) (i : Nat) (l : List WaitPkt) : (s.setWaiting i l).plateQuota = s.plateQuota := rfl
@[simp] theorem State.setWaiting_faults (s : State) (i : Nat) (l : List WaitPkt) : (s.setWaiting i l).faults = s.faults := rfl
@[simp] theorem State.setWaiting_stylus (s : State) (i : Nat) (l : List WaitPkt) : (s.setWaiting i l).stylus = s.stylus := rfl
@[simp] theorem State.setWaiting_dm (s : State) (i : Nat) (l : List WaitPkt) : (s.setWaiting i l).dm = s.dm := rfl
@[simp] theorem State.setWaiting_bp (s : State) (i : Nat) (l : List WaitPkt) : (s.setWaiting i l).bp = s.bp := rfl
@[simp] theorem State.setWaiting_memc (s : State) (i : Nat) (l : List WaitPkt) : (s.setWaiting i l).memc = s.memc := rfl
@[simp] theorem State.setWaiting_i3c (s : State) (i : Nat) (l : List WaitPkt) : (s.setWaiting i l).i3c = s.i3c := rfl
@[simp] theorem State.setWaiting_sec (s : State) (i : Nat) (l : List WaitPkt) : (s.setWaiting i l).sec = s.sec := rfl
@[simp] theorem State.setWaiting_sys (s : State) (i : Nat) (l : List WaitPkt) : (s.setWaiting i l).sys = s.sys := rfl
@[simp] theorem State.setWaiting_time (s : State) (i : Nat) (l : List WaitPkt) : (s.setWaiting i l).time = s.time := rfl
@[simp] theorem State.setWaiting_cs (s : State) (i : Nat) (l : List WaitPkt) : (s.setWaiting i l).cs = s.cs := rfl
@[simp] theorem State.setWaiting_count (s : State) (i : Nat) (l : List WaitPkt) : (s.setWaiting i l).count = s.count := rfl
@[simp] theorem State.setWaiting_todo (s : State) (i : Nat) (l : List WaitPkt) : (s.setWaiting i l).todo = s.todo := rfl
@[simp] theorem State.setWaiting_outbox (s : State) (i : Nat) (l : List WaitPkt) : (s.setWaiting i l).outbox = s.outbox := rfl
@[simp] theorem State.setWaiting_draws (s : State) (i : Nat) (l : List WaitPkt) : (s.setWaiting i l).draws = s.draws := rfl
@[simp] theorem State.setWaiting_pending (s : State) (i : Nat) (l : List WaitPkt) : (s.setWaiting i l).pending = s.pending := rfl
@[simp] theorem State.setWaiting_rawReg (s : State) (i : Nat) (l : List WaitPkt) : (s.setWaiting i l).rawReg = s.rawReg := rfl
@[simp] theorem State.setWaiting_rd (s : State) (i : Nat) (l : List WaitPkt) : (s.setWaiting i l).rd = s.rd := rfl
@[simp] theorem State.setWaiting_on (s : State) (i : Nat) (l : List WaitPkt) : (s.setWaiting i l).on = s.on := rfl
@[simp] theorem State.setWaiting_tile (s : State) (i : Nat) (l : List WaitPkt) : (s.setWaiting i l).tile = s.tile := rfl

/-! ### markRws -/

@[simp] theorem State.markRws_regs (s : State) (m : RwsMark) : (s.markRws m).regs = s.regs := rfl
@[simp] theorem State.markRws_tiles (s : State) (m : RwsMark) : (s.markRws m).tiles = s.tiles := rfl
@[simp] theorem State.markRws_mem (s : State) (m : RwsMark) : (s.markRws m).mem = s.mem := rfl
@[simp] theorem State.markRws_memPoison (s : State) (m : RwsMark) : (s.markRws m).memPoison = s.memPoison := rfl
@[simp] theorem State.markRws_plateQuota (s : State) (m : RwsMark) : (s.markRws m).plateQuota = s.plateQuota := rfl
@[simp] theorem State.markRws_stylus (s : State) (m : RwsMark) : (s.markRws m).stylus = s.stylus := rfl
@[simp] theorem State.markRws_dm (s : State) (m : RwsMark) : (s.markRws m).dm = s.dm := rfl
@[simp] theorem State.markRws_bp (s : State) (m : RwsMark) : (s.markRws m).bp = s.bp := rfl
@[simp] theorem State.markRws_memc (s : State) (m : RwsMark) : (s.markRws m).memc = s.memc := rfl
@[simp] theorem State.markRws_i3c (s : State) (m : RwsMark) : (s.markRws m).i3c = s.i3c := rfl
@[simp] theorem State.markRws_sec (s : State) (m : RwsMark) : (s.markRws m).sec = s.sec := rfl
@[simp] theorem State.markRws_sys (s : State) (m : RwsMark) : (s.markRws m).sys = s.sys := rfl
@[simp] theorem State.markRws_time (s : State) (m : RwsMark) : (s.markRws m).time = s.time := rfl
@[simp] theorem State.markRws_fab (s : State) (m : RwsMark) : (s.markRws m).fab = s.fab := rfl
@[simp] theorem State.markRws_cs (s : State) (m : RwsMark) : (s.markRws m).cs = s.cs := rfl
@[simp] theorem State.markRws_count (s : State) (m : RwsMark) : (s.markRws m).count = s.count := rfl
@[simp] theorem State.markRws_todo (s : State) (m : RwsMark) : (s.markRws m).todo = s.todo := rfl
@[simp] theorem State.markRws_outbox (s : State) (m : RwsMark) : (s.markRws m).outbox = s.outbox := rfl
@[simp] theorem State.markRws_draws (s : State) (m : RwsMark) : (s.markRws m).draws = s.draws := rfl
@[simp] theorem State.markRws_pending (s : State) (m : RwsMark) : (s.markRws m).pending = s.pending := rfl
@[simp] theorem State.markRws_rawReg (s : State) (m : RwsMark) : (s.markRws m).rawReg = s.rawReg := rfl
@[simp] theorem State.markRws_rd (s : State) (m : RwsMark) : (s.markRws m).rd = s.rd := rfl
@[simp] theorem State.markRws_on (s : State) (m : RwsMark) : (s.markRws m).on = s.on := rfl
@[simp] theorem State.markRws_tile (s : State) (m : RwsMark) : (s.markRws m).tile = s.tile := rfl

/-! ### disown -/

@[simp] theorem State.disown_regs (s : State) (p : Nat → Bool) : (s.disown p).regs = s.regs := rfl
@[simp] theorem State.disown_tiles (s : State) (p : Nat → Bool) : (s.disown p).tiles = s.tiles := rfl
@[simp] theorem State.disown_mem (s : State) (p : Nat → Bool) : (s.disown p).mem = s.mem := rfl
@[simp] theorem State.disown_memPoison (s : State) (p : Nat → Bool) : (s.disown p).memPoison = s.memPoison := rfl
@[simp] theorem State.disown_plateQuota (s : State) (p : Nat → Bool) : (s.disown p).plateQuota = s.plateQuota := rfl
@[simp] theorem State.disown_faults (s : State) (p : Nat → Bool) : (s.disown p).faults = s.faults := rfl
@[simp] theorem State.disown_dm (s : State) (p : Nat → Bool) : (s.disown p).dm = s.dm := rfl
@[simp] theorem State.disown_bp (s : State) (p : Nat → Bool) : (s.disown p).bp = s.bp := rfl
@[simp] theorem State.disown_memc (s : State) (p : Nat → Bool) : (s.disown p).memc = s.memc := rfl
@[simp] theorem State.disown_i3c (s : State) (p : Nat → Bool) : (s.disown p).i3c = s.i3c := rfl
@[simp] theorem State.disown_sec (s : State) (p : Nat → Bool) : (s.disown p).sec = s.sec := rfl
@[simp] theorem State.disown_sys (s : State) (p : Nat → Bool) : (s.disown p).sys = s.sys := rfl
@[simp] theorem State.disown_time (s : State) (p : Nat → Bool) : (s.disown p).time = s.time := rfl
@[simp] theorem State.disown_count (s : State) (p : Nat → Bool) : (s.disown p).count = s.count := rfl
@[simp] theorem State.disown_todo (s : State) (p : Nat → Bool) : (s.disown p).todo = s.todo := rfl
@[simp] theorem State.disown_outbox (s : State) (p : Nat → Bool) : (s.disown p).outbox = s.outbox := rfl
@[simp] theorem State.disown_draws (s : State) (p : Nat → Bool) : (s.disown p).draws = s.draws := rfl
@[simp] theorem State.disown_pending (s : State) (p : Nat → Bool) : (s.disown p).pending = s.pending := rfl
@[simp] theorem State.disown_rawReg (s : State) (p : Nat → Bool) : (s.disown p).rawReg = s.rawReg := rfl
@[simp] theorem State.disown_rd (s : State) (p : Nat → Bool) : (s.disown p).rd = s.rd := rfl
@[simp] theorem State.disown_on (s : State) (p : Nat → Bool) : (s.disown p).on = s.on := rfl
@[simp] theorem State.disown_tile (s : State) (p : Nat → Bool) : (s.disown p).tile = s.tile := rfl

/-! ### i3cSet -/

@[simp] theorem State.i3cSet_regs (s : State) (f : I3cSt → I3cSt) : (s.i3cSet f).regs = s.regs := rfl
@[simp] theorem State.i3cSet_tiles (s : State) (f : I3cSt → I3cSt) : (s.i3cSet f).tiles = s.tiles := rfl
@[simp] theorem State.i3cSet_mem (s : State) (f : I3cSt → I3cSt) : (s.i3cSet f).mem = s.mem := rfl
@[simp] theorem State.i3cSet_memPoison (s : State) (f : I3cSt → I3cSt) : (s.i3cSet f).memPoison = s.memPoison := rfl
@[simp] theorem State.i3cSet_plateQuota (s : State) (f : I3cSt → I3cSt) : (s.i3cSet f).plateQuota = s.plateQuota := rfl
@[simp] theorem State.i3cSet_faults (s : State) (f : I3cSt → I3cSt) : (s.i3cSet f).faults = s.faults := rfl
@[simp] theorem State.i3cSet_stylus (s : State) (f : I3cSt → I3cSt) : (s.i3cSet f).stylus = s.stylus := rfl
@[simp] theorem State.i3cSet_dm (s : State) (f : I3cSt → I3cSt) : (s.i3cSet f).dm = s.dm := rfl
@[simp] theorem State.i3cSet_bp (s : State) (f : I3cSt → I3cSt) : (s.i3cSet f).bp = s.bp := rfl
@[simp] theorem State.i3cSet_memc (s : State) (f : I3cSt → I3cSt) : (s.i3cSet f).memc = s.memc := rfl
@[simp] theorem State.i3cSet_sec (s : State) (f : I3cSt → I3cSt) : (s.i3cSet f).sec = s.sec := rfl
@[simp] theorem State.i3cSet_sys (s : State) (f : I3cSt → I3cSt) : (s.i3cSet f).sys = s.sys := rfl
@[simp] theorem State.i3cSet_time (s : State) (f : I3cSt → I3cSt) : (s.i3cSet f).time = s.time := rfl
@[simp] theorem State.i3cSet_fab (s : State) (f : I3cSt → I3cSt) : (s.i3cSet f).fab = s.fab := rfl
@[simp] theorem State.i3cSet_cs (s : State) (f : I3cSt → I3cSt) : (s.i3cSet f).cs = s.cs := rfl
@[simp] theorem State.i3cSet_count (s : State) (f : I3cSt → I3cSt) : (s.i3cSet f).count = s.count := rfl
@[simp] theorem State.i3cSet_todo (s : State) (f : I3cSt → I3cSt) : (s.i3cSet f).todo = s.todo := rfl
@[simp] theorem State.i3cSet_outbox (s : State) (f : I3cSt → I3cSt) : (s.i3cSet f).outbox = s.outbox := rfl
@[simp] theorem State.i3cSet_draws (s : State) (f : I3cSt → I3cSt) : (s.i3cSet f).draws = s.draws := rfl
@[simp] theorem State.i3cSet_pending (s : State) (f : I3cSt → I3cSt) : (s.i3cSet f).pending = s.pending := rfl
@[simp] theorem State.i3cSet_rawReg (s : State) (f : I3cSt → I3cSt) : (s.i3cSet f).rawReg = s.rawReg := rfl
@[simp] theorem State.i3cSet_rd (s : State) (f : I3cSt → I3cSt) : (s.i3cSet f).rd = s.rd := rfl
@[simp] theorem State.i3cSet_on (s : State) (f : I3cSt → I3cSt) : (s.i3cSet f).on = s.on := rfl
@[simp] theorem State.i3cSet_tile (s : State) (f : I3cSt → I3cSt) : (s.i3cSet f).tile = s.tile := rfl

/-! ### writeMem -/

@[simp] theorem State.writeMem_regs (s : State) (a : Nat) (bs : List Byte) : (s.writeMem a bs).regs = s.regs := rfl
@[simp] theorem State.writeMem_tiles (s : State) (a : Nat) (bs : List Byte) : (s.writeMem a bs).tiles = s.tiles := rfl
@[simp] theorem State.writeMem_plateQuota (s : State) (a : Nat) (bs : List Byte) : (s.writeMem a bs).plateQuota = s.plateQuota := rfl
@[simp] theorem State.writeMem_faults (s : State) (a : Nat) (bs : List Byte) : (s.writeMem a bs).faults = s.faults := rfl
@[simp] theorem State.writeMem_stylus (s : State) (a : Nat) (bs : List Byte) : (s.writeMem a bs).stylus = s.stylus := rfl
@[simp] theorem State.writeMem_dm (s : State) (a : Nat) (bs : List Byte) : (s.writeMem a bs).dm = s.dm := rfl
@[simp] theorem State.writeMem_bp (s : State) (a : Nat) (bs : List Byte) : (s.writeMem a bs).bp = s.bp := rfl
@[simp] theorem State.writeMem_memc (s : State) (a : Nat) (bs : List Byte) : (s.writeMem a bs).memc = s.memc := rfl
@[simp] theorem State.writeMem_i3c (s : State) (a : Nat) (bs : List Byte) : (s.writeMem a bs).i3c = s.i3c := rfl
@[simp] theorem State.writeMem_sec (s : State) (a : Nat) (bs : List Byte) : (s.writeMem a bs).sec = s.sec := rfl
@[simp] theorem State.writeMem_sys (s : State) (a : Nat) (bs : List Byte) : (s.writeMem a bs).sys = s.sys := rfl
@[simp] theorem State.writeMem_time (s : State) (a : Nat) (bs : List Byte) : (s.writeMem a bs).time = s.time := rfl
@[simp] theorem State.writeMem_fab (s : State) (a : Nat) (bs : List Byte) : (s.writeMem a bs).fab = s.fab := rfl
@[simp] theorem State.writeMem_cs (s : State) (a : Nat) (bs : List Byte) : (s.writeMem a bs).cs = s.cs := rfl
@[simp] theorem State.writeMem_count (s : State) (a : Nat) (bs : List Byte) : (s.writeMem a bs).count = s.count := rfl
@[simp] theorem State.writeMem_todo (s : State) (a : Nat) (bs : List Byte) : (s.writeMem a bs).todo = s.todo := rfl
@[simp] theorem State.writeMem_outbox (s : State) (a : Nat) (bs : List Byte) : (s.writeMem a bs).outbox = s.outbox := rfl
@[simp] theorem State.writeMem_draws (s : State) (a : Nat) (bs : List Byte) : (s.writeMem a bs).draws = s.draws := rfl
@[simp] theorem State.writeMem_pending (s : State) (a : Nat) (bs : List Byte) : (s.writeMem a bs).pending = s.pending := rfl
@[simp] theorem State.writeMem_rawReg (s : State) (a : Nat) (bs : List Byte) : (s.writeMem a bs).rawReg = s.rawReg := rfl
@[simp] theorem State.writeMem_rd (s : State) (a : Nat) (bs : List Byte) : (s.writeMem a bs).rd = s.rd := rfl
@[simp] theorem State.writeMem_on (s : State) (a : Nat) (bs : List Byte) : (s.writeMem a bs).on = s.on := rfl
@[simp] theorem State.writeMem_tile (s : State) (a : Nat) (bs : List Byte) : (s.writeMem a bs).tile = s.tile := rfl

/-! ### writePoison -/

@[simp] theorem State.writePoison_regs (s : State) (a n : Nat) : (s.writePoison a n).regs = s.regs := rfl
@[simp] theorem State.writePoison_tiles (s : State) (a n : Nat) : (s.writePoison a n).tiles = s.tiles := rfl
@[simp] theorem State.writePoison_mem (s : State) (a n : Nat) : (s.writePoison a n).mem = s.mem := rfl
@[simp] theorem State.writePoison_plateQuota (s : State) (a n : Nat) : (s.writePoison a n).plateQuota = s.plateQuota := rfl
@[simp] theorem State.writePoison_faults (s : State) (a n : Nat) : (s.writePoison a n).faults = s.faults := rfl
@[simp] theorem State.writePoison_stylus (s : State) (a n : Nat) : (s.writePoison a n).stylus = s.stylus := rfl
@[simp] theorem State.writePoison_dm (s : State) (a n : Nat) : (s.writePoison a n).dm = s.dm := rfl
@[simp] theorem State.writePoison_bp (s : State) (a n : Nat) : (s.writePoison a n).bp = s.bp := rfl
@[simp] theorem State.writePoison_memc (s : State) (a n : Nat) : (s.writePoison a n).memc = s.memc := rfl
@[simp] theorem State.writePoison_i3c (s : State) (a n : Nat) : (s.writePoison a n).i3c = s.i3c := rfl
@[simp] theorem State.writePoison_sec (s : State) (a n : Nat) : (s.writePoison a n).sec = s.sec := rfl
@[simp] theorem State.writePoison_sys (s : State) (a n : Nat) : (s.writePoison a n).sys = s.sys := rfl
@[simp] theorem State.writePoison_time (s : State) (a n : Nat) : (s.writePoison a n).time = s.time := rfl
@[simp] theorem State.writePoison_fab (s : State) (a n : Nat) : (s.writePoison a n).fab = s.fab := rfl
@[simp] theorem State.writePoison_cs (s : State) (a n : Nat) : (s.writePoison a n).cs = s.cs := rfl
@[simp] theorem State.writePoison_count (s : State) (a n : Nat) : (s.writePoison a n).count = s.count := rfl
@[simp] theorem State.writePoison_todo (s : State) (a n : Nat) : (s.writePoison a n).todo = s.todo := rfl
@[simp] theorem State.writePoison_outbox (s : State) (a n : Nat) : (s.writePoison a n).outbox = s.outbox := rfl
@[simp] theorem State.writePoison_draws (s : State) (a n : Nat) : (s.writePoison a n).draws = s.draws := rfl
@[simp] theorem State.writePoison_pending (s : State) (a n : Nat) : (s.writePoison a n).pending = s.pending := rfl
@[simp] theorem State.writePoison_rawReg (s : State) (a n : Nat) : (s.writePoison a n).rawReg = s.rawReg := rfl
@[simp] theorem State.writePoison_rd (s : State) (a n : Nat) : (s.writePoison a n).rd = s.rd := rfl
@[simp] theorem State.writePoison_on (s : State) (a n : Nat) : (s.writePoison a n).on = s.on := rfl
@[simp] theorem State.writePoison_tile (s : State) (a n : Nat) : (s.writePoison a n).tile = s.tile := rfl

/-! ### zeroMem -/

@[simp] theorem State.zeroMem_regs (s : State) (a n : Nat) : (s.zeroMem a n).regs = s.regs := rfl
@[simp] theorem State.zeroMem_tiles (s : State) (a n : Nat) : (s.zeroMem a n).tiles = s.tiles := rfl
@[simp] theorem State.zeroMem_plateQuota (s : State) (a n : Nat) : (s.zeroMem a n).plateQuota = s.plateQuota := rfl
@[simp] theorem State.zeroMem_faults (s : State) (a n : Nat) : (s.zeroMem a n).faults = s.faults := rfl
@[simp] theorem State.zeroMem_stylus (s : State) (a n : Nat) : (s.zeroMem a n).stylus = s.stylus := rfl
@[simp] theorem State.zeroMem_dm (s : State) (a n : Nat) : (s.zeroMem a n).dm = s.dm := rfl
@[simp] theorem State.zeroMem_bp (s : State) (a n : Nat) : (s.zeroMem a n).bp = s.bp := rfl
@[simp] theorem State.zeroMem_memc (s : State) (a n : Nat) : (s.zeroMem a n).memc = s.memc := rfl
@[simp] theorem State.zeroMem_i3c (s : State) (a n : Nat) : (s.zeroMem a n).i3c = s.i3c := rfl
@[simp] theorem State.zeroMem_sec (s : State) (a n : Nat) : (s.zeroMem a n).sec = s.sec := rfl
@[simp] theorem State.zeroMem_sys (s : State) (a n : Nat) : (s.zeroMem a n).sys = s.sys := rfl
@[simp] theorem State.zeroMem_time (s : State) (a n : Nat) : (s.zeroMem a n).time = s.time := rfl
@[simp] theorem State.zeroMem_fab (s : State) (a n : Nat) : (s.zeroMem a n).fab = s.fab := rfl
@[simp] theorem State.zeroMem_cs (s : State) (a n : Nat) : (s.zeroMem a n).cs = s.cs := rfl
@[simp] theorem State.zeroMem_count (s : State) (a n : Nat) : (s.zeroMem a n).count = s.count := rfl
@[simp] theorem State.zeroMem_todo (s : State) (a n : Nat) : (s.zeroMem a n).todo = s.todo := rfl
@[simp] theorem State.zeroMem_outbox (s : State) (a n : Nat) : (s.zeroMem a n).outbox = s.outbox := rfl
@[simp] theorem State.zeroMem_draws (s : State) (a n : Nat) : (s.zeroMem a n).draws = s.draws := rfl
@[simp] theorem State.zeroMem_pending (s : State) (a n : Nat) : (s.zeroMem a n).pending = s.pending := rfl
@[simp] theorem State.zeroMem_rawReg (s : State) (a n : Nat) : (s.zeroMem a n).rawReg = s.rawReg := rfl
@[simp] theorem State.zeroMem_rd (s : State) (a n : Nat) : (s.zeroMem a n).rd = s.rd := rfl
@[simp] theorem State.zeroMem_on (s : State) (a n : Nat) : (s.zeroMem a n).on = s.on := rfl
@[simp] theorem State.zeroMem_tile (s : State) (a n : Nat) : (s.zeroMem a n).tile = s.tile := rfl

/-! ### Registers after a write -/

/-- A register's stored value after another, or the same, was replaced. -/
theorem State.rawReg_setRaw (s : State) (r : RegName) (idx : List Nat) (n : Nat) (r' : RegName) (idx' : List Nat) :
    (s.setRaw r idx n).rawReg r' idx' =
      if regAddr r' idx' = regAddr r idx then n % 2 ^ 64 else s.rawReg r' idx' := by
  simp only [State.rawReg, State.setRaw, Tbl.find_put]
  by_cases h : regAddr r' idx' = regAddr r idx
  · simp [h, BitVec.toNat_ofNat]
  · simp [h]

@[simp] theorem State.rawReg_setRaw_same (s : State) (r : RegName) (idx : List Nat) (n : Nat) :
    (s.setRaw r idx n).rawReg r idx = n % 2 ^ 64 := by simp [State.rawReg_setRaw]

/-- A register at another address keeps its value. -/
theorem State.rawReg_setRaw_ne (s : State) {r r' : RegName} {idx idx' : List Nat} (n : Nat)
    (h : regAddr r' idx' ≠ regAddr r idx) : (s.setRaw r idx n).rawReg r' idx' = s.rawReg r' idx' := by
  simp [State.rawReg_setRaw, h]

/-- A register at another address keeps its value when a field is set. -/
theorem State.rawReg_wr_ne (s : State) (f : Fld) {r' : RegName} {idx idx' : List Nat} (v : Nat)
    (h : regAddr r' idx' ≠ regAddr f.reg idx) : (s.wr f idx v).rawReg r' idx' = s.rawReg r' idx' :=
  State.rawReg_setRaw_ne s _ h

/-- A field that was set reads back, cut to its width. -/
theorem State.rd_wr_same (s : State) (f : Fld) (idx : List Nat) (v : Nat) (h : f.lo + f.width ≤ 64) :
    (s.wr f idx v).rd f idx = v % 2 ^ f.width := by
  simp only [State.rd, State.wr, State.rawReg_setRaw_same, fieldOf_mod _ _ _ 64 h, fieldOf_setFieldOf_same]

/-- A field of a register at another address keeps its value. -/
theorem State.rd_wr_ne (s : State) (f g : Fld) (idx idx' : List Nat) (v : Nat)
    (h : regAddr g.reg idx' ≠ regAddr f.reg idx) : (s.wr f idx v).rd g idx' = s.rd g idx' := by
  simp only [State.rd, State.rawReg_wr_ne s f v h]

/-- Another field of the same register keeps its value. -/
theorem State.rd_wr_disjoint (s : State) (f g : Fld) (idx : List Nat) (v : Nat) (hr : g.reg = f.reg)
    (h64 : g.lo + g.width ≤ 64) (h : g.lo + g.width ≤ f.lo ∨ f.lo + f.width ≤ g.lo) :
    (s.wr f idx v).rd g idx = s.rd g idx := by
  simp only [State.rd, State.wr, hr, State.rawReg_setRaw_same, fieldOf_mod _ _ _ 64 h64]
  exact fieldOf_setFieldOf_ne _ _ _ _ _ _ h

/-! ### Tiles after a write -/

/-- A tile's working state after a tile's was changed. -/
theorem State.tile_updTile (s : State) (t k : Nat) (f : Tile → Tile) :
    (s.updTile t f).tile k = if k = t then f (s.tile t) else s.tile k := by
  simp only [State.tile, State.updTile, Tbl.look_upd]

@[simp] theorem State.tile_updTile_same (s : State) (t : Nat) (f : Tile → Tile) :
    (s.updTile t f).tile t = f (s.tile t) := by simp [State.tile_updTile]

@[simp] theorem State.tile_tileStep_same (s : State) (t : Nat) (f : Tile → Tile) :
    (s.tileStep t f).tile t = (f (s.tile t)).settle := by simp [State.tileStep]

/-- Another tile keeps its working state. -/
theorem State.tile_tileStep_ne (s : State) {t k : Nat} (f : Tile → Tile) (h : k ≠ t) :
    (s.tileStep t f).tile k = s.tile k := by simp [State.tileStep, State.tile_updTile, h]

end Sys2Proof.Machine
end

