-- ==== Sys2Proof/Laws/Step.lean ====
section
/-! SUPPORT. What a command does beside its own effect: what it owes, the queue, and the guards. -/
namespace Sys2Proof.Machine

/-- With nothing owed there is nothing to carry out. -/
theorem State.carryAll_nil (s : State) (h : s.todo = []) (n : Nat) : s.carryAll n = s := by
  cases n with
  | zero => rfl
  | succ n => simp only [State.carryAll, h]

/-- With nothing owed there is nothing to settle. -/
theorem State.settle_nil (s : State) (h : s.todo = []) : s.settle = s := State.carryAll_nil s h carryLimit

/-- A command whose own effect owes nothing leaves that effect. -/
theorem State.after_nil (s u : State) (h : u.todo = []) : s.after u = { u with pending := s.pending } := by
  simp only [State.after, State.settle_nil u h]

theorem act_eq (s : State) (f : State → State) : act s f = .next (s.after (f s)) := rfl

/-- A command whose own effect owes nothing and leaves the queue alone. -/
theorem act_next (s : State) (f : State → State) (h : (f s).todo = []) (hp : (f s).pending = s.pending) :
    act s f = .next (f s) := by
  rw [act_eq, State.after_nil _ _ h, ← hp]

/-- A live device performs the command. -/
theorem actLive_eq (s : State) (f : State → State) (h : s.live = true) : actLive s f = .next (s.after (f s)) := by
  simp only [actLive, act_eq, h, if_true]

theorem actLive_next (s : State) (f : State → State) (h : s.live = true) (ht : (f s).todo = [])
    (hp : (f s).pending = s.pending) : actLive s f = .next (f s) := by
  rw [actLive_eq s f h, State.after_nil _ _ ht, ← hp]

/-- A device that is off or in cold reset performs none. -/
theorem actLive_dead (s : State) (f : State → State) (h : s.live = false) (ht : s.todo = []) : actLive s f = .next s := by
  simp only [actLive, act_eq, h, Bool.false_eq_true, if_false, State.after_nil _ _ ht]

theorem actPowered_next (s : State) (f : State → State) (h : s.sys.power = true) (ht : (f s).todo = [])
    (hp : (f s).pending = s.pending) : actPowered s f = .next (f s) := by
  simp only [actPowered, act_eq, h, if_true]
  rw [State.after_nil _ _ ht, ← hp]

/-- A command of a tile that is awake. -/
theorem actTile_eq (s : State) (t : Nat) (f : State → State) (h : s.tileReady t) :
    actTile s t f = .next (s.after (f s)) := by
  simp only [actTile, actLive_eq s _ h.1.1, h.2, if_true]

theorem actTile_next (s : State) (t : Nat) (f : State → State) (h : s.tileReady t) (ht : (f s).todo = [])
    (hp : (f s).pending = s.pending) : actTile s t f = .next (f s) := by
  rw [actTile_eq s t f h, State.after_nil _ _ ht, ← hp]

/-- An instruction that passes its checks is performed. -/
theorem State.issue_go (s : State) (t n cls opc : Nat) (w : BitVec 119) (go : State → State)
    (h : s.issueCheck t n cls opc w = .go) : s.issue t n cls opc w go = go s := by
  simp only [State.issue, h]

end Sys2Proof.Machine
end

