-- ==== Sys2Proof/Laws/Tile.lean ====
section
/-! SUPPORT. What a tile's settling can do: it wakes, drains and frees threads and retires completed tickets; a thread that
is ready, a ticket without result, and everything else of the tile stay as they are. -/
namespace Sys2Proof.Machine

/-! ### Threads -/

/-- A thread after a thread was replaced. -/
theorem Tile.thread_setThread (tl : Tile) (n k : Nat) (th : Thread) :
    (tl.setThread n th).thread k =
      if k = n then (if th.st = .free then Thread.fresh else th) else tl.thread k := by
  simp only [Tile.thread, Tile.setThread]
  by_cases hf : th.st = .free
  · simp only [hf, if_true, Tbl.look_del]
  · simp only [hf, if_false, Tbl.look_put]

theorem Tile.thread_setThread_ne (tl : Tile) {n k : Nat} (th : Thread) (h : k ≠ n) :
    (tl.setThread n th).thread k = tl.thread k := by simp [Tile.thread_setThread, h]

theorem Tile.thread_setThread_same (tl : Tile) {n : Nat} {th : Thread} (h : th.st ≠ .free) :
    (tl.setThread n th).thread n = th := by simp [Tile.thread_setThread, h]

@[simp] theorem Tile.setThread_ticket (tl : Tile) (n e : Nat) (th : Thread) :
    (tl.setThread n th).ticket e = tl.ticket e := rfl

@[simp] theorem Tile.setThread_slot (tl : Tile) (n k : Nat) (th : Thread) : (tl.setThread n th).slot k = tl.slot k := rfl

@[simp] theorem Tile.updTicket_thread (tl : Tile) (e n : Nat) (f : Ticket → Ticket) :
    (tl.updTicket e f).thread n = tl.thread n := rfl

@[simp] theorem Tile.retire_thread (tl : Tile) (e n : Nat) : (tl.retire e).thread n = tl.thread n := rfl

@[simp] theorem Tile.complete_thread (tl : Tile) (e st d n : Nat) : (tl.complete e st d).thread n = tl.thread n := by
  simp only [Tile.complete]; split <;> rfl

@[simp] theorem Tile.setSlot_thread (tl : Tile) (k n : Nat) (sl : ImageSlot) : (tl.setSlot k sl).thread n = tl.thread n := rfl

@[simp] theorem Tile.setSlot_ticket (tl : Tile) (k e : Nat) (sl : ImageSlot) : (tl.setSlot k sl).ticket e = tl.ticket e := rfl

/-- A ticket after a ticket was changed. -/
theorem Tile.ticket_updTicket (tl : Tile) (e k : Nat) (f : Ticket → Ticket) :
    (tl.updTicket e f).ticket k = if k = e then f (tl.ticket e) else tl.ticket k := by
  simp only [Tile.ticket, Tile.updTicket, Tbl.look_upd]

/-! ### What settling keeps -/

@[simp] theorem Tile.body_setThread (tl : Tile) (n : Nat) (th : Thread) : (tl.setThread n th).body = tl.body := rfl
@[simp] theorem Tile.body_updTicket (tl : Tile) (e : Nat) (f : Ticket → Ticket) : (tl.updTicket e f).body = tl.body := rfl
@[simp] theorem Tile.body_retire (tl : Tile) (e : Nat) : (tl.retire e).body = tl.body := rfl
@[simp] theorem Tile.body_setSlot (tl : Tile) (k : Nat) (sl : ImageSlot) : (tl.setSlot k sl).body = tl.body := rfl
@[simp] theorem Tile.body_complete (tl : Tile) (e st d : Nat) : (tl.complete e st d).body = tl.body := by
  simp only [Tile.complete]; split <;> rfl

@[simp] theorem Tile.body_wake (tl : Tile) (n : Nat) : (tl.wake n).body = tl.body := by
  simp only [Tile.wake]
  repeat' split
  all_goals simp

theorem Tile.body_retireAll (es : List Nat) (tl : Tile) : (es.foldl Tile.retire tl).body = tl.body := by
  induction es generalizing tl with
  | nil => rfl
  | cons e es ih => rw [List.foldl_cons, ih, Tile.body_retire]

@[simp] theorem Tile.body_drain (tl : Tile) (n : Nat) : (tl.drain n).body = tl.body := by
  simp only [Tile.drain]
  repeat' split
  all_goals simp [Tile.body_retireAll]

@[simp] theorem Tile.body_slotDone (tl : Tile) (k : Nat) : (tl.slotDone k).body = tl.body := by
  simp only [Tile.slotDone]
  split
  · simp
  · rfl

theorem Tile.body_foldl {f : Tile → Nat → Tile} (hf : ∀ tl n, (f tl n).body = tl.body) (ns : List Nat) (tl : Tile) :
    (ns.foldl f tl).body = tl.body := by
  induction ns generalizing tl with
  | nil => rfl
  | cons n ns ih => rw [List.foldl_cons, ih, hf]

/-- Settling changes threads, tickets and slots only. -/
@[simp] theorem Tile.body_settle (tl : Tile) : tl.settle.body = tl.body := by
  simp only [Tile.settle]
  rw [Tile.body_foldl Tile.body_slotDone, Tile.body_foldl Tile.body_drain, Tile.body_foldl Tile.body_wake]

/-- Tiles of one body agree in every part of it. -/
theorem Tile.parts_of_body {a b : Tile} (h : a.body = b.body) :
    a.v = b.v ∧
    a.m = b.m ∧
    a.t = b.t ∧
    a.vBad = b.vBad ∧
    a.mBad = b.mBad ∧
    a.tBad = b.tBad ∧
    a.vUc = b.vUc ∧
    a.mUc = b.mUc ∧
    a.tUc = b.tUc ∧
    a.hatchQ = b.hatchQ ∧
    a.xhQ = b.xhQ ∧
    a.memQ = b.memQ ∧
    a.hatchRun = b.hatchRun ∧
    a.xhRun = b.xhRun ∧
    a.memRun = b.memRun ∧
    a.commRun = b.commRun ∧
    a.istore = b.istore ∧
    a.imgCmd = b.imgCmd ∧
    a.nextOrd = b.nextOrd ∧
    a.scrubLine = b.scrubLine ∧
    a.handOver = b.handOver ∧
    a.testHold = b.testHold ∧
    a.stTries = b.stTries := by
  simp only [Tile.body, Tile.mk.injEq] at h
  simp only [h, and_self]

@[simp] theorem Tile.settle_v (tl : Tile) : tl.settle.v = tl.v := by simp only [Tile.parts_of_body tl.body_settle]
@[simp] theorem Tile.settle_m (tl : Tile) : tl.settle.m = tl.m := by simp only [Tile.parts_of_body tl.body_settle]
@[simp] theorem Tile.settle_t (tl : Tile) : tl.settle.t = tl.t := by simp only [Tile.parts_of_body tl.body_settle]
@[simp] theorem Tile.settle_vBad (tl : Tile) : tl.settle.vBad = tl.vBad := by simp only [Tile.parts_of_body tl.body_settle]
@[simp] theorem Tile.settle_mBad (tl : Tile) : tl.settle.mBad = tl.mBad := by simp only [Tile.parts_of_body tl.body_settle]
@[simp] theorem Tile.settle_tBad (tl : Tile) : tl.settle.tBad = tl.tBad := by simp only [Tile.parts_of_body tl.body_settle]
@[simp] theorem Tile.settle_vUc (tl : Tile) : tl.settle.vUc = tl.vUc := by simp only [Tile.parts_of_body tl.body_settle]
@[simp] theorem Tile.settle_mUc (tl : Tile) : tl.settle.mUc = tl.mUc := by simp only [Tile.parts_of_body tl.body_settle]
@[simp] theorem Tile.settle_tUc (tl : Tile) : tl.settle.tUc = tl.tUc := by simp only [Tile.parts_of_body tl.body_settle]
@[simp] theorem Tile.settle_hatchQ (tl : Tile) : tl.settle.hatchQ = tl.hatchQ := by simp only [Tile.parts_of_body tl.body_settle]
@[simp] theorem Tile.settle_xhQ (tl : Tile) : tl.settle.xhQ = tl.xhQ := by simp only [Tile.parts_of_body tl.body_settle]
@[simp] theorem Tile.settle_memQ (tl : Tile) : tl.settle.memQ = tl.memQ := by simp only [Tile.parts_of_body tl.body_settle]
@[simp] theorem Tile.settle_hatchRun (tl : Tile) : tl.settle.hatchRun = tl.hatchRun := by simp only [Tile.parts_of_body tl.body_settle]
@[simp] theorem Tile.settle_xhRun (tl : Tile) : tl.settle.xhRun = tl.xhRun := by simp only [Tile.parts_of_body tl.body_settle]
@[simp] theorem Tile.settle_memRun (tl : Tile) : tl.settle.memRun = tl.memRun := by simp only [Tile.parts_of_body tl.body_settle]
@[simp] theorem Tile.settle_commRun (tl : Tile) : tl.settle.commRun = tl.commRun := by simp only [Tile.parts_of_body tl.body_settle]
@[simp] theorem Tile.settle_istore (tl : Tile) : tl.settle.istore = tl.istore := by simp only [Tile.parts_of_body tl.body_settle]
@[simp] theorem Tile.settle_imgCmd (tl : Tile) : tl.settle.imgCmd = tl.imgCmd := by simp only [Tile.parts_of_body tl.body_settle]
@[simp] theorem Tile.settle_nextOrd (tl : Tile) : tl.settle.nextOrd = tl.nextOrd := by simp only [Tile.parts_of_body tl.body_settle]
@[simp] theorem Tile.settle_scrubLine (tl : Tile) : tl.settle.scrubLine = tl.scrubLine := by simp only [Tile.parts_of_body tl.body_settle]
@[simp] theorem Tile.settle_handOver (tl : Tile) : tl.settle.handOver = tl.handOver := by simp only [Tile.parts_of_body tl.body_settle]
@[simp] theorem Tile.settle_testHold (tl : Tile) : tl.settle.testHold = tl.testHold := by simp only [Tile.parts_of_body tl.body_settle]
@[simp] theorem Tile.settle_stTries (tl : Tile) : tl.settle.stTries = tl.stTries := by simp only [Tile.parts_of_body tl.body_settle]

theorem Tile.thread_wake_ne (tl : Tile) {n k : Nat} (h : k ≠ n) : (tl.wake n).thread k = tl.thread k := by
  simp only [Tile.wake]
  repeat' split
  all_goals simp [Tile.thread_setThread_ne _ _ h]

theorem Tile.wake_of_not_blocked (tl : Tile) {n : Nat} (h : (tl.thread n).st ≠ .blocked) : tl.wake n = tl := by
  simp [Tile.wake, h]

theorem Tile.thread_retireAll (es : List Nat) (tl : Tile) (k : Nat) : (es.foldl Tile.retire tl).thread k = tl.thread k := by
  induction es generalizing tl with
  | nil => rfl
  | cons e es ih => rw [List.foldl_cons, ih, Tile.retire_thread]

theorem Tile.thread_drain_ne (tl : Tile) {n k : Nat} (h : k ≠ n) : (tl.drain n).thread k = tl.thread k := by
  simp only [Tile.drain]
  repeat' split
  all_goals simp [Tile.thread_setThread_ne _ _ h, Tile.thread_retireAll]

theorem Tile.drain_of_not_draining (tl : Tile) {n : Nat} (h : (tl.thread n).st ≠ .draining) : tl.drain n = tl := by
  simp [Tile.drain, h]

theorem Tile.thread_slotDone (tl : Tile) (k n : Nat) : (tl.slotDone k).thread n = tl.thread n := by
  simp only [Tile.slotDone]
  split <;> rfl

theorem Tile.thread_slotsDone (ks : List Nat) (tl : Tile) (n : Nat) : (ks.foldl Tile.slotDone tl).thread n = tl.thread n := by
  induction ks generalizing tl with
  | nil => rfl
  | cons k ks ih => rw [List.foldl_cons, ih, Tile.thread_slotDone]

theorem Tile.thread_wakeAll {n : Nat} (ns : List Nat) (tl : Tile) (h : (tl.thread n).st ≠ .blocked) :
    (ns.foldl Tile.wake tl).thread n = tl.thread n := by
  induction ns generalizing tl with
  | nil => rfl
  | cons k ns ih =>
    rw [List.foldl_cons]
    by_cases hk : n = k
    · subst hk; rw [Tile.wake_of_not_blocked _ h]; exact ih tl h
    · have := tl.thread_wake_ne hk
      rw [ih _ (by rw [this]; exact h), this]

theorem Tile.thread_drainAll {n : Nat} (ns : List Nat) (tl : Tile) (h : (tl.thread n).st ≠ .draining) :
    (ns.foldl Tile.drain tl).thread n = tl.thread n := by
  induction ns generalizing tl with
  | nil => rfl
  | cons k ns ih =>
    rw [List.foldl_cons]
    by_cases hk : n = k
    · subst hk; rw [Tile.drain_of_not_draining _ h]; exact ih tl h
    · have := tl.thread_drain_ne hk
      rw [ih _ (by rw [this]; exact h), this]

/-- A thread that is neither blocked nor draining is left as it is. -/
theorem Tile.settle_thread (tl : Tile) {n : Nat} (h : (tl.thread n).still) : tl.settle.thread n = tl.thread n := by
  simp only [Tile.settle]
  have h1 := Tile.thread_wakeAll (tl.threads.map (·.1)) tl h.1
  have h2 := Tile.thread_drainAll (tl.threads.map (·.1)) ((tl.threads.map (·.1)).foldl Tile.wake tl)
    (by rw [h1]; exact h.2)
  rw [Tile.thread_slotsDone, h2, h1]

/-! ### Tickets without a result are kept -/

theorem Tile.ticket_retire_open (tl : Tile) {e k : Nat} (h : (tl.ticket k).result.isSome) (he : (tl.ticket e).result = none) :
    (tl.retire k).ticket e = tl.ticket e := by
  have : e ≠ k := by intro h'; subst h'; simp [he] at h
  simp [Tile.retire, Tile.ticket_updTicket, this]

theorem Tile.ticket_wake_open (tl : Tile) (n : Nat) {e : Nat} (he : (tl.ticket e).result = none) :
    (tl.wake n).ticket e = tl.ticket e := by
  simp only [Tile.wake]
  split
  · split
    · simp
    · split
      · rename_i h
        rw [Tile.ticket_retire_open]
        · simp
        · simpa using h
        · simpa using he
      · rfl
    · split
      · rename_i k hk
        rw [Tile.ticket_retire_open]
        · simp
        · have := List.find?_some hk
          simpa using this
        · simpa using he
      · rfl
    · split <;> simp
    · rfl
    · split <;> simp
    · split <;> simp
  · rfl

theorem Tile.ticket_retireAll_open (es : List Nat) (tl : Tile) {e : Nat} (h : ∀ k ∈ es, (tl.ticket k).result.isSome)
    (he : (tl.ticket e).result = none) : (es.foldl Tile.retire tl).ticket e = tl.ticket e := by
  have key : e ∉ es := by intro hm; have := h e hm; simp [he] at this
  clear h
  induction es generalizing tl with
  | nil => rfl
  | cons k es ih =>
    simp only [List.mem_cons, not_or] at key
    have h1 : (tl.retire k).ticket e = tl.ticket e := by simp [Tile.retire, Tile.ticket_updTicket, key.1]
    rw [List.foldl_cons, ih (tl.retire k) (by rw [h1]; exact he) key.2, h1]

theorem Tile.ticket_drain_open (tl : Tile) (n : Nat) {e : Nat} (he : (tl.ticket e).result = none) :
    (tl.drain n).ticket e = tl.ticket e := by
  simp only [Tile.drain]
  split
  · rename_i h
    have hall : ∀ k ∈ tl.heldBy n, (tl.ticket k).result.isSome := by
      have := h.2
      simpa using this
    split <;> simp [Tile.ticket_retireAll_open _ _ hall he]
  · rfl

theorem Tile.ticket_slotDone (tl : Tile) (k e : Nat) : (tl.slotDone k).ticket e = tl.ticket e := by
  simp only [Tile.slotDone]
  split <;> rfl

theorem Tile.ticket_foldl_open {f : Tile → Nat → Tile} {e : Nat}
    (hf : ∀ tl n, (tl.ticket e).result = none → (f tl n).ticket e = tl.ticket e) (ns : List Nat) (tl : Tile)
    (he : (tl.ticket e).result = none) : (ns.foldl f tl).ticket e = tl.ticket e := by
  induction ns generalizing tl with
  | nil => rfl
  | cons n ns ih => rw [List.foldl_cons, ih _ (by rw [hf tl n he]; exact he), hf tl n he]

/-- A ticket that has no result yet is left as it is. -/
theorem Tile.settle_ticket_open (tl : Tile) {e : Nat} (he : (tl.ticket e).result = none) :
    tl.settle.ticket e = tl.ticket e := by
  simp only [Tile.settle]
  have h1 := Tile.ticket_foldl_open (fun tl n h => tl.ticket_wake_open n h) (tl.threads.map (·.1)) tl he
  have h2 := Tile.ticket_foldl_open (fun tl n h => tl.ticket_drain_open n h) (tl.threads.map (·.1))
    ((tl.threads.map (·.1)).foldl Tile.wake tl) (by rw [h1]; exact he)
  have h3 := Tile.ticket_foldl_open (e := e) (fun tl k _ => tl.ticket_slotDone k e) [0, 1, 2, 3]
    ((tl.threads.map (·.1)).foldl Tile.drain ((tl.threads.map (·.1)).foldl Tile.wake tl)) (by rw [h2, h1]; exact he)
  rw [h3, h2, h1]

end Sys2Proof.Machine
end

