-- ==== Sys2Proof/Laws/Issue.lean ====
section
/-! SUPPORT. Issuing an instruction: what the checks establish, what a step of a thread changes, and the scalar register writes. -/
set_option autoImplicit false
open Sys2Proof.Claim
namespace Sys2Proof.Machine

/-- Only a READY thread issues. -/
theorem issueCheck_ready {s : State} {t n cls opc : Nat} {w : BitVec 119} (h : s.issueCheck t n cls opc w = .go) :
    ((s.tile t).thread n).st = .ready := by
  simp only [State.issueCheck] at h
  split at h
  · cases h
  · rename_i h1; simp at h1; exact h1.1

/-- A thread that steps and stays READY: it is as the step leaves it, its pc moved on, and nothing else has changed. -/
theorem stepThread_frame (s : State) (t n : Nat) (f : Thread → Thread)
    (hs : (f { (s.tile t).thread n with pc := ((s.tile t).thread n).pc + 1 }).st = .ready) :
    ((s.stepThread t n f).tile t).thread n = f { (s.tile t).thread n with pc := ((s.tile t).thread n).pc + 1 } ∧
    scalarFrame s (s.stepThread t n f) t n := by
  have hthr : ((s.tile t).setThread n (f { (s.tile t).thread n with pc := ((s.tile t).thread n).pc + 1 })).thread n =
      f { (s.tile t).thread n with pc := ((s.tile t).thread n).pc + 1 } :=
    Tile.thread_setThread_same _ (by rw [hs]; decide)
  refine ⟨?_, ⟨?_, ?_⟩, ?_, ?_⟩
  · simp only [State.stepThread, State.tile_tileStep_same]
    rw [Tile.settle_thread, hthr]
    rw [hthr]; simp [Thread.still, hs]
  · rfl
  · intro k hk; simp only [State.stepThread, State.tile_tileStep_ne s _ hk]
  · simp only [State.stepThread, State.tile_tileStep_same, Tile.body_settle, Tile.body_setThread]
  · intro k hk hst
    simp only [State.stepThread, State.tile_tileStep_same]
    have h1 : ((s.tile t).setThread n (f { (s.tile t).thread n with pc := ((s.tile t).thread n).pc + 1 })).thread k = (s.tile t).thread k :=
      Tile.thread_setThread_ne _ _ hk
    rw [Tile.settle_thread, h1]
    rw [h1]; exact hst

/-- One bit set or cleared; the others as they were. -/
theorem getLsbD_setBit {w : Nat} (m : BitVec w) (n k : Nat) (b : Bool) (hk : k < w) :
    (setBit m n b).getLsbD k = if k = n then b else m.getLsbD k := by
  cases b
  · simp only [setBit, Bool.false_eq_true, if_false, BitVec.getLsbD_and, BitVec.getLsbD_not, BitVec.getLsbD_ofNat, Nat.testBit_two_pow]
    by_cases h : k = n
    · subst h; simp [hk]
    · simp [h, hk, Ne.symm h]
  · simp only [setBit, if_true, BitVec.getLsbD_or, BitVec.getLsbD_ofNat, Nat.testBit_two_pow]
    by_cases h : k = n
    · subst h; simp [hk]
    · simp [h, hk, Ne.symm h]

/-- The D field names one of 32 registers. -/
theorem wD_lt (w : BitVec 119) : wD w < 32 := fieldOf_lt _ _ _

/-- A write of a scalar register. -/
theorem setS_wroteS (a : Thread) (d v : Nat) (hd : d < 32) :
    wroteS a (({ a with pc := a.pc + 1 } : Thread).setS d v) d (BitVec.ofNat 64 v) false := by
  refine ⟨?_, ?_, ?_, ?_, ?_⟩
  · simp [Thread.sReg, Thread.setS]
  · intro k hk; simp [Thread.sReg, Thread.setS, Tbl.look_put, hk]
  · simp [Thread.poisoned, Thread.setS, getLsbD_setBit _ _ _ _ hd]
  · intro k hk h32; simp [Thread.poisoned, Thread.setS, getLsbD_setBit _ _ _ _ h32, hk]
  · rfl

/-- A write of a scalar register from sources, poisoned when one of them is. -/
theorem writeFrom_wroteS (a : Thread) (d v : Nat) (srcs : List Nat) (hd : d < 32) :
    wroteS a (({ a with pc := a.pc + 1 } : Thread).writeFrom d v srcs) d (BitVec.ofNat 64 v) (srcs.any a.poisoned) := by
  simp only [Thread.writeFrom]
  have hp : (srcs.any ({ a with pc := a.pc + 1 } : Thread).poisoned) = srcs.any a.poisoned := rfl
  rw [hp]
  by_cases h : srcs.any a.poisoned = true
  · rw [if_pos h, h]
    refine ⟨?_, ?_, ?_, ?_, ?_⟩
    · simp [Thread.sReg, Thread.setS, Thread.poisonS]
    · intro k hk; simp [Thread.sReg, Thread.setS, Thread.poisonS, Tbl.look_put, hk]
    · simp [Thread.poisoned, Thread.setS, Thread.poisonS, getLsbD_setBit _ _ _ _ hd]
    · intro k hk h32; simp [Thread.poisoned, Thread.setS, Thread.poisonS, getLsbD_setBit _ _ _ _ h32, hk]
    · rfl
  · rw [if_neg h]
    have : srcs.any a.poisoned = false := by simpa using h
    rw [this]
    exact setS_wroteS a d v hd

/-- Every scalar operation of two operands completes with its result (R134): what an ALU row needs is its operation on numbers. -/
theorem alu_generic (row : (Fin 64 → Fin 128 → BitVec 119 → Instr) × Nat × (Word → Word → Word)) (f : Nat → Nat → Nat)
    (tile : Fin 64) (n : Fin 128) (w : BitVec 119) (s : State)
    (hex : exec (row.1 tile n w) s = actTile s tile (fun s => s.issueAlu tile n row.2.1 w f))
    (hf : ∀ a b : Word, BitVec.ofNat 64 (f a.toNat b.toNat) = row.2.2 a b)
    (hop : (op2 ((s.tile tile).thread n) w) < 2 ^ 64)
    (hi : s.issues tile n 0 row.2.1 w) :
    let a := (s.tile tile).thread n
    ∃ t, Does (row.1 tile n w) s t ∧
      wroteS a ((t.tile tile).thread n) (wD w)
        (row.2.2 (BitVec.ofNat 64 (a.sReg (wA w))) (BitVec.ofNat 64 (op2 a w)))
        ((scalarReads 0 row.2.1 w).any a.poisoned) ∧
      scalarFrame s t tile n := by
  intro a
  have hr := issueCheck_ready hi.2
  let g : Thread → Thread := fun th => th.writeFrom (wD w) (f (th.sReg (wA w)) (op2 th w)) (scalarReads 0 row.2.1 w)
  have hst : (g { (s.tile tile).thread n with pc := ((s.tile tile).thread n).pc + 1 }).st = .ready := by
    simp only [g, Thread.writeFrom]; split <;> simp [Thread.setS, Thread.poisonS, hr]
  have hgo : s.issueAlu tile n row.2.1 w f = s.stepThread tile n g := by
    simp only [State.issueAlu, State.issue_go s _ _ _ _ _ _ hi.2]; rfl
  refine ⟨s.stepThread tile n g, ?_, ?_⟩
  · rw [Does, hex]
    have := actTile_next s tile (fun s => s.issueAlu tile n row.2.1 w f) hi.1
      (by show (s.issueAlu tile n row.2.1 w f).todo = []; rw [hgo]; exact hi.1.1.2)
      (by show (s.issueAlu tile n row.2.1 w f).pending = _; rw [hgo]; rfl)
    rw [this]; show Host.Outcome.next (s.issueAlu tile n row.2.1 w f) = _; rw [hgo]
  · have hfr := stepThread_frame s tile n g hst
    refine ⟨?_, hfr.2⟩
    rw [hfr.1]
    have := writeFrom_wroteS a (wD w) (f (a.sReg (wA w)) (op2 a w)) (scalarReads 0 row.2.1 w) (wD_lt w)
    have hA : a.sReg (wA w) < 2 ^ 64 := by simp only [Thread.sReg]; exact BitVec.isLt _
    have e := hf (BitVec.ofNat 64 (a.sReg (wA w))) (BitVec.ofNat 64 (op2 a w))
    rw [BitVec.toNat_ofNat, BitVec.toNat_ofNat, Nat.mod_eq_of_lt hA, Nat.mod_eq_of_lt hop] at e
    rw [← e]
    exact this

/-- The second operand is a 64-bit number. -/
theorem op2_lt (th : Thread) (w : BitVec 119) : op2 th w < 2 ^ 64 := by
  simp only [op2]; split
  · exact fieldOf_lt _ _ _
  · simp only [Thread.sReg]; exact BitVec.isLt _

/-- A register read as a signed number. -/
theorem sextOf_toInt (a : Word) : sextOf a.toNat 64 = a.toInt := by
  have := a.isLt
  simp only [sextOf, BitVec.toInt_eq_toNat_cond, Nat.mod_eq_of_lt this]
  split <;> split <;> first | rfl | omega

end Sys2Proof.Machine
end

