-- ==== Sys2Proof/Laws/Memory.lean ====
section
/-! SUPPORT. Laws of the byte memory: its canonical form, and what is read after a write. -/
namespace Sys2Proof.Machine

theorem Memory.wfFrom_mono {lo lo' : Nat} (h : lo' ≤ lo) {m : Memory} (hm : Memory.wfFrom lo m = true) :
    Memory.wfFrom lo' m = true := by
  cases m with
  | nil => rfl
  | cons c t =>
    obtain ⟨a, b⟩ := c
    simp only [Memory.wfFrom, Bool.and_eq_true, decide_eq_true_eq] at hm ⊢
    exact ⟨⟨Nat.le_trans h hm.1.1, hm.1.2⟩, hm.2⟩

/-- Below its first cell a canonical memory is blank. -/
theorem Memory.readByte_below {lo a : Nat} {m : Memory} (hm : Memory.wfFrom lo m = true) (h : a < lo) :
    Memory.readByte a m = Memory.blank := by
  cases m with
  | nil => rfl
  | cons c t =>
    obtain ⟨k, b⟩ := c
    simp only [Memory.wfFrom, Bool.and_eq_true, decide_eq_true_eq] at hm
    have h1 : k ≠ a := by omega
    have h2 : a < k := by omega
    simp [Memory.readByte, h1, h2]

theorem Memory.consCell_wf {lo a : Nat} {b : Byte} {t : Memory} (h : lo ≤ a) (ht : Memory.wfFrom (a + 1) t = true) :
    Memory.wfFrom lo (Memory.consCell a b t) = true := by
  simp only [Memory.consCell]
  split
  · exact Memory.wfFrom_mono (by omega) ht
  · rename_i hb
    simp [Memory.wfFrom, h, hb, ht]

/-- A byte's write keeps the canonical form. -/
theorem Memory.writeByte_wfFrom {lo a : Nat} {b : Byte} {m : Memory} (hm : Memory.wfFrom lo m = true) (h : lo ≤ a) :
    Memory.wfFrom lo (Memory.writeByte a b m) = true := by
  induction m generalizing lo with
  | nil => exact Memory.consCell_wf h rfl
  | cons c t ih =>
    obtain ⟨k, d⟩ := c
    have hm' := hm
    simp only [Memory.wfFrom, Bool.and_eq_true, decide_eq_true_eq] at hm
    simp only [Memory.writeByte]
    split
    · rename_i hlt
      exact Memory.consCell_wf h (by simp only [Memory.wfFrom, Bool.and_eq_true, decide_eq_true_eq]; exact ⟨⟨by omega, hm.1.2⟩, hm.2⟩)
    · split
      · rename_i h1 h2
        subst h2
        exact Memory.consCell_wf h hm.2
      · rename_i h1 h2
        simp only [Memory.wfFrom, Bool.and_eq_true, decide_eq_true_eq]
        exact ⟨hm.1, ih hm.2 (by omega)⟩

theorem Memory.readByte_consCell {lo a x : Nat} {b : Byte} {t : Memory} (h : a < lo) (ht : Memory.wfFrom lo t = true) :
    Memory.readByte x (Memory.consCell a b t) =
      if x = a then b else if x < a then Memory.blank else Memory.readByte x t := by
  simp only [Memory.consCell]
  split
  · rename_i hb
    subst hb
    split
    · exact Memory.readByte_below ht (by omega)
    · split
      · exact Memory.readByte_below ht (by omega)
      · rfl
  · simp only [Memory.readByte]
    by_cases hx : x = a
    · simp [hx]
    · simp [hx, Ne.symm hx]

/-- Read after a byte's write. -/
theorem Memory.readByte_writeByte {lo a x : Nat} {b : Byte} {m : Memory} (hm : Memory.wfFrom lo m = true) :
    Memory.readByte x (Memory.writeByte a b m) = if x = a then b else Memory.readByte x m := by
  induction m generalizing lo with
  | nil =>
    have := Memory.readByte_consCell (lo := a + 1) (a := a) (x := x) (b := b) (t := []) (by omega) rfl
    simp only [Memory.writeByte, this, Memory.readByte]
    split
    · rfl
    · split <;> rfl
  | cons c t ih =>
    obtain ⟨k, d⟩ := c
    have hw := hm
    simp only [Memory.wfFrom, Bool.and_eq_true, decide_eq_true_eq] at hm
    simp only [Memory.writeByte]
    split
    · rename_i hlt
      have hk : Memory.wfFrom k ((k, d) :: t) = true := by
        simp only [Memory.wfFrom, Bool.and_eq_true, decide_eq_true_eq]; exact ⟨⟨Nat.le_refl k, hm.1.2⟩, hm.2⟩
      rw [Memory.readByte_consCell hlt hk]
      split
      · rfl
      · split
        · rename_i h2
          exact (Memory.readByte_below hk (by omega)).symm
        · rfl
    · split
      · rename_i h1 h2
        subst h2
        rw [Memory.readByte_consCell (Nat.lt_succ_self a) hm.2]
        simp only [Memory.readByte]
        by_cases hx : x = a
        · simp [hx]
        · simp [hx, Ne.symm hx]
      · rename_i h1 h2
        simp only [Memory.readByte, ih hm.2]
        by_cases hx : k = x
        · subst hx; simp [Ne.symm h2]
        · by_cases hl : x < k
          · have : x ≠ a := by omega
            simp [hx, hl, this]
          · simp [hx, hl]

/-- A write keeps the canonical form. -/
theorem Memory.write_wf {m : Memory} (a : Nat) (bs : List Byte) (hm : m.wf = true) : (m.write a bs).wf = true := by
  induction bs generalizing m a with
  | nil => exact hm
  | cons b bs ih => exact ih (a + 1) (Memory.writeByte_wfFrom hm (Nat.zero_le a))

/-- Read after a write: the bytes written inside the range, the old ones outside it. -/
theorem Memory.readByte_write {m : Memory} (a x : Nat) (bs : List Byte) (hm : m.wf = true) :
    Memory.readByte x (m.write a bs) =
      if a ≤ x ∧ x < a + bs.length then nth 0 bs (x - a) else Memory.readByte x m := by
  induction bs generalizing m a with
  | nil =>
    have : ¬(a ≤ x ∧ x < a + 0) := by omega
    simp only [Memory.write, List.length_nil, this, if_false]
  | cons b bs ih =>
    simp only [Memory.write]
    rw [ih (a + 1) (Memory.writeByte_wfFrom hm (Nat.zero_le a)), Memory.readByte_writeByte hm]
    by_cases h1 : a + 1 ≤ x ∧ x < a + 1 + bs.length
    · have h2 : a ≤ x ∧ x < a + (b :: bs).length := by simp only [List.length_cons]; omega
      rw [if_pos h1, if_pos h2]
      rw [show x - a = (x - (a + 1)) + 1 by omega]
      simp [nth]
    · rw [if_neg h1]
      by_cases hx : x = a
      · subst hx
        simp [nth]
      · have h2 : ¬(a ≤ x ∧ x < a + (b :: bs).length) := by simp only [List.length_cons]; omega
        rw [if_neg h2, if_neg hx]

/-- Blanking a range keeps the canonical form. -/
theorem Memory.clear_wfFrom {lo : Nat} {m : Memory} (a n : Nat) (hm : Memory.wfFrom lo m = true) :
    Memory.wfFrom lo (m.clear a n) = true := by
  induction m generalizing lo with
  | nil => rfl
  | cons c t ih =>
    obtain ⟨k, d⟩ := c
    simp only [Memory.wfFrom, Bool.and_eq_true, decide_eq_true_eq] at hm
    have h := ih hm.2
    simp only [Memory.clear, List.filter] at h ⊢
    split
    · simp only [Memory.wfFrom, Bool.and_eq_true, decide_eq_true_eq]; exact ⟨hm.1, h⟩
    · exact Memory.wfFrom_mono (by omega) h

/-- Blanking a range keeps the canonical form. -/
theorem Memory.clear_wf {m : Memory} (a n : Nat) (hm : m.wf = true) : (m.clear a n).wf = true :=
  Memory.clear_wfFrom a n hm

/-- Every operation over the memory keeps its canonical form. -/
theorem Memory.operations_keep_wf {m : Memory} (hm : m.wf = true) :
    (∀ a b, Memory.wf (Memory.writeByte a b m) = true) ∧ (∀ a bs, (m.write a bs).wf = true) ∧
    (∀ a n, (m.clear a n).wf = true) :=
  ⟨fun a _ => Memory.writeByte_wfFrom hm (Nat.zero_le a), fun a bs => Memory.write_wf a bs hm,
   fun a n => Memory.clear_wf a n hm⟩

/-- Canonical memories that read alike from `lo` on are equal. -/
theorem Memory.ext_wfFrom {lo : Nat} {m k : Memory} (hm : Memory.wfFrom lo m = true) (hk : Memory.wfFrom lo k = true)
    (h : ∀ x, Memory.readByte x m = Memory.readByte x k) : m = k := by
  induction m generalizing lo k with
  | nil =>
    cases k with
    | nil => rfl
    | cons c t =>
      obtain ⟨a, b⟩ := c
      simp only [Memory.wfFrom, Bool.and_eq_true, decide_eq_true_eq, bne_iff_ne] at hk
      have := h a
      simp [Memory.readByte] at this
      exact absurd this.symm hk.1.2
  | cons c t ih =>
    obtain ⟨a, b⟩ := c
    have hm' := hm
    simp only [Memory.wfFrom, Bool.and_eq_true, decide_eq_true_eq, bne_iff_ne] at hm
    cases k with
    | nil =>
      have := h a
      simp [Memory.readByte] at this
      exact absurd this hm.1.2
    | cons e u =>
      obtain ⟨a', b'⟩ := e
      have hk' := hk
      simp only [Memory.wfFrom, Bool.and_eq_true, decide_eq_true_eq, bne_iff_ne] at hk
      have haa : a = a' := by
        rcases Nat.lt_trichotomy a a' with hl | he | hg
        · have := h a
          have hne : a' ≠ a := by omega
          simp [Memory.readByte, hne, hl] at this
          exact absurd this hm.1.2
        · exact he
        · have := h a'
          have hne : a ≠ a' := by omega
          simp [Memory.readByte, hne, hg] at this
          exact absurd this.symm hk.1.2
      subst haa
      have hbb : b = b' := by simpa [Memory.readByte] using h a
      subst hbb
      congr 1
      refine ih hm.2 hk.2 (fun x => ?_)
      have hx := h x
      simp only [Memory.readByte] at hx
      rcases Nat.lt_trichotomy x a with hl | he | hg
      · rw [Memory.readByte_below hm.2 (by omega), Memory.readByte_below hk.2 (by omega)]
      · subst he
        rw [Memory.readByte_below hm.2 (by omega), Memory.readByte_below hk.2 (by omega)]
      · have h1 : a ≠ x := by omega
        have h2 : ¬ x < a := by omega
        simpa [h1, h2] using hx

/-- Equal memories are equal data: canonical memories that read alike are equal. -/
theorem Memory.ext {m k : Memory} (hm : m.wf = true) (hk : k.wf = true)
    (h : ∀ x, Memory.readByte x m = Memory.readByte x k) : m = k := Memory.ext_wfFrom hm hk h

end Sys2Proof.Machine
end

