-- ==== Sys2Proof/WellFormed.lean ====
section
/-! DEFINITION. Which commands the outside can send: operands within the sizes that the spec gives them. A command that is
not well-formed has a meaning too; no run of the hardware holds one. -/
namespace Sys2Proof

/-- R286, R287: a fabric packet has 36 to 8,228 bytes. -/
def packetSize (b : List Byte) : Bool := decide (36 ≤ b.length) && decide (b.length ≤ 8228)

/-- R466: a stylus transaction has 20 to 4,116 bytes. -/
def txnSize (b : List Byte) : Bool := decide (20 ≤ b.length) && decide (b.length ≤ 4116)

/-- R383: a lane's frame has 43,690 line bits in 170 inner blocks of 257. -/
def frameOk (f : LaneFrame) : Bool :=
  decide (f.lane < 32) && decide (f.line < 2 ^ 43690) && decide (f.weak.length = 170) && f.weak.all (fun k => decide (k < 257))

/-- R436: a channel takes modules of up to two ranks. -/
def moduleOk (m : DdrModule) : Bool := decide (m.ranks ≤ 2)

/-- The sizes of a command's operands. Operands of a fixed number of values need no check. -/
def Instr.wellFormed (i : Instr) : Bool :=
  match i with
  | .digestReceive b | .contribReceive b | .creditReceive b | .tokenReceive b | .answerReceive ⟨b, _⟩ | .putDataReceive b
  | .getDataReceive b | .ackReceive b | .nackReceive b | .mgtRspReceive b | .packetArrive _ ⟨b, _⟩ | .discoverReceive _ b
  | .timeRequestReceive _ b | .timeResponseReceive _ b => packetSize b
  | .partialReceive b _ | .resultReceive b _ | .getReqReceive b _ | .mgtReqReceive b _ => packetSize b
  | .mrd _ b _ | .mwr _ b | .dbSubmission _ b | .dbCompletion _ b | .wrackReceive _ b => txnSize b
  | .portFrameReceive _ fs => fs.all frameOk && decide (fs.length ≤ 32)
  | .i3cPrivateRead _ n => decide (n ≤ 8)
  | .bpRefillDone _ n _ => decide (n ≤ 512)
  | .hbmPatrolScrub line _ => decide (line < 384 * 2 ^ 24)
  | .ddrPatrolScrub _ line _ => decide (line < 128 * 2 ^ 24)
  | .ddrInitDone ms => decide (ms.length ≤ 8) && ms.all moduleOk
  | .auditPass _ cells _ => decide (cells.length ≤ 16384)
  | .powerCapSample vin a b c => decide (vin < 2 ^ 16) && decide (a < 2 ^ 16) && decide (b < 2 ^ 16) && decide (c < 2 ^ 16)
  | .bootSlotChecked found _ => (match found with | some b => decide (b.length ≤ 16 * 2 ^ 20) | none => true)
  | _ => true

end Sys2Proof
end

