-- ==== Sys2Proof/Tests/Slice0.lean ====
section
/-! SUPPORT. Tests: for every statement of Obligations.lean that has hypotheses a theorem that shows states and operands which meet
them, clause by clause; ill-formed commands; steps and worked examples of the spec. -/
set_option autoImplicit false
set_option maxRecDepth 8000
set_option Elab.async false
open Sys2Proof Sys2Proof.Machine Sys2Proof.Claim
namespace Sys2Proof.Tests

/-! ### Small states -/

/-- A switch in service: OPERATIONAL, firmware running, boot READY, HBM in use, memory as after power-on. -/
def up : State :=
  let s := State.reset
  let s := { s with
    sys := { s.sys with fwRuns := true, coldBoot := false }, sec := { s.sec with fuses := { s.sec.fuses with lc := 2 } } }
  ((s.wr F.SEC_BOOT_STATUS_PHASE [] 3).wr F.SEC_LC_STATE [] 2).wr F.HBM_STATUS_READY [] 1

/-- That switch with another tile 0. -/
def upTile (f : Tile → Tile) : State := up.updTile 0 f

/-- A running image whose code is one word, its thread 0 ready before it with these scalar registers. -/
def prog (regs : List (Nat × Nat)) (cls opc : Nat) (w : BitVec 119) : State :=
  upTile (fun tl => { tl with
    istore := [(0, fullWord cls opc w), (1, 0)],
    slots := [(0, { ImageSlot.fresh with
      st := .running, codeSize := 2, threads := 1, perThread := 8, ranges := [0], level := 2,
      vGrant := 2 ^ 32 - 1, mGrant := 255, tGrant := 255 })],
    threads := [(0, { Thread.fresh with
      st := .ready, tkCount := 8, s := regs.map (fun r => (r.1, BitVec.ofNat 64 r.2)) })] })

/-- That program's thread with entry 0 of the ticket table held, its generation 1 and CLASS 1. -/
def withTicket (s : State) (result : Option (Nat × Nat)) : State :=
  s.updTile 0 (fun tl => { tl with tickets := [(0, ⟨true, 0, 1, 1, result⟩)] })

/-- Where one thread is listed, every other one is FREE. -/
theorem thread_other (s : State) (th : Thread) (h : (s.tile 0).threads = [(0, th)]) (k : Nat) (hk : k ≠ 0) :
    (s.tile 0).thread k = Thread.fresh := by
  simp [Tile.thread, Tbl.look, h, Tbl.find, Ne.symm hk]

/-- A FREE thread waits for nothing. -/
theorem fresh_still : Thread.fresh.still := by unfold Thread.still; decide

/-- A FREE thread waits for no ticket. -/
theorem fresh_waits (r e : Nat) : Thread.fresh.waiting ≠ .wait r e := by simp [Thread.fresh]

/-- A check of `inTurn` that evaluates. -/
def inTurnB (s : State) (p : Pkt) : Bool :=
  !p.ordered || (p.syn && decide (p.seq = 0 ∧ p.pktIdx = 0 ∧ (s.tm (ctxTile p)).ctxs.length < ctxLimit)) ||
  (!p.syn && match s.ctx (ctxTile p) p.key with
    | some c => !c.poisoned && decide (c.e = p.seq ∧ c.held = []) && (msgStep c.msg p).isSome
    | none => false)

theorem inTurn_iff (s : State) (p : Pkt) : s.inTurn p ↔ inTurnB s p = true := by
  unfold State.inTurn inTurnB
  cases p.ordered <;> cases p.syn <;> cases h : s.ctx (ctxTile p) p.key <;> simp [h, and_assoc]

/-! ### Instructions of threads -/

/-- Fields of an instruction by their lowest bits (R131). -/
def word (fs : List (Nat × Nat)) : BitVec 119 := BitVec.ofNat 119 (fs.foldl (fun n f => n + f.2 * 2 ^ f.1) 0)

/-- A legal word of each ticketed instruction: destination S[1] where it returns a scalar, addresses in S[0]. -/
def ticketWord (cls opc : Nat) : BitVec 119 :=
  match cls, opc with
  | 1, 6 | 1, 7 | 1, 8 => word [(85, 10), (81, 10)]
  | 1, 11 | 1, 12 => word [(85, 5)]
  | 1, 17 | 1, 29 => word [(114, 1)]
  | 1, 23 => word [(94, 1), (0, 1)]
  | 4, 4 => word [(109, 1)]
  | 4, 6 => word [(85, 5)]
  | 4, 7 => word [(109, 1), (85, 10), (78, 1)]
  | 5, 0x20 | 5, 0x21 => word [(109, 1), (94, 2)]
  | 5, 0x24 => word [(109, 1)]
  | _, _ => 0

/-- Values that those words ask of scalar registers. -/
def regs0 : List (Nat × Nat) := [(0, 0x100000000), (1, 20), (2, 64)]

/-- D in bits 118..114, A in 113..109, B in 108..104. -/
def dab (d a b : Nat) : BitVec 119 := word [(114, d), (109, a), (104, b)]

theorem witness_ScalarArithmetic : ∀ row ∈ aluRows,
    (prog [(0, 2 ^ 63), (1, 5)] 0 row.2.1 (dab 2 0 1)).issues 0 0 0 row.2.1 (dab 2 0 1) := by
  unfold State.issues State.tileReady State.ready; decide

/-- No other thread of that program waits, and its one slot at work has a thread. -/
theorem prog_calm (regs : List (Nat × Nat)) (cls opc : Nat) (w : BitVec 119) : calm ((prog regs cls opc w).tile 0) 0 := by
  refine ⟨fun k hk => ?_, fun k hk h => ?_⟩
  · rw [thread_other _ _ rfl k hk]; exact fresh_still
  · match k, hk with
    | 0, _ => exact fun e => nomatch e
    | 1, _ | 2, _ | 3, _ => exact h.elim (fun e => nomatch e) (fun e => nomatch e)

/-- ADD wraps at 2^64 (R138). -/
theorem test_add_wraps : (match exec (.add 0 0 (dab 2 0 1)) (prog [(0, 2 ^ 64 - 1), (1, 5)] 0 2 (dab 2 0 1)) with
    | .next t => (((t.tile 0).thread 0).sReg 2, ((t.tile 0).thread 0).pc)
    | _ => (0, 0)) = (4, 1) := by decide

/-- SAR shifts by its count modulo 64 and keeps the sign (R138). -/
theorem test_sar_sign : (match exec (.sar 0 0 (dab 2 0 1)) (prog [(0, 2 ^ 63), (1, 67)] 0 12 (dab 2 0 1)) with
    | .next t => ((t.tile 0).thread 0).sReg 2
    | _ => 0) = 2 ^ 63 + 2 ^ 62 + 2 ^ 61 + 2 ^ 60 := by decide

/-- A branch's word: S[0] and S[1] compared, S[2] linked. -/
def branchWord (opc : Nat) : BitVec 119 :=
  if opc = 0x20 ∨ opc = 0x28 then 0 else if opc = 0x27 then dab 2 0 0 else dab 0 0 1

theorem witness_Branches : ∀ row ∈ branchRows,
    (prog [(0, 1), (1, 1)] 0 row.2.1 (branchWord row.2.1)).issues 0 0 0 row.2.1 (branchWord row.2.1) := by
  unfold State.issues State.tileReady State.ready; decide

theorem witness_ScalarDeviceAccess : ∀ p ∈ [(0x00, dab 0 0 0), (0x14, dab 2 0 0), (0x16, dab 2 0 0), (0x15, dab 0 0 1)],
    (prog [(1, 0xFF)] 0 p.1 p.2).issues 0 0 0 p.1 p.2 := by
  unfold State.issues State.tileReady State.ready; decide

/-- WAIT and TEST name S[0]; the four that answer write S[2]. -/
def waitWord (opc : Nat) : BitVec 119 := if opc = 3 ∨ opc = 5 then 0 else dab 2 0 0

/-- The name of the held ticket is `2^16`: entry 0, thread 0, generation 1 (R95). -/
def waits (opc name : Nat) (result : Option (Nat × Nat)) : State :=
  withTicket (prog [(0, name)] 6 opc (waitWord opc)) result

theorem waits_others (opc name : Nat) (result : Option (Nat × Nat)) (k : Nat) (hk : k ≠ 0) (r e : Nat) :
    (((waits opc name result).tile 0).thread k).waiting ≠ .wait r e := by
  rw [thread_other _ _ rfl k hk]; exact fresh_waits r e

theorem witness_WaitAndWaitAny :
    ((waits 0 7 none).issues 0 0 6 0 (dab 2 0 0) ∧ ((waits 0 7 none).tile 0).namedTicket 0 7 = none) ∧
    ((waits 0 65536 none).issues 0 0 6 0 (dab 2 0 0) ∧
      ((waits 0 65536 none).tile 0).namedTicket 0 65536 = some 0 ∧ (((waits 0 65536 none).tile 0).ticket 0).result = none) ∧
    ((waits 0 65536 (some (0, 0))).issues 0 0 6 0 (dab 2 0 0) ∧
      ((waits 0 65536 (some (0, 0))).tile 0).namedTicket 0 65536 = some 0 ∧
      (((waits 0 65536 (some (0, 0))).tile 0).ticket 0).result = some (0, 0)) ∧
    ((prog [] 6 1 (dab 2 0 0)).issues 0 0 6 1 (dab 2 0 0) ∧ ((prog [] 6 1 (dab 2 0 0)).tile 0).heldBy 0 = []) ∧
    ((waits 1 0 none).issues 0 0 6 1 (dab 2 0 0) ∧ ((waits 1 0 none).tile 0).heldBy 0 ≠ [] ∧
      ∀ e ∈ ((waits 1 0 none).tile 0).heldBy 0, (((waits 1 0 none).tile 0).ticket e).result = none) ∧
    ((waits 1 0 (some (6, 1))).issues 0 0 6 1 (dab 2 0 0) ∧ 0 ∈ ((waits 1 0 (some (6, 1))).tile 0).heldBy 0 ∧
      (((waits 1 0 (some (6, 1))).tile 0).ticket 0).result = some (6, 1) ∧
      ∀ f ∈ ((waits 1 0 (some (6, 1))).tile 0).heldBy 0,
        (((waits 1 0 (some (6, 1))).tile 0).ticket f).result.isSome → 0 ≤ f) := by
  unfold State.issues State.tileReady State.ready; decide

theorem witness_TestTicket : (waits 2 65536 none).issues 0 0 6 2 (dab 2 0 0) ∧
    (waits 2 65536 (some (0, 0))).issues 0 0 6 2 (dab 2 0 0) ∧
    ((waits 2 65536 (some (0, 0))).tile 0).namedTicket 0 65536 = some 0 := by
  unfold State.issues State.tileReady State.ready; decide

/-- No other thread waits for that ticket. -/
theorem witness_TestTicket_kept (result : Option (Nat × Nat)) (k : Nat) (hk : k ≠ 0) :
    (∀ r, (((waits 2 65536 result).tile 0).thread k).waiting ≠ .wait r 0) ∧
    ∀ f, (((waits 2 65536 result).tile 0).thread k).waiting = .fence f → 0 ∉ f := by
  rw [thread_other _ _ rfl k hk]
  exact ⟨fun r => fresh_waits r 0, fun f h => by simp [Thread.fresh] at h⟩

/-- A thread that waits in LAUNCHAT for time 0. -/
def launching : State := upTile (fun tl => { tl with
  threads := [(0, { Thread.fresh with st := .blocked, waiting := .launch 2 0 })] })

theorem witness_FenceLaunchatHalt :
    (∀ opc ∈ [3, 5], ((waits opc 0 none).issues 0 0 6 opc 0 ∧
      ∃ e ∈ ((waits opc 0 none).tile 0).heldBy 0, (((waits opc 0 none).tile 0).ticket e).result = none) ∧
      ((waits opc 0 (some (0, 0))).issues 0 0 6 opc 0 ∧
        ∀ e ∈ ((waits opc 0 (some (0, 0))).tile 0).heldBy 0,
          (((waits opc 0 (some (0, 0))).tile 0).ticket e).result.isSome)) ∧
    ((prog [(0, 5)] 6 4 (dab 2 0 0)).issues 0 0 6 4 (dab 2 0 0) ∧
      (prog [(0, 5)] 6 4 (dab 2 0 0)).now < (((prog [(0, 5)] 6 4 (dab 2 0 0)).tile 0).thread 0).sReg 0) ∧
    ((prog [] 6 4 (dab 2 0 0)).issues 0 0 6 4 (dab 2 0 0) ∧
      (((prog [] 6 4 (dab 2 0 0)).tile 0).thread 0).sReg 0 ≤ (prog [] 6 4 (dab 2 0 0)).now) ∧
    (launching.tileReady 0 ∧ ((launching.tile 0).thread 0).st = .blocked ∧
      ((launching.tile 0).thread 0).waiting = .launch 2 0 ∧ 0 ≤ launching.now) := by
  unfold State.issues State.tileReady State.ready; decide

theorem witness_TicketedIssue : ∀ row ∈ ticketRows,
    (prog regs0 row.2.1 row.2.2 (ticketWord row.2.1 row.2.2)).issues 0 0 row.2.1 row.2.2 (ticketWord row.2.1 row.2.2) := by
  unfold State.issues State.tileReady State.ready; decide

/-- A communicator in this state, alone on its switch, whose members are these. -/
def comm0 (st : Nat) (members : List Member) (ops : List Coll) : Comm :=
  ⟨⟨0, 1, 5, false, 4096, 8, members.length, 1, 0, 0, 1, 0, members, List.replicate 3 ⟨1, 0, [0]⟩⟩, st, true, 0, false, [], [], [], [], [], ops, [], [], 0, none, [],
    [], [], []⟩

/-- A state with that communicator under id 0. -/
def withComm (s : State) (c : Comm) : State := { s with cs := { s.cs with comms := [(0, c)] } }

/-- The local member and the accelerator on port 3. -/
def two : List Member := [⟨0, 0xFF, 0⟩, ⟨1, 3, 0⟩]

theorem witness_CollectiveLaunch : ∀ row ∈ launchRows,
    let s := withComm (prog [] 5 row.2 0) (comm0 2 two [])
    let c := comm0 2 two []
    s.issues 0 0 5 row.2 0 ∧ (scalars ((s.tile 0).thread 0) 5 row.2 0).bad = false ∧
    s.comm (fieldOf (scalars ((s.tile 0).thread 0) 5 row.2 0).sa 0 20) = some c ∧
    c.desc.id = fieldOf (scalars ((s.tile 0).thread 0) 5 row.2 0).sa 0 20 ∧ c.st = 2 ∧
    (fieldOf (scalars ((s.tile 0).thread 0) 5 row.2 0).sa 20 32 + 2 ^ 32 - c.next) % 2 ^ 32 < 8 ∧
    c.coll (fieldOf (scalars ((s.tile 0).thread 0) 5 row.2 0).sa 20 32) = none ∧ c.barred = [] ∧ c.early = [] ∧
    c.saved = [] := by
  unfold State.issues State.tileReady State.ready; decide

/-- A thread before a launch of sequence number `seq`. -/
def launch (opc seq : Nat) : State := prog [(0, seq * 2 ^ 20)] 5 opc 0

theorem launch_others (opc seq k : Nat) (hk : k ≠ 0) : (((launch opc seq).tile 0).thread k).still := by
  rw [thread_other _ _ rfl k hk]; exact fresh_still

theorem witness_LaunchRefused : ∀ row ∈ launchRows,
    ((launch row.2 0).issues 0 0 5 row.2 0 ∧ (scalars (((launch row.2 0).tile 0).thread 0) 5 row.2 0).bad = false ∧
      (launch row.2 0).comm 0 = none) ∧
    ((withComm (launch row.2 0) (comm0 3 two [])).issues 0 0 5 row.2 0 ∧ (comm0 3 two []).st = 3) ∧
    ((withComm (launch row.2 8) (comm0 2 two [])).issues 0 0 5 row.2 0 ∧ (comm0 2 two []).st = 2 ∧
      fieldOf (scalars (((launch row.2 8).tile 0).thread 0) 5 row.2 0).sa 20 32 = 8) := by
  unfold State.issues State.tileReady State.ready; decide

/-! ### Engines -/

/-- An operation of thread 0 in entry 0, every operand zero. -/
def opOf (cls opc : Nat) (w : BitVec 119) : EngOp :=
  ⟨0, 0, 0, cls, opc, w, ⟨0, 0, 0, 0, 0, 0, 0, 0, [], false, false⟩, 0, 0, true, [], none⟩

/-- A tile whose thread 0 is ready and holds entry 0, with what `f` makes of it. -/
def engine (cls : Nat) (f : Tile → Tile) : State := upTile (fun tl => f { tl with
  threads := [(0, { Thread.fresh with st := .ready, tkCount := 8 })], tickets := [(0, ⟨true, 0, 1, cls, none⟩)] })

/-- An operation at work in the hatch engine. -/
def atHatch (op : EngOp) : State := engine op.cls (fun tl => { tl with hatchRun := [op] })

/-- A product at work, with the verdict of its start. -/
def atXh (v : Option (Nat × Nat)) : State := engine 3 (fun tl => { tl with xhRun := [{ opOf 3 0 0 with verdict := v }] })

/-- A memory operation at work on plate 0, from 1 MiB on. -/
def memOp (opc : Nat) (w : BitVec 119) : EngOp :=
  { opOf 4 opc w with sc := { (opOf 4 opc w).sc with sa := 0x100100000, sc := 0x100200000 } }

/-- That operation at work. -/
def atMem (op : EngOp) : State := engine 4 (fun tl => { tl with memRun := [op] })

/-- Where the one thread listed waits for nothing, none does. -/
theorem all_still (s : State) (th : Thread) (h : (s.tile 0).threads = [(0, th)]) (hs : th.still) (k : Nat) :
    ((s.tile 0).thread k).still := by
  by_cases hk : k = 0
  · subst hk; simpa [Tile.thread, Tbl.look, h, Tbl.find] using hs
  · rw [thread_other s th h k hk]; exact fresh_still

theorem ready_still : ({ Thread.fresh with st := .ready, tkCount := 8 } : Thread).still := by
  unfold Thread.still; decide

/-- Where one tile is listed and hands over nothing, none does. -/
theorem no_handover (s : State) (tl : Tile) (h : s.tiles = [(0, tl)]) (hn : tl.handOver = none) (p : Nat) :
    (s.tile p).handOver = none := by
  by_cases hp : 0 = p
  · simp [State.tile, Tbl.look, h, Tbl.find, hp, hn]
  · simp [State.tile, Tbl.look, h, Tbl.find, hp, Tile.fresh]

theorem atHatch_meets (op : EngOp) (he : op.entry = 0) (hv : op.verdict = none) : hatchAt (atHatch op) 0 0 op := by
  refine ⟨?_, ?_, hv, rfl, rfl, all_still _ _ rfl ready_still⟩
  · exact ⟨⟨rfl, rfl⟩, show up.pwrState (64 + 0) = 0 by decide⟩
  · show opAt [op] 0 = some op
    simp [opAt, he]

theorem witness_MaskOperations :
    (∀ row ∈ maskRows, hatchAt (atHatch (opOf 1 row.1 0)) 0 0 (opOf 1 row.1 0)) ∧
    hatchAt (atHatch (opOf 1 0x1D 0)) 0 0 (opOf 1 0x1D 0) ∧ (((atHatch (opOf 1 0x1D 0)).tile 0).thread 0).st ≠ .free :=
  ⟨fun row _ => atHatch_meets _ rfl rfl, atHatch_meets _ rfl rfl, by decide⟩

theorem witness_RawLaneOperations : ∀ opc ∈ [0x0F, 0x10, 0x12, 0x15, 0x16, 0x11],
    hatchAt (atHatch (opOf 1 opc 0)) 0 0 (opOf 1 opc 0) ∧ (((atHatch (opOf 1 opc 0)).tile 0).thread 0).st ≠ .free :=
  fun _ _ => ⟨atHatch_meets _ rfl rfl, nofun⟩

/-- A word of lane arithmetic whose formats are one, every lane active. -/
def laneWord (fm : Nat) : BitVec 119 := word [(85, fm), (81, fm), (89, 1)]

theorem witness_IntegerLaneArithmetic : ∀ row ∈ intRows,
    hatchAt (atHatch (opOf 1 row.1 (laneWord row.2.1))) 0 0 (opOf 1 row.1 (laneWord row.2.1)) ∧
    wFA (laneWord row.2.1) = row.2.1 ∧ wFD (laneWord row.2.1) = row.2.1 ∧ wRM (laneWord row.2.1) < 3 ∧
    (atHatch (opOf 1 row.1 (laneWord row.2.1))).faults.inject = none := by
  intro row h
  refine ⟨atHatch_meets _ rfl rfl, ?_⟩
  revert row; decide

theorem witness_HatchCompletes : ∀ row ∈ ticketRows, row.2.1 ≤ 2 → hatchAt (atHatch (opOf row.2.1 row.2.2 0)) 0 0 (opOf row.2.1 row.2.2 0) ∧
    (row.2.1 = 1 ∨ (row.2.1 = 2 ∧ row.2.2 ≤ 1)) ∧ (atHatch (opOf row.2.1 row.2.2 0)).faults.inject = none ∧
    (((atHatch (opOf row.2.1 row.2.2 0)).tile 0).thread 0).st ≠ .free := by
  intro row h hc
  refine ⟨atHatch_meets _ rfl rfl, ?_⟩
  revert row; decide

/-- VADD on 32-bit integers and a chain without stages, no lane active. -/
theorem witness_ResidueMismatch : ∀ op ∈ [opOf 1 0 (word [(85, 10), (81, 10)]), opOf 2 0 (word [(85, 10), (81, 10)])],
    hatchAt (atHatch op) 0 0 op ∧ ((op.cls = 1 ∧ op.opc ≤ 0x0D) ∨ op.cls = 2) ∧ (atHatch op).faults.inject = none ∧
    (Fmt.ofCode (wFA op.w)).isSome ∧ (Fmt.ofCode (wFD op.w)).isSome ∧ wRM op.w < 3 ∧
    (if op.cls = 2 then chainOut ((atHatch op).tile 0) op else hatchOut ((atHatch op).tile 0) op).status = 0 := by
  intro op h
  refine ⟨?_, ?_⟩
  · have : op.entry = 0 ∧ op.verdict = none := by revert op; decide
    exact atHatch_meets op this.1 this.2
  · revert op; decide

/-- An operation at the head of a queue. -/
theorem witness_EngineStart :
    (∀ op ∈ [opOf 1 0 0, opOf 2 0 0], let s := engine op.cls (fun tl => { tl with hatchQ := [op] })
      s.tileReady 0 ∧ s.faults.inReset = [] ∧ (s.tile 0).holds op = false ∧ (s.tile 0).hatchQ = op :: [] ∧
      (s.tile 0).hatchRun ++ (s.tile 0).xhRun ++ (s.tile 0).memRun ++ (s.tile 0).commRun = []) ∧
    (let s := engine 3 (fun tl => { tl with xhQ := [opOf 3 0 0] });
      s.tileReady 0 ∧ s.faults.inReset = [] ∧ (s.tile 0).holds (opOf 3 0 0) = false ∧ (s.tile 0).xhQ = opOf 3 0 0 :: [] ∧
      (s.tile 0).hatchRun ++ (s.tile 0).xhRun ++ (s.tile 0).memRun ++ (s.tile 0).commRun = [] ∧
      s.rd F.PWR_DOMAIN_STATE [128] = 0) ∧
    (∀ op ∈ [memOp 4 0, memOp 5 0, memOp 0 0],
      let s := engine 4 (fun tl => { tl with memQ := [op] })
      s.tileReady 0 ∧ s.faults.inReset = [] ∧ (s.tile 0).holds op = false ∧ (s.tile 0).memQ = op :: [] ∧
      (s.tile 0).hatchRun ++ (s.tile 0).xhRun ++ (s.tile 0).memRun ++ (s.tile 0).commRun = [] ∧
      (s.tile 0).sourceVerdict op = none ∧ storeVerdict (s.tile 0) op (memMask (s.tile 0) op) = none ∧
      s.accessVerdict (.burin 0) (opBytes op (memMask (s.tile 0) op)) = none ∧ ∀ k < 8, s.rd F.PWR_DOMAIN_STATE [192 + k] = 0) := by
  unfold State.tileReady State.ready; decide

theorem atMem_meets (op : EngOp) (he : op.entry = 0) (hc : op.cls = 4) : memAt (atMem op) 0 0 op := by
  refine ⟨?_, ?_, hc, rfl, rfl, all_still _ _ rfl ready_still, no_handover _ _ rfl rfl⟩
  · exact ⟨⟨rfl, rfl⟩, show up.pwrState (64 + 0) = 0 by decide⟩
  · show opAt [op] 0 = some op
    simp [opAt, he]

/-- Nothing is poisoned in it. -/
theorem atMem_clean (op : EngOp) : cleanRead (atMem op) 0 op := ⟨rfl, fun _ _ h => nomatch h⟩

theorem witness_WordMemoryOperations :
    ∀ op ∈ [memOp 4 0, memOp 5 0, memOp 6 (word [(85, 10)]), memOp 6 (word [(85, 5)]), memOp 7 (word [(85, 14), (78, 1)])],
      memAt (atMem op) 0 0 op ∧ (atMem op).mem.wf = true ∧ cleanRead (atMem op) 0 op ∧
      (((atMem op).tile 0).thread 0).st ≠ .free ∧
      (op.opc ≤ 5 ∨ wFA op.w = 10 ∨ wFA op.w = 14 ∨ wFA op.w = 5) := by
  intro op h
  have : op.entry = 0 ∧ op.cls = 4 ∧ (op.opc ≤ 5 ∨ wFA op.w = 10 ∨ wFA op.w = 14 ∨ wFA op.w = 5) := by revert op; decide
  exact ⟨atMem_meets op this.1 this.2.1, rfl, atMem_clean op, nofun, this.2.2⟩

theorem witness_RegisterLoads : ∀ fm ∈ [0, 1, 2, 3, 4, 5, 8, 9, 10, 12, 13, 14], ∀ opc ∈ [0, 2],
    memAt (atMem (memOp opc (word [(85, fm)]))) 0 0 (memOp opc (word [(85, fm)])) ∧
    cleanRead (atMem (memOp opc (word [(85, fm)]))) 0 (memOp opc (word [(85, fm)])) ∧
    (Fmt.ofCode (wFA (word [(85, fm)]))).isSome := by
  intro fm h opc _
  exact ⟨atMem_meets _ rfl rfl, atMem_clean _, by revert fm; decide⟩

theorem witness_RegisterStores : ∀ p ∈ [(0, Fmt.q4), (5, Fmt.w32), (10, Fmt.i32)], ∀ opc ∈ [1, 3],
    memAt (atMem (memOp opc (word [(85, p.1)]))) 0 0 (memOp opc (word [(85, p.1)])) ∧ (opc = 1 ∨ opc = 3) ∧
    (atMem (memOp opc (word [(85, p.1)]))).mem.wf = true ∧ Fmt.ofCode (wFA (word [(85, p.1)])) = some p.2 := by
  intro p h opc ho
  exact ⟨atMem_meets _ rfl rfl, by simpa using ho, rfl, by revert p; decide⟩

theorem witness_FailedMemoryOperations : ∀ opc ∈ [0, 2, 5],
    memAt (atMem (memOp opc (word [(85, 10)]))) 0 0 (memOp opc (word [(85, 10)])) ∧ 64 < 2 ^ 48 :=
  fun _ _ => ⟨atMem_meets _ rfl rfl, by decide⟩

theorem witness_CrosshatchComplete : ∀ v ∈ [none, some (6, 0)],
    let s := atXh v
    let op := { opOf 3 0 0 with verdict := v }
    (s.tileReady 0 ∧ opAt (s.tile 0).xhRun 0 = some op ∧ op.cls = 3 ∧ op.opc = 0 ∧ ((s.tile 0).ticket 0).held = true ∧
      ((s.tile 0).ticket 0).result = none ∧ s.faults.inject = none ∧ (Fmt.ofCode (wFA op.w)).isSome ∧
      (Fmt.ofCode (wFB op.w)).isSome ∧ (Fmt.ofCode (wFD op.w)).isSome ∧ wRM op.w < 3) ∧
    (∀ k, ((s.tile 0).thread k).still) ∧ (∀ p, (s.tile p).handOver = none) ∧
    (∀ w ∈ wordsOf op.sc.sb (xmmBytes op.w) ++ wordsOf op.sc.sc (xmmScaleBytes op.w), w ∉ s.memPoison) := by
  intro v hv
  refine ⟨?_, all_still _ _ rfl ready_still, no_handover _ _ rfl rfl, fun w _ h => nomatch h⟩
  revert v; unfold State.tileReady State.ready; decide

theorem witness_TileWatchdog : ((atMem (memOp 5 0)).wr F.TILE_WDOG_PERIOD [0] 5).tileReady 0 ∧
    ((atMem (memOp 5 0)).wr F.TILE_WDOG_PERIOD [0] 5).inReset 0 0 = false ∧
    ((((atMem (memOp 5 0)).wr F.TILE_WDOG_PERIOD [0] 5).tile 0).thread 0).st = .ready ∧
    ((atMem (memOp 5 0)).wr F.TILE_WDOG_PERIOD [0] 5).rd F.TILE_WDOG_PERIOD [0] ≠ 0 := by
  unfold State.tileReady State.ready; decide

/-! ### Program images -/

/-- Tile 0 with slot 0 in a state, its image one thread with a ticket range of 8, every register granted, flags as given. -/
def slotAt (st : SlotSt) (flags : Nat) (threads : Tbl Thread) (tickets : Tbl Ticket) : State := upTile (fun tl => { tl with
  slots := [(0, { ImageSlot.fresh with st := st, codeSize := 2, threads := 1, perThread := 8, ranges := [0], flags := flags,
                                       vGrant := 2 ^ 32 - 1, mGrant := 255, tGrant := 255 })],
  threads := threads, tickets := tickets })

theorem witness_ImageCommandsTurnedAway :
    (∀ p ∈ [(SlotSt.loading, SlotSt.empty), (.empty, .loaded), (.loaded, .running)], let s := slotAt p.1 0 [] [];
      s.ready ∧ s.reaches .tileImgCmd [0] ∧ s.rd F.TILE_IMG_STATUS_BUSY [0] = 0 ∧ ((s.tile 0).slot 0).st ≠ p.2) ∧
    ((up.wr F.TILE_IMG_STATUS_BUSY [0] 1).ready ∧ (up.wr F.TILE_IMG_STATUS_BUSY [0] 1).reaches .tileImgCmd [0] ∧
      (up.wr F.TILE_IMG_STATUS_BUSY [0] 1).rd F.TILE_IMG_STATUS_BUSY [0] = 1) := by
  unfold State.reaches State.ready; decide

theorem witness_ImageLoadBegins : let s := (slotAt .empty 0 [] []).wr F.TILE_IMG_SRC_ADDR [0] 0x10000000040
    s.ready ∧ s.reaches .tileImgCmd [0] ∧ s.rd F.TILE_IMG_STATUS_BUSY [0] = 0 ∧ ((s.tile 0).slot 0).st = .empty ∧
    s.rd F.TILE_IMG_SRC_ADDR [0] % 64 = 0 ∧ s.rd F.TILE_IMG_SRC_ADDR [0] ≠ 0 := by
  unfold State.reaches State.ready; decide

theorem witness_ImageStarts : ∀ flags ∈ [0, 1], let s := slotAt .loaded flags [] []
    s.ready ∧ s.reaches .tileImgCmd [0] ∧ s.rd F.TILE_IMG_STATUS_BUSY [0] = 0 ∧ ((s.tile 0).slot 0).st = .loaded ∧
    (if flags = 1 then ((s.tile 0).slot 0).flags.testBit 0 = true ∧ s.on F.GLB_MODE_DETERM [] = false
     else ((s.tile 0).slot 0).flags.testBit 0 = false ∧ 0 < ((s.tile 0).slot 0).threads ∧
       ((s.tile 0).slot 0).threads ≤ ((List.range 128).filter (fun n => decide (((s.tile 0).thread n).st = .free))).length) := by
  unfold State.reaches State.ready; decide

/-- One thread of the slot is READY and holds a completed ticket, one is READY and holds an outstanding one, one belongs to
another slot. -/
def stopping : State :=
  slotAt .running 0
    [(0, { Thread.fresh with st := .ready, tkCount := 8 }), (1, { Thread.fresh with st := .ready, tkBase := 8, tkCount := 8 }),
     (2, { Thread.fresh with st := .ready, slot := 1 })]
    [(0, ⟨true, 0, 1, 1, some (0, 0)⟩), (8, ⟨true, 1, 1, 1, none⟩)]

theorem witness_ImageStops :
    stopping.ready ∧ stopping.reaches .tileImgCmd [0] ∧ stopping.rd F.TILE_IMG_STATUS_BUSY [0] = 0 ∧
    ((stopping.tile 0).slot 0).st = .running ∧ (stopping.tile 0).threads.sorted ∧
    (((stopping.tile 0).thread 0).st = .ready ∧ ((stopping.tile 0).thread 0).slot = 0 ∧
      ∀ e ∈ (stopping.tile 0).heldBy 0, ((stopping.tile 0).ticket e).result.isSome) ∧
    (((stopping.tile 0).thread 1).st = .ready ∧ ((stopping.tile 0).thread 1).slot = 0 ∧
      ∃ e ∈ (stopping.tile 0).heldBy 1, ((stopping.tile 0).ticket e).result = none) ∧
    (((stopping.tile 0).thread 2).still ∧ ((stopping.tile 0).thread 2).slot ≠ 0) := by
  unfold State.reaches State.ready Tbl.sorted Thread.still; decide

theorem witness_ImageUnloads : let s := slotAt .loaded 0 [] []
    s.ready ∧ s.reaches .tileImgCmd [0] ∧ s.rd F.TILE_IMG_STATUS_BUSY [0] = 0 ∧ ((s.tile 0).slot 0).st = .loaded := by
  unfold State.reaches State.ready; decide

/-! ### The end of a LOAD -/

/-- The bytes written at an address are what a read of them gives. -/
theorem read_write (m : Memory) (a : Nat) (bs : List Byte) (h : m.wf = true) (n : Nat) (hn : n ≤ bs.length) :
    (m.write a bs).read a n = bs.take n := by
  apply List.ext_getElem
  · simp [Memory.read]; omega
  · intro i h1 h2
    have hi : i < n := by simpa [Memory.read] using h1
    simp only [Memory.read, List.getElem_map, List.getElem_range, List.getElem_take]
    rw [Memory.readByte_write a (a + i) bs h, if_pos (by omega), Nat.add_sub_cancel_left]
    simp [nth, List.getElem?_eq_getElem (show i < bs.length by omega)]

/-- A part of the first of two lists. -/
theorem drop_take_head (h t : List Byte) (o k : Nat) (hk : o + k ≤ h.length) : ((h ++ t).drop o).take k = (h.drop o).take k := by
  rw [List.drop_append_of_le_length (by omega), List.take_append_of_le_length (by simp; omega)]

/-- A field of the first of two lists. -/
theorem leAt_head (h t : List Byte) (o k : Nat) (hk : o + k ≤ h.length) : leAt (h ++ t) o k = leAt h o k := by
  rw [leAt, leAt, drop_take_head h t o k hk]

/-- The header of an image of one instruction word and 64 bytes of data, up to its SIGNER_ID. -/
def imageHead : List Byte :=
  leBytes 4 0x4D494246 ++ leBytes 2 1 ++ [2, 0] ++ leBytes 4 1 ++ leBytes 4 64 ++ leBytes 4 0x80000 ++ leBytes 2 1 ++ leBytes 2 8 ++
  leBytes 4 255 ++ [1, 1] ++ leBytes 2 0 ++ leBytes 4 0 ++ leBytes 4 0 ++ leBytes 8 0

/-- That image with a SIGNER_ID and a signature. -/
def imageOf (sid sig : List Byte) : List Byte :=
  imageHead ++ (sid ++ (List.replicate 64 0 ++ (List.replicate 16 7 ++ (List.replicate 64 9 ++ sig))))

theorem imageHead_length : imageHead.length = 48 := by decide

/-- The public key of the witnesses, its private scalar 1. -/
def testKey : List Byte := keyBytes bpG

theorem testKey_length : testKey.length = 96 := by decide

/-- A key list of one program-signing key. -/
def keyList1 : List Byte := List.replicate 6 0 ++ [1] ++ List.replicate 105 0 ++ testKey

/-- The read of an image in HBM by slot 0 of tile 0; the key list is there, its key trusted or not. -/
def imageRead (trusted : Bool) (bs : List Byte) : State :=
  let s := upTile (fun tl => { tl with imgCmd := some (0, 0x10000000040, 0), slots := [(0, { ImageSlot.fresh with st := .loading })] })
  { s with mem := Memory.write [] 0x10000000040 bs,
           sec := { s.sec with keysOk := trusted, flash := { s.sec.flash with keyList := some keyList1 } } }

theorem imageRead_read (trusted : Bool) (bs : List Byte) (n : Nat) (hn : n ≤ bs.length) :
    (imageRead trusted bs).mem.read 0x10000000040 n = bs.take n := read_write [] _ bs rfl n hn

theorem signerId_length (key : List Byte) : (signerId key).length = 16 := by simp [signerId, beBytes, leBytes]

/-- What holds of every such read. -/
theorem imageRead_ready (trusted : Bool) (bs : List Byte) : let s := imageRead trusted bs
    s.ready ∧ (s.tile 0).imgCmd = some (0, 0x10000000040, 0) ∧ s.faults.inject = none ∧ s.mem.wf = true ∧
    s.rangeWin 0x10000000040 128 = some .hbm ∧ s.rangeWin 0x10000000040 304 = some .hbm ∧ s.memPoison = [] := by
  refine ⟨?_, ?_, ?_, Memory.write_wf _ _ rfl, ?_, ?_, ?_⟩
  · unfold State.ready; exact ⟨rfl, rfl⟩
  all_goals rfl

/-- A field of an image before its SIGNER_ID. -/
theorem imageOf_head (sid sig : List Byte) (o k : Nat) (h : o + k ≤ 48) :
    leAt (imageOf sid sig) o k = leAt (imageOf [] []) o k := by
  have l := imageHead_length
  rw [imageOf, imageOf, leAt_head _ _ _ _ (by omega), leAt_head _ _ _ _ (by omega)]

/-- A reserved byte of an image's header. -/
theorem imageOf_reserved (sid sig : List Byte) (hs : sid.length = 16) (i : Nat) (hi : i < 64) :
    leAt (imageOf sid sig) (0x40 + i) 1 = 0 := by
  have h : (imageOf sid sig)[0x40 + i]? = some 0 := by
    have l := imageHead_length
    rw [imageOf, List.getElem?_append_right (by omega), List.getElem?_append_right (by omega),
      List.getElem?_append_left (by simp; omega), List.getElem?_replicate_of_lt (by omega)]
  rw [leAt, List.take_one, List.head?_drop, h]
  rfl

/-- A field of the first part of a list. -/
theorem leAt_take (bs : List Byte) (n o k : Nat) (h : o + k ≤ n) : leAt (bs.take n) o k = leAt bs o k := by
  rw [leAt, leAt, List.drop_take, List.take_take, Nat.min_eq_left (by omega)]

/-- An image signed by a key of the key list is placed. -/
theorem imageOf_placed (sig : List Byte) (hs : sig.length = 96) :
    let key := testKey
    let s := imageRead true (imageOf (signerId key) sig)
    let hb := s.mem.read 0x10000000040 128
    let img := s.mem.read 0x10000000040 304
    sigOk key (img.take (img.length - 96)) (img.drop (img.length - 96)) = true →
    128 + 16 * leAt hb 8 4 + leAt hb 0xC 4 + 96 = 304 ∧ headerOk hb = true ∧ ∃ sl, s.imgPlace 0 img = .inr sl := by
  intro key s hb img
  have hk : (signerId key).length = 16 := signerId_length testKey
  have h304 : (imageOf (signerId key) sig).length = 304 := by simp [imageOf, hs, hk, imageHead_length]
  have h1 : hb = (imageOf (signerId key) sig).take 128 := imageRead_read _ _ _ (by omega)
  have h2 : img = imageOf (signerId key) sig := by
    rw [show img = (imageOf (signerId key) sig).take 304 from imageRead_read _ _ _ (by omega), List.take_of_length_le (by omega)]
  have h208 : img.length - 96 = 208 := by rw [h2, h304]
  intro hv
  rw [h208, h2] at hv
  have f : ∀ o k, o + k ≤ 48 → leAt img o k = leAt (imageOf [] []) o k := fun o k h => by rw [h2, imageOf_head _ _ _ _ h]
  have g : ∀ o k, o + k ≤ 48 → leAt hb o k = leAt (imageOf [] []) o k := fun o k h => by
    rw [h1, leAt_take _ _ _ _ (by omega), imageOf_head _ _ _ _ h]
  have hid : (img.drop 0x30).take 16 = signerId key := by
    rw [h2, imageOf, List.drop_left' imageHead_length, List.take_left' hk]
  have hany : s.programKeys.any (fun k => signerId k == signerId key && sigOk k (img.take 208) (img.drop 208)) = true := by
    rw [show s.programKeys = [key] from rfl, h2]
    simp only [List.any_cons, List.any_nil, Bool.or_false, beq_self_eq_true, Bool.true_and]
    exact hv
  have hres : (List.range 64).all (fun i => leAt hb (0x40 + i) 1 == 0) = true := by
    rw [List.all_eq_true]
    intro i hi
    rw [h1, leAt_take _ _ _ _ (by have := List.mem_range.mp hi; omega), imageOf_reserved _ _ hk i (List.mem_range.mp hi)]
    rfl
  refine ⟨?_, ?_, ?_⟩
  · rw [g _ _ (by decide), g _ _ (by decide)]; decide
  · rw [headerOk, hres]
    simp only [g _ _ (show 0 + 4 ≤ 48 by decide), g _ _ (show 4 + 2 ≤ 48 by decide), g _ _ (show 8 + 4 ≤ 48 by decide),
      g _ _ (show 0xC + 4 ≤ 48 by decide), g _ _ (show 0x10 + 4 ≤ 48 by decide), g _ _ (show 0x14 + 2 ≤ 48 by decide),
      g _ _ (show 0x16 + 2 ≤ 48 by decide), g _ _ (show 0x1E + 2 ≤ 48 by decide), g _ _ (show 0x24 + 4 ≤ 48 by decide)]
    decide
  · unfold State.imgPlace
    simp only [h208, hid, hany, f _ _ (show 8 + 4 ≤ 48 by decide), f _ _ (show 0xC + 4 ≤ 48 by decide),
      f _ _ (show 0x10 + 4 ≤ 48 by decide), f _ _ (show 0x14 + 2 ≤ 48 by decide), f _ _ (show 0x16 + 2 ≤ 48 by decide),
      f _ _ (show 0x1E + 2 ≤ 48 by decide), f _ _ (show 6 + 1 ≤ 48 by decide), f _ _ (show 7 + 1 ≤ 48 by decide),
      f _ _ (show 0x18 + 4 ≤ 48 by decide), f _ _ (show 0x1C + 1 ≤ 48 by decide), f _ _ (show 0x1D + 1 ≤ 48 by decide),
      f _ _ (show 0x20 + 4 ≤ 48 by decide), f _ _ (show 0x28 + 8 ≤ 48 by decide)]
    have v : leAt (imageOf [] []) 6 1 = 2 ∧ leAt (imageOf [] []) 7 1 = 0 ∧ leAt (imageOf [] []) 8 4 = 1 ∧
        leAt (imageOf [] []) 0xC 4 = 64 ∧ leAt (imageOf [] []) 0x10 4 = 0x80000 ∧ leAt (imageOf [] []) 0x14 2 = 1 ∧
        leAt (imageOf [] []) 0x16 2 = 8 := by decide
    have hc : s.closed (plateBase + 0 * plateSize + 0x80000) 64 = false :=
      (show s.closed _ _ = (imageRead true []).closed _ _ from rfl).trans (by decide +kernel)
    have hp : s.plateAdmits 0 (.burin 0) = true :=
      (show s.plateAdmits 0 (.burin 0) = (imageRead true []).plateAdmits 0 (.burin 0) from rfl).trans (by decide +kernel)
    have hb : bitOf 6 2 = true := by decide
    have hg : firstGap [] 1 16384 = some 0 := by decide
    have hr : firstRanges 8 512 1 [] = some [0] := by decide
    simp only [hb, hg, hr, List.map_nil, List.any_nil, List.flatten_nil, List.foldl_nil, v, show (s.tile 0).loaded = [] from rfl, show s.rd F.GLB_NUMLEVEL_SUPPORTED [] = 6 from rfl,
      hp, hc, ↓reduceIte,
      Bool.not_true, Bool.false_eq_true, Bool.or_false, Bool.and_false, Nat.not_lt_zero]
    exact ⟨_, rfl⟩

theorem signBytes_length (d k : Nat) (m : List Byte) : (signBytes d k m).length = 96 := by simp [signBytes, beBytes, leBytes]

/-- What is signed of that image. -/
def imageMsg : List Byte := imageOf (signerId testKey) []

theorem imageMsg_hash : hashNat imageMsg =
    0x3BE116A19816825B23A5A87190E704F5D1F7F5A5BD68724FDDCE6D87D4609275844744D781B348693576D1FE468458A5 := by
  decide +kernel

theorem imageMsg_signed : sigOk testKey imageMsg (signBytes 1 1 imageMsg) = true := by
  unfold sigOk signBytes
  rw [imageMsg_hash]
  decide +kernel

/-- With a key that is not trusted no signature counts; a signed image is placed. -/
theorem witness_ImageLoadDone :
    (let s := imageRead false (imageOf (List.replicate 16 0) (List.replicate 96 0))
     let hb := s.mem.read 0x10000000040 128
     128 + 16 * leAt hb 8 4 + leAt hb 0xC 4 + 96 = 304 ∧ headerOk hb = true ∧ s.programKeys = [] ∧
     s.imgPlace 0 (s.mem.read 0x10000000040 304) = .inl 2) ∧
    (let s := imageRead true (imageMsg ++ signBytes 1 1 imageMsg)
     let hb := s.mem.read 0x10000000040 128
     128 + 16 * leAt hb 8 4 + leAt hb 0xC 4 + 96 = 304 ∧ headerOk hb = true ∧
     ∃ sl, s.imgPlace 0 (s.mem.read 0x10000000040 304) = .inr sl) := by
  refine ⟨⟨?_, ?_, ?_, ?_⟩, ?_⟩
  · decide +kernel
  · decide +kernel
  · decide +kernel
  · decide +kernel
  · have hs := signBytes_length 1 1 imageMsg
    have hl : imageMsg.length = 208 := by simp [imageMsg, imageOf, signerId_length, imageHead_length]
    have e : imageOf (signerId testKey) (signBytes 1 1 imageMsg) = imageMsg ++ signBytes 1 1 imageMsg := by
      simp [imageMsg, imageOf]
    have h := imageOf_placed _ hs
    dsimp only at h
    rw [e] at h
    refine h ?_
    have h304 : (imageMsg ++ signBytes 1 1 imageMsg).length = 304 := by simp [hl, hs]
    rw [imageRead_read _ _ _ (Nat.le_of_eq h304.symm), List.take_of_length_le (Nat.le_of_eq h304)]
    rw [show (imageMsg ++ signBytes 1 1 imageMsg).length - 96 = imageMsg.length by simp [hs], List.take_left, List.drop_left]
    exact imageMsg_signed

/-! ### Communicators -/

/-- Numbers of so many bytes written to memory, little-endian, at offsets from an address. -/
def poke (s : State) (a : Nat) (l : List (Nat × Nat × Nat)) : State :=
  { s with mem := l.foldl (fun m x => m.write (a + x.1) (leBytes x.2.1 x.2.2)) s.mem }

/-- A packet to the plates endpoint of die 0 of switch 0 from an endpoint of it, its trailer good. -/
def pkt (kind cls src : Nat) (f : Pkt → Pkt) : Pkt := (f { Pkt.make kind cls 33 src with syn := kindOrdered kind }).seal

theorem witness_CommunicatorReports :
    ((up.wr F.GLB_COMM_STATUS_BUSY [] 1).ready ∧ (up.wr F.GLB_COMM_STATUS_BUSY [] 1).reaches .glbCommCmd [] ∧
      (up.wr F.GLB_COMM_STATUS_BUSY [] 1).rd F.GLB_COMM_STATUS_BUSY [] = 1) ∧
    (commIdle up ∧ up.comm 0 = none) ∧
    (∀ st ∈ [1, 2, 3], commIdle (withComm up (comm0 st two [])) ∧
      holdsComm (withComm up (comm0 st two [])) 0 (comm0 st two [])) := by
  unfold commIdle holdsComm State.reaches State.ready; decide

/-- A collective at its start. -/
def coll0 (op : Nat) : Coll :=
  ⟨0, op, .i32, 0, 0, 1, 0, 0, 0, 0, 0, 0, 0, 1, [], none, false, false, 0, [], [], [], [], [], [], [], [], [], [], [], [MemSt.fresh, MemSt.fresh],
    0, [], [], [], none, none, false, false⟩

theorem witness_CommunicatorCommands :
    (commIdle up ∧ up.comm 0 = none) ∧
    (commIdle (withComm up (comm0 3 two [])) ∧ holdsComm (withComm up (comm0 3 two [])) 0 (comm0 3 two []) ∧
      (comm0 3 two []).ops = [] ∧ (comm0 3 two []).st = 3) ∧
    (commIdle (withComm up (comm0 2 two [coll0 0])) ∧ holdsComm (withComm up (comm0 2 two [coll0 0])) 0 (comm0 2 two [coll0 0]) ∧
      (comm0 2 two [coll0 0]).ops ≠ []) := by
  unfold commIdle holdsComm State.reaches State.ready; decide

/-- A CREATE of ID 0 whose descriptor, at the start of HBM, has one member and no other switch. -/
def creating (level : Nat) : State :=
  poke { ((up.wr F.GLB_COMM_SRC_ARG [] 0x10000000000).wr F.GLB_STAGE_POOL_HBM_MIB [] 1).wr F.GLB_STAGE_POOL_PLATE_KIB [] 1 with
    cs := { CollSt.fresh with creating := some 0 } } 0x10000000000
    [(4, 1, level), (5, 1, 4), (7, 1, 1), (8, 4, 4096), (0xC, 2, 2), (0x10, 4, 1), (0x14, 4, 1), (0x20, 8, 0x10000001000),
     (0x28, 4, 9), (0x140, 1, 1), (0x180, 1, 1), (0x1C0, 1, 1)]

/-- Everything that decides how a CREATE ends. -/
def createFacts (s : State) : Bool × Bool × Bool × Bool × Bool :=
  let bs := s.mem.read (s.rd F.GLB_COMM_SRC_ARG []) 512
  let d := parseDesc bs
  (decide (s.rd F.GLB_COMM_SRC_ARG [] % 64 = 0), s.inDram (s.rd F.GLB_COMM_SRC_ARG []) 512, s.descOk 0 bs,
    (s.rd F.GLB_NUMLEVEL_SUPPORTED []).testBit d.level,
    decide (s.plateKib + d.plate ≤ s.rd F.GLB_STAGE_POOL_PLATE_KIB [] * 64) &&
      decide (s.hbmQuota + (d.quota - d.plate) ≤ s.rd F.GLB_STAGE_POOL_HBM_MIB [] * 1024))

/-- A state in which CREATE of ID 0 reads its descriptor. -/
def createReady (s : State) : Prop := s.ready ∧ s.cs.creating = some 0 ∧ s.comm 0 = none ∧ s.faults.inject = none

/-- Its descriptor word for word as it decides: aligned, in DRAM, sound, at a supported level, in quota. -/
theorem witness_CommunicatorCreated :
    (createReady ((creating 1).wr F.GLB_COMM_SRC_ARG [] 0x10000000001) ∧
      (createFacts ((creating 1).wr F.GLB_COMM_SRC_ARG [] 0x10000000001)).1 = false) ∧
    (createReady ((creating 1).wr F.GLB_COMM_SRC_ARG [] 0) ∧ createFacts ((creating 1).wr F.GLB_COMM_SRC_ARG [] 0) =
      (true, false, false, false, true)) ∧
    (createReady ((creating 1).wr F.GLB_COMM_SRC_ARG [] 0x10000000040) ∧
      createFacts ((creating 1).wr F.GLB_COMM_SRC_ARG [] 0x10000000040) = (true, true, false, false, true)) ∧
    (createReady (creating 0) ∧ createFacts (creating 0) = (true, true, true, false, true)) ∧
    (createReady (creating 2) ∧ createFacts (creating 2) = (true, true, true, true, true) ∧ (creating 2).cs.comms = [] ∧
      (creating 2).memPoison = []) := by
  unfold createReady State.ready; refine ⟨?_, ?_, ?_, ?_, ?_⟩ <;> decide

/-- Eight express communicators there already, and a descriptor that asks for express: no room. A plate share without plates:
no quota. -/
theorem witness_CommunicatorCreated_full :
    (let c : Comm := { comm0 2 two [] with desc := { (comm0 2 two []).desc with express := true } }
     let s := poke (creating 1) 0x10000000000 [(6, 1, 1)]
     let s := { s with cs := { s.cs with comms := [1, 2, 3, 4, 5, 6, 7, 8].map (fun k => (k, c)) } }
     createReady s ∧ (createFacts s).2.2 = (true, true, true) ∧
       (parseDesc (s.mem.read 0x10000000000 512)).express = true ∧
       (s.cs.comms.filter (fun (e : Nat × Comm) => e.2.desc.express)).length = 8) ∧
    (let s := (poke (creating 1) 0x10000000000 [(0x28, 4, 64), (0x2C, 4, 64)]).wr F.GLB_STAGE_POOL_PLATE_KIB [] 0
     createReady s ∧ createFacts s = (true, true, true, true, false) ∧
       s.rd F.GLB_STAGE_POOL_PLATE_KIB [] * 64 < s.plateKib + (parseDesc (s.mem.read 0x10000000000 512)).plate) := by
  unfold createReady State.ready; decide

/-- A communicator whose Z ring this switch shares with switch 1. -/
def ringed (st : Nat) (determ arming : Bool) : Comm :=
  { comm0 st two [] with
    desc := { (comm0 st two []).desc with levels := [⟨2, 0, [0, 1]⟩, ⟨1, 0, [0]⟩, ⟨1, 0, [0]⟩] }, determ := determ, arming := arming }

theorem witness_CommunicatorArms :
    (commIdle (withComm up (comm0 1 two [])) ∧ holdsComm (withComm up (comm0 1 two [])) 0 (comm0 1 two []) ∧
      (comm0 1 two []).peers = []) ∧
    (commIdle (withComm up (ringed 1 true false)) ∧ holdsComm (withComm up (ringed 1 true false)) 0 (ringed 1 true false) ∧
      (ringed 1 true false).peers ≠ [] ∧ (ringed 1 true false).digests = []) := by
  unfold commIdle holdsComm State.reaches State.ready; decide

/-- The digest that switch 1 sends of such a communicator. -/
def digestPkt (c : Comm) : Pkt := pkt kDIGEST 6 (64 + 39) (fun p => { p with dst := 39, payload := c.digest 1, flags := 1 })

/-- What arrives, and that it is what the receiver must compare. -/
def digestComes (s : State) (c : Comm) (p : Pkt) : Prop :=
  s.ready ∧ holdsComm s 0 c ∧ s.hears kDIGEST p.encode p ∧ p.comm = 0 ∧
  c.peers.find? (fun q => q.2 == p.src / 64 && q.1 / 16 == digestLevel p.payload) = some (17, 1)

theorem witness_CommunicatorAgrees :
    digestComes (withComm up (ringed 1 true false)) (ringed 1 true false) (digestPkt (ringed 1 true false)) ∧
    (digestComes (withComm up (ringed 1 true true)) (ringed 1 true true) (digestPkt (ringed 1 false false)) ∧
      digestBody (digestPkt (ringed 1 false false)).payload ≠ digestBody ((ringed 1 true true).digest 1)) ∧
    (digestComes (withComm up (ringed 1 true true)) (ringed 1 true true) (digestPkt (ringed 1 true false)) ∧
      (ringed 1 true true).peers = [(17, 1)] ∧
      digestBody (digestPkt (ringed 1 true false)).payload = digestBody ((ringed 1 true true).digest 1)) ∧
    (digestComes (withComm up (ringed 2 true false)) (ringed 2 true false) (digestPkt (ringed 1 true false)) ∧
      leAt (digestPkt (ringed 1 true false)).payload ((digestPkt (ringed 1 true false)).payload.length - 1) 1 = 1) ∧
    ((withComm up (ringed 1 true true)).wr F.GLB_COMM_TIMEOUT_LIMIT [] 5).rd F.GLB_COMM_TIMEOUT_LIMIT [] ≠ 0 := by
  unfold digestComes holdsComm State.hears State.ready; simp only [inTurn_iff]; refine ⟨?_, ?_, ?_, ?_, ?_⟩ <;> decide +kernel

/-- Switch 1 and this one in a ring, the member on port 3 with credits. -/
def staging (cred : Nat) : Comm := { ringed 2 true false with memCred := [(1, cred)] }

/-- A message of four bytes for number 0: members send from port 3, switches from their plates with level 1 in ARG. -/
def message (kind : Nat) : Pkt :=
  if kind = kCONTRIB then pkt kind 2 3 (fun p => { p with payload := leBytes 4 7, flags := 3 })
  else if kind = kTOKEN then pkt kind 4 3 (fun p => { p with payload := leBytes 4 7, flags := 3 })
  else pkt kind (if kind = kPARTIAL then 2 else 3) (64 + 33) (fun p => { p with payload := leBytes 4 7, flags := 3, arg := 1 })

/-- What MessagesAheadOfLaunch asks of a message of this kind. -/
def arrivesEarly (cred kind who : Nat) : Prop :=
  (withComm up (staging cred)).ready ∧ holdsComm (withComm up (staging cred)) 0 (staging cred) ∧ (staging cred).st = 2 ∧
  (staging cred).pause = none ∧ (message kind).comm = 0 ∧ (message kind).pktIdx = 0 ∧ (message kind).msgLast = 0 ∧
  (staging cred).coll (message kind).opseq = none ∧ ((message kind).opseq + 2 ^ 32 - (staging cred).next) % 2 ^ 32 < 8 ∧
  (withComm up (staging cred)).senderOf (staging cred) (message kind) = some who ∧
  (withComm up (staging cred)).hears kind (message kind).encode (message kind)

theorem witness_MessagesAheadOfLaunch :
    (arrivesEarly 1 kCONTRIB 1 ∧ arrivesEarly 1 kTOKEN 1 ∧ 0 < Tbl.look 0 (staging 1).memCred 1) ∧
    (arrivesEarly 1 kPARTIAL 1 ∧ arrivesEarly 1 kRESULT 1) ∧
    (arrivesEarly 0 kCONTRIB 1 ∧ arrivesEarly 0 kTOKEN 1 ∧ Tbl.look 0 (staging 0).memCred 1 = 0) := by
  unfold arrivesEarly holdsComm State.hears State.ready; simp only [inTurn_iff]; refine ⟨?_, ?_, ?_⟩ <;> decide +kernel

/-- Five credits of the plus direction of level Z. -/
def creditPkt : Pkt := pkt kCREDIT 3 (64 + 33) (fun p => { p with flags := 3, arg := 5 + 1 * 2 ^ 16 })

theorem witness_CreditsArrive : (withComm up (staging 1)).ready ∧ holdsComm (withComm up (staging 1)) 0 (staging 1) ∧
    (staging 1).st = 2 ∧ (staging 1).outs = [] ∧ creditPkt.comm = 0 ∧
    (withComm up (staging 1)).hears kCREDIT creditPkt.encode creditPkt ∧ creditPkt.arg / 2 ^ 16 % 4 ≠ 0 ∧
    (∀ path < 2, Tbl.look 0 (staging 1).cred (credKey (creditPkt.arg / 2 ^ 16 % 4) (creditPkt.arg / 2 ^ 18 % 2) path) ≤
      (staging 1).desc.window) := by
  unfold holdsComm State.hears State.ready; simp only [inTurn_iff]; decide +kernel

/-! ### Collectives -/

/-- Accelerators on ports 2 and 3. -/
def away : List Member := [⟨0, 2, 0⟩, ⟨1, 3, 0⟩]

/-- Their contributions to chunk 0. -/
def gave (m : Nat) : Staged := ⟨0, 0, kCONTRIB, 0, 0, m, 2 + m, leBytes 4 (7 + m), false, true, 0, false⟩

/-- A collective of that communicator as `f` makes it. -/
def runs (f : Coll → Coll) (op : Nat) : Comm := comm0 2 away [f (coll0 op)]

theorem witness_ChunkCombined :
    (running (withComm up (runs (fun x => { x with staged := [gave 0, gave 1] }) 0)) 0 0
      (runs (fun x => { x with staged := [gave 0, gave 1] }) 0) { coll0 0 with staged := [gave 0, gave 1] }) ∧
    (up.tile 0).testHold = false ∧ intakeOk (runs id 0) { coll0 0 with staged := [gave 0, gave 1] } 0 ∧
    (∀ m < 2, ((runs id 0).mem m).ep ≠ 0xFF ∧ contribOf { coll0 0 with staged := [gave 0, gave 1] } m 0 = some (gave m) ∧
      (gave m).bad = false ∧ (gave m).data.length = 4 * (coll0 0).size (runs id 0) 0) ∧
    redOpc 0 = true ∧ (coll0 0).fmt = .i32 ∧ (coll0 0).parts = [] ∧ (coll0 0).upDone = [] ∧ (coll0 0).seen = [] := by
  unfold running holdsComm intakeOk State.ready; decide

/-- What this switch has formed of chunk 0. -/
def formed (level : Nat) : Part := ⟨0, level, [.int 7], [], false, 0⟩

theorem witness_ChunkFinished :
    (∀ bad, running (withComm up (runs (fun x => { x with parts := [{ formed 0 with bad := bad }] }) 0)) 0 0
      (runs (fun x => { x with parts := [{ formed 0 with bad := bad }] }) 0) { coll0 0 with parts := [{ formed 0 with bad := bad }] }) ∧
    (up.tile 0).testHold = false ∧ up.machineUp (tileDie (coll0 0).home) = true ∧ (runs id 0).rings = [] ∧ (coll0 0).seen = [] ∧ (coll0 0).acked = [] ∧
    (runs id 0).desc.members.length ≤ 16 := by
  unfold running holdsComm State.ready; decide

/-- Chunk 0 with its owner, switch 0, in position 0: switch 1 of a ring of two starts it and sends it on in the plus
direction. -/
def ringOf (x : Coll) : Comm :=
  { comm0 2 away [x] with
    desc := { (comm0 2 away []).desc with levels := [⟨2, 1, [1, 0]⟩, ⟨1, 0, [0]⟩, ⟨1, 0, [0]⟩] }, determ := false }

theorem witness_PartialLeaves :
    (running (withComm up (ringOf { coll0 0 with parts := [formed 0] })) 0 0 (ringOf { coll0 0 with parts := [formed 0] })
      { coll0 0 with parts := [formed 0] }) ∧
    redOpc 0 = true ∧ (ringOf (coll0 0)).rings.filter (fun k => decide (0 < k)) = [1] ∧
    (ringOf (coll0 0)).desc.express = false ∧ (ringOf (coll0 0)).determ = false ∧
    ringNext ((ringOf (coll0 0)).lv 1).size (1 - 0 % 2) ((ringOf (coll0 0)).lv 1).pos = (ringOf (coll0 0)).owner 1 0 := by
  unfold running holdsComm State.ready; decide

theorem witness_CollectiveTimeout :
    (withComm up (runs id 0)).ready ∧ holdsComm (withComm up (runs id 0)) 0 (runs id 0) ∧ (runs id 0).coll 0 = some (coll0 0) ∧
    (coll0 0).stage = 0 ∧ (coll0 0).fin = none ∧
    ((withComm up (runs id 0)).wr F.GLB_COMM_TIMEOUT_LIMIT [] 5).rd F.GLB_COMM_TIMEOUT_LIMIT [] ≠ 0 := by
  unfold holdsComm State.ready; decide

/-- Both pieces of an AGMM have landed, each of one chunk. -/
theorem witness_AgmmPieceMultiplied :
    (running (withComm up (runs (fun x => { x with seen := [0, 1], gens := 2 }) 6)) 0 0
      (runs (fun x => { x with seen := [0, 1], gens := 2 }) 6) { coll0 6 with seen := [0, 1], gens := 2 }) ∧
    0 < (runs id 6).desc.nranks ∧ (coll0 6).used = [] ∧ (runs id 6).determ = true ∧ (coll0 6).per (runs id 6) = 1 := by
  unfold running holdsComm State.ready; decide

/-! ### Dispatch and combine -/

/-- A DISP of one token for slot 0, whose group 0 has the working state `d`. -/
def dispOf (d : DispSt) : Coll := { coll0 0x10 with disp := some d }

/-- That token is there. -/
def tokenIn : DispSt := { DispSt.fresh with slot := some 0, holds := true, tokens := [(0, ⟨leBytes 4 7, false, false, false⟩)] }

/-- The switch with that DISP and a matrix in slot 0. -/
def gating (d : DispSt) : State := (withComm up (comm0 2 away [dispOf d])).wr F.GLB_GATE_SLOT_STATE [0] 2

theorem witness_GatingGroupStarts :
    (running (gating tokenIn) 0 0 (comm0 2 away [dispOf tokenIn]) (dispOf tokenIn) ∧
      16 * 0 < (dispOf tokenIn).gens ∧ (dispOf tokenIn).dispSt.holds = true ∧
      (gating tokenIn).rd F.GLB_GATE_SLOT_STATE [(dispOf tokenIn).dispSt.slot.getD 0] = 2 ∧
      0 ∉ (dispOf tokenIn).dispSt.started ∧
      Run.previousDecided ⟨gating tokenIn, comm0 2 away [dispOf tokenIn], dispOf tokenIn⟩ = true) ∧
    (∀ i, i < (dispOf tokenIn).gens → (Tbl.find i (dispOf tokenIn).dispSt.tokens).isSome) := by
  constructor
  · unfold running holdsComm State.ready; decide
  · decide

/-- Token 0 declared absent, its group started. -/
def absentIn : DispSt :=
  { DispSt.fresh with slot := some 0, holds := true, tokens := [(0, ⟨[], true, false, false⟩)], started := [0] }

theorem witness_GatingGroupDone :
    running (gating absentIn) 0 0 (comm0 2 away [dispOf absentIn]) (dispOf absentIn) ∧
    (gating absentIn).faults.inject = none ∧ (gating absentIn).memPoison = [] ∧ (dispOf absentIn).gens = 16 * 0 + 1 ∧
    0 ∈ (dispOf absentIn).dispSt.started ∧ (dispOf absentIn).dispSt.gated = [] ∧
    Tbl.find 0 (dispOf absentIn).dispSt.route = none ∧ (dispOf absentIn).dispSt.route.length = 0 ∧
    ((comm0 2 away [dispOf absentIn]).mem ((comm0 2 away [dispOf absentIn]).tokenMem 0)).ep ≠ 0xFF ∧
    (Tbl.look ⟨[], true, false, false⟩ (dispOf absentIn).dispSt.tokens 0).absent = true ∧
    (comm0 2 away [dispOf absentIn]).tokenMem 0 < (dispOf absentIn).mems.length := by
  unfold running holdsComm State.ready; decide

/-- An answer area of DISP 0 with one slot of expert 0 placed; answers are one 32-bit integer. -/
def answering : Comm :=
  { comm0 2 away [] with
    areas := [⟨0, 64, List.replicate 0x15 0 ++ [10, 0, 0, 1, 0, 0, 0], [(0, 1)], 0, true, [], 0⟩] }

/-- An answer to a slot of expert 0. -/
def answerPkt (slot : Nat) : Pkt := pkt kANSWER 5 20 (fun p => { p with payload := leBytes 4 9, flags := 3, arg := slot })

theorem witness_AnswersArrive : ∀ slot < 2,
    (withComm up answering).ready ∧ holdsComm (withComm up answering) 0 answering ∧
    (withComm up answering).hears kANSWER (answerPkt slot).encode (answerPkt slot) ∧ (answerPkt slot).comm = 0 ∧
    (answerPkt slot).pktIdx = 0 ∧ (answerPkt slot).msgLast = 0 ∧
    answering.area (answerPkt slot).opseq = some (nth ⟨0, 0, [], [], 0, false, [], 0⟩ answering.areas 0) ∧ answering.ops = [] ∧
    (if slot = 0 then (answerPkt slot).arg % 2 ^ 16 < Tbl.look 0 (nth ⟨0, 0, [], [], 0, false, [], 0⟩ answering.areas 0).placed 0
     else Tbl.look 0 (nth ⟨0, 0, [], [], 0, false, [], 0⟩ answering.areas 0).placed 0 ≤ (answerPkt slot).arg % 2 ^ 16) := by
  unfold holdsComm State.hears State.ready; simp only [inTurn_iff]; decide +kernel

/-! ### Gate slots and pauses -/

/-- The switch with a channel of DDR5, a pool of one slot of 1 KiB, and a gate entry of 128 bytes at the start of DDR5 whose
CRC is `crc`. -/
def library (crc : Nat) : State :=
  poke (((((up.wr F.DDR_CH_STATUS_TRAINED [0] 1).wr F.DDR_CH_STATUS_SIZE_GIB [0] 16).wr F.GLB_GATE_POOL_SLOTS [] 1).wr
    F.GLB_GATE_POOL_SLOT_KIB [] 1).wr F.GLB_GATE_SRC_ADDR [] 0x20000000000) 0x20000000000
    [(0, 4, 0x45544147), (4, 2, 1), (6, 1, 4), (8, 8, 77), (0x10, 2, 1), (0x14, 4, 32), (0x18, 4, 64), (0x24, 4, crc)]

/-- What GateCommands asks beside the slot's state. -/
def gateIdle (s : State) : Prop := s.ready ∧ s.reaches .glbGateCmd [] ∧ s.rd F.GLB_GATE_STATUS_BUSY [] = 0

theorem witness_GateCommands :
    ((up.wr F.GLB_GATE_STATUS_BUSY [] 1).ready ∧ (up.wr F.GLB_GATE_STATUS_BUSY [] 1).reaches .glbGateCmd [] ∧
      (up.wr F.GLB_GATE_STATUS_BUSY [] 1).rd F.GLB_GATE_STATUS_BUSY [] = 1) ∧
    (gateIdle up ∧ up.rd F.GLB_GATE_POOL_SLOTS [] ≤ 0) ∧
    (gateIdle (library 0) ∧ 0 < (library 0).rd F.GLB_GATE_POOL_SLOTS [] ∧ (library 0).rd F.GLB_GATE_SLOT_STATE [0] = 0 ∧
      (library 0).entryVerdict ((library 0).rd F.GLB_GATE_SRC_ADDR []) false = none) ∧
    (gateIdle ((library 0).wr F.GLB_GATE_SRC_ADDR [] 0x20000000001) ∧
      ((library 0).wr F.GLB_GATE_SRC_ADDR [] 0x20000000001).entryVerdict 0x20000000001 false = some 1) ∧
    (∀ use < 2, gateIdle (((library 0).wr F.GLB_GATE_SLOT_STATE [0] 2).wr F.GLB_GATE_SLOT_USE [0] use) ∧
      (((library 0).wr F.GLB_GATE_SLOT_STATE [0] 2).wr F.GLB_GATE_SLOT_USE [0] use).rd F.GLB_GATE_SLOT_STATE [0] = 2 ∧
      (((library 0).wr F.GLB_GATE_SLOT_STATE [0] 2).wr F.GLB_GATE_SLOT_USE [0] use).rd F.GLB_GATE_SLOT_USE [0] = use) := by
  unfold gateIdle State.reaches State.ready; decide

/-- The entry's CRC: that of 64 zero bytes. -/
def entryCrc : Nat := crc32c (List.replicate 64 0)

/-- A LOAD of that entry into slot 0 whose read ends. -/
def paging (crc : Nat) : State :=
  { (library crc).wr F.GLB_GATE_SLOT_STATE [0] 1 with
    cs := { CollSt.fresh with gates := [(0, ⟨0x20000000000, (library crc).mem.read 0x20000000000 64, 0⟩)], loading := some 0 } }

theorem witness_PageInDone :
    (∀ crc ∈ [entryCrc, 0], (paging crc).ready ∧ (paging crc).rd F.GLB_GATE_SLOT_STATE [0] = 1 ∧ (paging crc).cs.comms = [] ∧
      (paging crc).cs.loading = some 0 ∧ (paging crc).faults.inject = none ∧ (paging crc).mem.wf = true ∧
      (paging crc).memPoison = [] ∧ (paging crc).machineUp (machineDie ((paging crc).gate 0).src) = true ∧ hdrBytes ((paging crc).gate 0).hdr = 128 ∧ ((paging crc).gate 0).src = 0x20000000000 ∧
      hdrOk ((paging crc).mem.read 0x20000000000 128) = true ∧
      ((paging crc).mem.read 0x20000000000 128).take 0x40 = ((paging crc).gate 0).hdr ∧
      (crc32c (((paging crc).mem.read 0x20000000000 128).drop 0x40) = leAt ((paging crc).mem.read 0x20000000000 128) 0x24 4 ↔
        crc ≠ 0)) ∧
    (∀ p < 64, ∀ q < 64, p ≠ q → (paging entryCrc).slotAddr p 0 + 128 ≤ (paging entryCrc).slotAddr q 0 ∨
      (paging entryCrc).slotAddr q 0 + 128 ≤ (paging entryCrc).slotAddr p 0) ∧
    (let s := (paging 0).wr F.DM_STATUS_HALTED [0] 1
     s.ready ∧ s.rd F.GLB_GATE_SLOT_STATE [0] = 1 ∧ s.faults.inject = none ∧ s.mem.wf = true ∧ s.machineUp (machineDie (s.gate 0).src) = false) := by
  refine ⟨?_, ?_, ?_⟩
  · unfold State.ready; decide +kernel
  rotate_left
  · unfold State.ready; decide
  · intro p _ q _ hpq
    have h1 : (paging entryCrc).rd F.GLB_STAGE_POOL_PLATE_KIB [] = 0 := by decide
    have h2 : (paging entryCrc).rd F.GLB_GATE_POOL_SLOT_KIB [] = 1 := by decide
    simp only [State.slotAddr, h1, h2, plateBase, plateSize]
    omega

/-- Nothing but GLB_PAUSE_CMD idle. -/
def pauseIdle (s : State) : Prop :=
  s.ready ∧ s.reaches .glbPauseCmd [] ∧ s.rd F.GLB_PAUSE_STATUS_BUSY [] = 0 ∧ s.cs.pausing = none

theorem witness_PauseCommands :
    ((up.wr F.GLB_PAUSE_STATUS_BUSY [] 1).ready ∧ (up.wr F.GLB_PAUSE_STATUS_BUSY [] 1).reaches .glbPauseCmd [] ∧
      (up.wr F.GLB_PAUSE_STATUS_BUSY [] 1).rd F.GLB_PAUSE_STATUS_BUSY [] = 1) ∧
    (pauseIdle up ∧ up.comm 0 = none) ∧
    (pauseIdle (withComm up (comm0 3 away [])) ∧ holdsComm (withComm up (comm0 3 away [])) 0 (comm0 3 away [])) ∧
    (∀ at_ < 2, pauseIdle ((withComm up (runs id 0)).wr F.GLB_PAUSE_AT_AT [] at_) ∧
      holdsComm (withComm up (runs id 0)) 0 (runs id 0) ∧ (runs id 0).st = 2 ∧ (runs id 0).desc.express = false ∧
      (∀ x ∈ (runs id 0).ops, x.op < 5 ∨ x.op = 7) ∧
      (if at_ = 0 then ((withComm up (runs id 0)).wr F.GLB_PAUSE_AT_AT [] at_).rd F.GLB_PAUSE_AT_AT [] ≤ up.now
       else up.now < ((withComm up (runs id 0)).wr F.GLB_PAUSE_AT_AT [] at_).rd F.GLB_PAUSE_AT_AT [])) ∧
    (pauseIdle (withComm up (comm0 2 away [])) ∧ holdsComm (withComm up (comm0 2 away [])) 0 (comm0 2 away []) ∧
      (comm0 2 away []).ops = []) := by
  unfold pauseIdle holdsComm State.reaches State.ready; refine ⟨?_, ?_, ?_, ?_, ?_⟩ <;> decide

/-- A communicator paused at 0 with its save area at the start of DDR5. -/
def pausing (held : Bool) (savedAt : Option Nat) : Comm :=
  { runs id 0 with pause := some ⟨0, 0, 0x20000000000, held, savedAt⟩ }

theorem witness_PauseSaves :
    (∀ p ∈ [(false, none), (true, none), (true, some 0)], (withComm (library 0) (pausing p.1 p.2)).ready ∧
      holdsComm (withComm (library 0) (pausing p.1 p.2)) 0 (pausing p.1 p.2) ∧
      (pausing p.1 p.2).pause = some ⟨0, 0, 0x20000000000, p.1, p.2⟩ ∧ (library 0).mem.wf = true) ∧
    (0 ≤ (library 0).now ∧ 0 + 0 * 1000 ≤ (library 0).now ∧ (library 0).retains 0 = false) ∧
    (((pausing true (some 0)).saveRecord 0).length ≤ 65536 + 2 * (pausing true (some 0)).desc.quota * 1024 ∧
      (library 0).rangeWin 0x20000000000 (65536 + 2 * (pausing true (some 0)).desc.quota * 1024) = some .ddr ∧
      (library 0).machineUp (machineDie 0x20000000000) = true) := by
  refine ⟨?_, ?_, ?_⟩
  · unfold holdsComm State.ready; decide
  · decide
  · decide +kernel

/-- A misaligned area, one outside DDR5 and one behind a datamover that has stopped. -/
theorem witness_PauseSaves_fails :
    (∀ a ∈ [0x20000000001, 0], let c := { pausing true (some 0) with pause := some ⟨0, 0, a, true, some 0⟩ }
      (withComm (library 0) c).ready ∧ holdsComm (withComm (library 0) c) 0 c ∧
      (a % 64 ≠ 0 ∨ (library 0).rangeWin a (65536 + 2 * c.desc.quota * 1024) ≠ some .ddr)) ∧
    (let s := (withComm (library 0) (pausing true (some 0))).wr F.DM_STATUS_HALTED [0] 1
     s.ready ∧ holdsComm s 0 (pausing true (some 0)) ∧ s.machineUp (machineDie 0x20000000000) = false) := by
  unfold holdsComm State.ready; refine ⟨?_, ?_⟩ <;> decide

/-- The record of a communicator, as it lies in DDR5, while RESUME loads it for another one from an address. -/
def resuming (saved : Comm) (arg : Nat) : State :=
  { (library 0) with
    mem := (library 0).mem.write 0x20000001000 (saved.saveRecord 0),
    cs := { CollSt.fresh with comms := [(0, comm0 2 away [])], pausing := some (2, 0, arg) } }

/-- Everything that decides how a RESUME ends: alignment, window, magic and version, length, CRC, the communicator's fields. -/
def resumeFacts (s : State) (a : Nat) : Bool × Bool × Bool × Bool × Bool × Bool :=
  let h := s.mem.read a 256
  let n := leAt h 0x20 8
  let bs := s.mem.read a n
  (decide (a % 64 = 0), decide (s.rangeWin a 256 = some .ddr), decide (leAt h 0 4 = 0x56415350 ∧ leAt h 4 2 = 1),
    decide (256 ≤ n) && decide (s.rangeWin a n = some .ddr),
    decide (crc32c (bs.take 0x28 ++ leBytes 4 0 ++ bs.drop 0x2C) = leAt h 0x28 4), recordMatches (comm0 2 away []) h)

theorem witness_ResumeLoads :
    ((resuming (comm0 2 away []) 0).ready ∧ (resuming (comm0 2 away []) 0).cs.pausing = some (2, 0, 0) ∧
      holdsComm (resuming (comm0 2 away []) 0) 0 (comm0 2 away []) ∧ (resuming (comm0 2 away []) 0).faults.inject = none ∧
      (resuming (comm0 2 away []) 0).memPoison = []) ∧
    (comm0 2 away []).st = 2 ∧
    (resumeFacts (resuming (comm0 2 away []) 0x20000001001) 0x20000001001).1 = false ∧
    (resumeFacts (resuming (comm0 2 away []) 0) 0).2.1 = false ∧
    (resumeFacts (resuming (comm0 2 away []) 0x20000002000) 0x20000002000).2.2.1 = false ∧
    (resumeFacts (poke (resuming (comm0 2 away []) 0x20000001000) 0x20000001000 [(0x20, 8, 0)]) 0x20000001000).2.2.2.1 = false ∧
    resumeFacts (resuming (comm0 2 away []) 0x20000001000) 0x20000001000 = (true, true, true, true, true, true) ∧
    resumeFacts (resuming { comm0 2 away [] with determ := false } 0x20000001000) 0x20000001000 = (true, true, true, true, true, false) ∧
    resumeFacts (poke (resuming (comm0 2 away []) 0x20000001000) 0x20000001000 [(0x28, 4, 0)]) 0x20000001000 =
      (true, true, true, true, false, true) := by
  unfold holdsComm State.ready; refine ⟨?_, ?_, ?_, ?_, ?_, ?_, ?_, ?_, ?_⟩ <;> decide +kernel

/-- The communicator has taken up work, or is not ACTIVE any more. -/
theorem witness_ResumeLoads_late :
    (let s := { resuming (comm0 2 away []) 0x20000001000 with
        cs := { CollSt.fresh with comms := [(0, runs id 0)], pausing := some (2, 0, 0x20000001000) } }
     s.ready ∧ holdsComm s 0 (runs id 0) ∧ (runs id 0).ops ≠ [] ∧ (runs id 0).st = 2 ∧
      recordMatches (runs id 0) (s.mem.read 0x20000001000 256) = true) ∧
    (let s := { resuming (comm0 2 away []) 0 with cs := { CollSt.fresh with comms := [(0, comm0 3 away [])], pausing := some (2, 0, 0) } }
     s.ready ∧ holdsComm s 0 (comm0 3 away []) ∧ s.cs.pausing = some (2, 0, 0) ∧ (comm0 3 away []).st ≠ 2) := by
  unfold holdsComm State.ready; refine ⟨?_, ?_⟩ <;> decide +kernel

/-! ### Packets -/

/-- Port 3 and ZP in service, ZP with credits, its route to switch 1 valid. -/
def fabric : State :=
  (((up.wr F.RT_PORT_STATE [3] 3).wr F.RT_PORT_STATE [16] 3).wr F.RT_ENTRY_ENTRY [64 + 33] 5).updLink 16 (fun l =>
    { l with txC := [(vcOf 0 0, 100)], txMask := 1 })

/-- A PUT of four bytes to the plates of die 0. -/
def putPkt (src dst hops : Nat) : Pkt := pkt kPUT 0 src (fun p => { p with dst := dst, hops := hops, payload := leBytes 4 7, flags := 3 })

/-- Where that packet goes when it is for switch 1. -/
def putPlace : Place := ⟨9, 0, false, 0, false⟩

theorem fabric_goesTo (s : State) (h : s = fabric) : goesTo s 3 0 (putPkt 3 97 0) 16 putPlace := by
  subst h
  refine ⟨?_, ?_, ?_, ?_, fun h => absurd h (by decide), ?_, ?_, ?_, rfl, ?_⟩ <;> decide +kernel

theorem witness_PacketsArrive :
    (listens fabric 3 ∧ fabric.faults.inject = none ∧ (∀ n ∈ [0, 2, 3, 4, 5], roomy fabric F.RT_CNT_COUNT [n] 1) ∧ fabric.portState 3 = pUP ∧
      fabric.on F.TM_PMAP_EN [leadTile 3, 0] = false) ∧
    (Pkt.parse (1 :: List.replicate 35 0) = .hdrCheck ∧ Pkt.parse (List.replicate 36 0) = .bad) ∧
    (∀ a ∈ [(3, 97, 24), (5, 97, 0), (3, 33, 0), (3, 97, 0)],
      Pkt.parse (putPkt a.1 a.2.1 a.2.2).encode = .ok (putPkt a.1 a.2.1 a.2.2)) ∧
    ((fabric.route 33).valid = false ∧ (putPkt 3 33 0).src = fabric.switchId * 64 + 3 ∧ (putPkt 5 97 0).src ≠ fabric.switchId * 64 + 3) ∧
    (listens (up.wr F.RT_PORT_STATE [3] 2) 3 ∧ up.faults.inject = none ∧ (up.wr F.RT_PORT_STATE [3] 2).portState 3 = pMGMT ∧ (putPkt 3 97 0).cls ≠ 6) := by
  unfold listens roomy State.ready; refine ⟨?_, ?_, ?_, ?_, ?_⟩ <;> decide +kernel

/-- That packet as a queue holds it. -/
def queuedPut : QPkt := ⟨putPkt 3 97 0, 16, 3, 0, false, 1, 0, false, 0, none, 0, 0, false, false⟩

/-- It waits in the receive buffer of port 3; one like it is filling a queue, another held for order, in tile 9. -/
def waitingIn : State :=
  let s := fabric
  { s with fab := { s.fab with
      rxWait := [(3, [⟨putPkt 3 97 0, Ingress.plain, true⟩])],
      tm := [(9, { TmTile.fresh with filling := [(20, [queuedPut])], hold := [queuedPut] })] } }

theorem witness_WaitingPackets :
    (waitingIn.ready ∧ (waitingIn.waiting 3)[0]? = some ⟨putPkt 3 97 0, Ingress.plain, true⟩ ∧
      listWaits ((waitingIn.waiting 3).take 0) Ingress.plain = false ∧ roomy waitingIn F.TM_CNT_COUNT [9, 31] 1) ∧
    goesTo waitingIn 3 0 (putPkt 3 97 0) 16 putPlace ∧
    (Tbl.find 20 (waitingIn.tm 9).filling = some [queuedPut] ∧ (waitingIn.tm 9).hold[0]? = some queuedPut ∧
      roomy waitingIn F.TM_CNT_COUNT [9, 23] 1) := by
  refine ⟨?_, ⟨?_, ?_, ?_, ?_, fun h => absurd h (by decide), ?_, ?_, ?_, rfl, ?_⟩, ?_⟩ <;>
    first | (unfold roomy State.ready; decide +kernel) | (unfold roomy; decide +kernel) | decide +kernel

/-- It waits behind Ethernet port 0, whose priority 0 has been told XOFF. -/
def waitingEth : State :=
  let s := (((fabric.wr F.LINK_ETH_CFG_PFC_TX_EN [0] 1).wr F.LINK_ETH_STATUS_STATE [0] eUP))
  { s with fab := { s.fab with
      rxWait := [(ethUplink 0, [⟨putPkt 3 97 0, { Ingress.plain with eth := some (0, 0) }, true⟩])], eth := [(0, ⟨0, 1⟩)] } }

theorem witness_WaitingPackets_xon :
    (waitingEth.ready ∧ (waitingEth.waiting (ethUplink 0))[0]? = some ⟨putPkt 3 97 0, { Ingress.plain with eth := some (0, 0) }, true⟩ ∧
      listWaits ((waitingEth.waiting (ethUplink 0)).take 0) Ingress.plain = false ∧ roomy waitingEth F.TM_CNT_COUNT [9, 31] 1) ∧
    goesTo waitingEth (ethUplink 0) 0 (putPkt 3 97 0) 16 putPlace ∧
    (bitOf (waitingEth.ethPort 0).xoff 0 = true ∧ waitingEth.ethCells 0 0 < 2048 ∧
      bitOf (waitingEth.rd F.LINK_ETH_CFG_PFC_TX_EN [0]) 0 = true ∧ waitingEth.ethState 0 = eUP ∧
      roomy waitingEth F.LINK_ETH_CNT_COUNT [0, 2] 1 ∧ roomy waitingEth F.LINK_ETH_CNT_COUNT [0, 3] (waitingEth.pfcFrame 0 0 0).length ∧
      roomy waitingEth F.LINK_ETH_CNT_COUNT [0, 10] 1) := by
  refine ⟨?_, ⟨?_, ?_, ?_, ?_, fun h => absurd h (by decide), ?_, ?_, ?_, rfl, ?_⟩, ?_⟩ <;>
    first | (unfold roomy State.ready; decide +kernel) | (unfold roomy; decide +kernel) | decide +kernel

/-- It stands first in queue 0 of tile 9 for ZP. -/
def leaving : State :=
  let s := fabric
  { s with fab := { s.fab with tm := [(9, { TmTile.fresh with queues := [(0, [queuedPut])] })] } }

theorem witness_PacketLeaves : leaving.ready ∧ leaving.fabricPort 16 = true ∧ leaving.portHeads 16 = [(1, 0, queuedPut)] ∧
    leaving.txReady 16 queuedPut = true ∧
    (∀ n ∈ [none, some (leaving.groupOf 16 1 0), some (.cls (leaving.classOf 16 (leaving.groupOf 16 1 0)))],
      (leaving.shaper 16 n).1 = false) ∧
    (leaving.link 16).lpIdle = 0 ∧ (leaving.link 16).mgmt = [] ∧ leaving.faults.inject = none ∧ leaving.rd F.TM_SAMPLE_N [leadTile 16, 0] = 0 ∧
    leaving.rd F.GLB_COORD_ROLE [] < 2 ∧ 1 < portTiles 16 ∧ queuedPut.pkt.cls < 8 ∧ (leaving.tm 9).ctxs = [] ∧
    portTile 16 + 1 = 9 ∧
    roomy leaving F.TM_CNT_COUNT [9, 0] 1 ∧ roomy leaving F.TM_CNT_COUNT [9, 8] queuedPut.pkt.wire ∧
    roomy leaving F.TM_CNT_COUNT [9, 29] 1 := by
  unfold roomy State.ready; decide +kernel

/-! ### Remote transfers and streams -/

/-- A plate that belongs to the fabric of its die. -/
def plateOut : State := up.wr F.PLATE_OWNER_KIND [0] 3

/-- A GET of eight bytes from the plates of die 0. -/
def getPkt : Pkt := pkt kGETREQ 0 97 (fun p => { p with payload := leBytes 4 8, flags := 3, chunk := 0x100000 })

/-- A PUT there. -/
def putIn : Pkt := pkt kPUT 0 97 (fun p => { p with payload := leBytes 4 7, flags := 3, chunk := 0x100000 })

theorem witness_PutAndGetServed :
    (∀ s ∈ [up, plateOut], s.ready ∧ s.mem.wf = true ∧ s.hears kPUT putIn.encode putIn ∧ s.hears kGETREQ getPkt.encode getPkt) ∧
    (internalTile putIn = 0 ∧ internalTile getPkt = 0 ∧ tileDie (ctxTile putIn) = 0 ∧ endpointFn 33 = 1 ∧ putIn.addr = 0x100000 ∧ getPkt.addr = 0x100000) ∧
    (up.admits (plateBase + 0x100000) 4 (.fabric 0) = false ∧ up.admits (plateBase + 0x100000) 8 (.fabric 0) = false) ∧
    (plateOut.admits (plateBase + 0x100000) 4 (.fabric 0) = true ∧ plateOut.admits (plateBase + 0x100000) 8 (.fabric 0) = true ∧
      leAt getPkt.payload 0 4 = 8 ∧ plateOut.faults.inject = none ∧ plateOut.memPoison = [] ∧ plateOut.fab.streams = []) := by
  unfold State.hears State.ready; simp only [inTurn_iff]; refine ⟨?_, ?_, ?_, ?_⟩ <;> decide +kernel

/-- A GET of tile 0 that still waits for `left` bytes. -/
def getting (left : Nat) : State :=
  let s := engine 5 (fun tl => { tl with commRun := [opOf 5 0x21 0] })
  { s with fab := { s.fab with xfers := [⟨0, 0, 0, true, 97, 0, 0x100000, 0x100200000, 8, left, false, 0⟩] } }

/-- Four bytes of it. -/
def getData : Pkt := pkt kGETDATA 1 97 (fun p => { p with payload := leBytes 4 7, flags := 2, chunk := 0x100004 })

theorem witness_GetDataReturns :
    (∀ left ∈ [4, 8], (getting left).ready ∧ (getting left).mem.wf = true ∧ (getting left).hears kGETDATA getData.encode getData ∧
      (getting left).fab.xfers = [⟨0, 0, 0, true, getData.src, getData.comm, 0x100000, 0x100200000, 8, left, false, 0⟩] ∧
      tileDie 0 = tileDie (ctxTile getData) ∧ (getData.addr + 2 ^ 64 - 0x100000) % 2 ^ 64 + getData.payload.length ≤ 8 ∧
      getData.payload.length ≤ left ∧ opAt ((getting left).tile 0).commRun 0 = some (opOf 5 0x21 0) ∧
      (((getting left).tile 0).ticket 0).held = true ∧ (((getting left).tile 0).ticket 0).result = none ∧
      (((getting left).tile 0).thread 0).st ≠ .free) ∧
    (∀ k, (((getting 4).tile 0).thread k).still) := by
  refine ⟨?_, all_still _ _ rfl ready_still⟩
  unfold State.hears State.ready; simp only [inTurn_iff]; decide +kernel

/-- A stream of class 0 or 2 of the plates of die 0 to switch 1 that retains packets numbered 5 and 6. -/
def streamOf (cls expiries : Nat) : SrcStream :=
  ⟨0, ⟨33, 97, cls, 0⟩, 7, false, false,
   [⟨{ putPkt 33 97 0 with seq := 5 }.seal, ⟨0, 0, 0, 0⟩, 0⟩, ⟨{ putPkt 33 97 0 with seq := 6 }.seal, ⟨0, 0, 0, 1⟩, 0⟩], [], expiries⟩

/-- The switch with that stream, its retry limit 2. -/
def sending (cls expiries : Nat) : State :=
  let s := up.wr F.RT_E2E_RETRY_LIMIT [] 2
  { s with fab := { s.fab with streams := [streamOf cls expiries] } }

/-- An ACK or NACK of class 0 for a number, with its reason. -/
def answerOf (kind seq reason : Nat) : Pkt := pkt kind 1 97 (fun p => { p with seq := seq, arg := 8 * reason })

theorem witness_StreamSources :
    (∀ a ∈ [(0, 1), (0, 0), (2, 1)], (sending a.1 a.2).ready ∧
      (sending a.1 a.2).fab.streams.find? (fun y => y.key == (streamOf a.1 a.2).key) = some (streamOf a.1 a.2) ∧
      (streamOf a.1 a.2).waiting = [] ∧ roomy (sending a.1 a.2) F.RT_CNT_COUNT [12] (2 * (streamOf a.1 a.2).retained.length) ∧
      roomy (sending a.1 a.2) F.RT_CNT_COUNT [13] (streamOf a.1 a.2).retained.length ∧ (sending a.1 a.2).rd F.RT_E2E_RETRY_LIMIT [] = 2) ∧
    (∀ seq ∈ [4, 5], (sending 0 0).hears kACK (answerOf kACK seq 0).encode (answerOf kACK seq 0) ∧
      (streamOf 0 0).key = ⟨(answerOf kACK seq 0).dst, (answerOf kACK seq 0).src, (answerOf kACK seq 0).arg % 8,
        (answerOf kACK seq 0).comm⟩ ∧
      ((streamOf 0 0).retained.filter (fun r => decide ((seq + 2 ^ 16 - r.pkt.seq) % 2 ^ 16 < 4096))).length = seq - 4) ∧
    (∀ reason < 5, (sending 0 0).hears kNACK (answerOf kNACK 5 reason).encode (answerOf kNACK 5 reason) ∧
      (answerOf kNACK 5 reason).arg / 8 % 8 = reason ∧ (answerOf kNACK 5 reason).arg % 8 = 0 ∧
      ((streamOf 0 0).retained.find? (fun y => y.pkt.seq == (answerOf kNACK 5 reason).seq)).isSome) := by
  unfold roomy State.hears State.ready; simp only [inTurn_iff]; refine ⟨?_, ?_, ?_⟩ <;> decide +kernel

/-- A burin-cores stream of die 0 with nothing retained, and the GET whose request went out on it. -/
def getting0 : State :=
  let s := up
  { s with fab := { s.fab with
      streams := [{ streamOf 0 0 with key := ⟨32, 97, 0, 0⟩, retained := [] }],
      xfers := [⟨0, 0, 0, true, 97, 0, 0x100000, 0x100200000, 8, 8, false, 0⟩] } }

theorem witness_StreamSources_waits : getting0.ready ∧
    getting0.fab.streams.find? (fun y => y.key == ⟨32, 97, 0, 0⟩) = some { streamOf 0 0 with key := ⟨32, 97, 0, 0⟩, retained := [] } ∧
    getting0.fab.xfers = [⟨0, 0, 0, true, 97, 0, 0x100000, 0x100200000, 8, 8, false, 0⟩] ∧
    getting0.ownAddr (tileDie 0) 0 = 32 ∧ getting0.retriesGone 1 = false ∧
    (getting0.wr F.RT_E2E_RETRY_LIMIT [] 1).retriesGone 1 = true ∧ roomy (getting0.wr F.RT_E2E_RETRY_LIMIT [] 1) F.RT_CNT_COUNT [13] 1 ∧
    roomy getting0 F.RT_CNT_COUNT [12] 0 ∧ roomy getting0 F.RT_CNT_COUNT [13] 0 := by
  unfold roomy State.ready; decide +kernel

/-- Tile 0's context of a stream to it, with what it holds ahead of order, has performed and has not acknowledged. -/
def receiving (held : List HeldPkt) (unacked : Nat) (done : Option Nat) : State :=
  let s := up
  { s with fab := { s.fab with
      tm := [(0, { TmTile.fresh with ctxs := [⟨⟨97, 33, 0, 0⟩, 7, held, none, done, unacked, false, 0⟩] })] } }

theorem witness_StreamContexts : ∀ a ∈ [([], 0, none), ([], 3, none), ([], 3, some 6), ([⟨putIn, 0, 16, false⟩], 0, some 6)],
    (receiving a.1 a.2.1 a.2.2).ready ∧
    (receiving a.1 a.2.1 a.2.2).ctx 0 ⟨97, 33, 0, 0⟩ = some ⟨⟨97, 33, 0, 0⟩, 7, a.1, none, a.2.2, a.2.1, false, 0⟩ := by
  unfold State.ready; decide +kernel

/-! ### Routes, bring-up and forwarded requests -/

/-- The command register of routes can be reached and nothing is in progress. -/
def routeIdle (s : State) : Prop := s.ready ∧ s.reaches .rtCmd [] ∧ s.rd F.RT_STATUS_BUSY [] = 0

/-- A table loaded, coordinates known, time there; a management port whose neighbour is open. -/
def opening : State :=
  let s := (((up.wr F.RT_STATUS_LOADED [] 1).wr F.GLB_COORD_XY_VALID [] 1).wr F.GC_STATUS_SYNCED [] 1).wr F.RT_PORT_STATE [16] 2
  { s with fab := { s.fab with nbr := [(16, ⟨0, 0, 0x22, 8, 0, 0, 0⟩)] } }

theorem witness_RouteCommands :
    ((up.wr F.RT_STATUS_BUSY [] 1).ready ∧ (up.wr F.RT_STATUS_BUSY [] 1).reaches .rtCmd [] ∧
      (up.wr F.RT_STATUS_BUSY [] 1).rd F.RT_STATUS_BUSY [] = 1) ∧
    (routeIdle up ∧ (up.rd F.RT_STATUS_HELD []).testBit 3 = false ∧ up.anyUp = false ∧ up.rd F.RT_TABLE_SRC_ADDR [] % 64 = 0 ∧
      up.on F.RT_STATUS_LOADED [] = false) ∧
    (routeIdle (up.wr F.RT_STATUS_HELD [] 8) ∧ ((up.wr F.RT_STATUS_HELD [] 8).rd F.RT_STATUS_HELD []).testBit 3 = true) ∧
    (routeIdle (up.wr F.RT_PORT_STATE [3] 3) ∧ (up.wr F.RT_PORT_STATE [3] 3).anyUp = true) ∧
    (routeIdle (up.wr F.RT_TABLE_SRC_ADDR [] 1) ∧ (up.wr F.RT_TABLE_SRC_ADDR [] 1).rd F.RT_TABLE_SRC_ADDR [] % 64 ≠ 0) ∧
    (routeIdle opening ∧ (opening.on F.RT_STATUS_LOADED [] && (opening.bench || (opening.on F.GLB_COORD_XY_VALID [] &&
        opening.on F.GC_STATUS_SYNCED []))) = true ∧
      Tbl.find 16 opening.fab.nbr = some ⟨0, 0, 0x22, 8, 0, 0, 0⟩ ∧ opening.portState 16 = pMGMT ∧ opening.portState 3 ≠ pMGMT) := by
  unfold routeIdle State.reaches State.ready; refine ⟨?_, ?_, ?_, ?_, ?_, ?_⟩ <;> decide

/-- Empty memory reads as zeros. -/
theorem read_blank (a n : Nat) : Memory.read [] a n = List.replicate n 0 := by
  apply List.ext_getElem <;> simp [Memory.read, Memory.readByte, Memory.blank]

/-- A byte read in the middle of a range. -/
theorem leAt_read (m : Memory) (a n k : Nat) (h : k < n) : leAt (m.read a n) k 1 = (Memory.readByte (a + k) m).toNat := by
  have h1 : ((m.read a n).drop k).take 1 = [Memory.readByte (a + k) m] := by
    apply List.ext_getElem
    · simp [Memory.read]; omega
    · intro i h2 h3
      simp only [List.length_singleton] at h3
      have : i = 0 := by omega
      subst this
      simp [Memory.read]
  simp [leAt, h1, leNat]

/-- A load of a table at an address is in progress. -/
def loadingTable (a : Nat) (m : Memory) : State :=
  let s := up
  { s with mem := m, fab := { s.fab with tableLoad := some a } }

theorem witness_RouteTable :
    ((up.wr F.RT_PORT_STATE [3] 3).ready ∧ (up.wr F.RT_PORT_STATE [3] 3).reaches .rtEntry [97] ∧
      (up.wr F.RT_PORT_STATE [3] 3).anyUp = true ∧
      fieldOf ((up.wr F.RT_PORT_STATE [3] 3).rd F.RT_ENTRY_ENTRY [97]) 1 1 ≠ fieldOf (2 % 2 ^ 32) 1 1 ∧ up.anyUp = false) ∧
    (∀ m ∈ [([] : Memory), [((0x10000000007 : Nat), (1 : Byte))]], (loadingTable 0x10000000000 m).ready ∧
      (loadingTable 0x10000000000 m).fab.tableLoad = some 0x10000000000 ∧
      (loadingTable 0x10000000000 m).rangeWin 0x10000000000 262144 = some .hbm ∧
      (loadingTable 0x10000000000 m).faults.inject = none ∧ (loadingTable 0x10000000000 m).memPoison = []) ∧
    ((loadingTable 0 []).rangeWin 0 262144 = none ∧ (loadingTable 0 []).fab.tableLoad = some 0) ∧
    (∀ i < 65536, leAt ((loadingTable 0x10000000000 []).mem.read 0x10000000000 262144) (4 * i + 3) 1 = 0) ∧
    (1 < 65536 ∧ leAt ((loadingTable 0x10000000000 [(0x10000000007, 1)]).mem.read 0x10000000000 262144) (4 * 1 + 3) 1 ≠ 0) := by
  refine ⟨?_, ?_, by decide, ?_, by decide, ?_⟩
  · unfold State.reaches State.ready; decide
  · unfold State.ready; decide
  · intro i h
    rw [leAt_read _ _ _ _ (by omega)]
    rfl
  · rw [leAt_read _ _ _ _ (by omega)]
    decide

/-- What a neighbour says in DISCOVER: its coordinates, port and level. -/
def discovers (z port level : Nat) : Pkt :=
  let said := leBytes 4 (z + 2 ^ 20 * 1) ++ leBytes 1 port ++ leBytes 1 level ++ leBytes 1 8 ++ List.replicate 57 0
  pkt kDISCOVER 6 39 (fun p => { p with dst := 39, flags := 1, payload := said })

/-- A management port, the switch open. -/
def mgmtPort (port : Nat) : State := (up.wr F.RT_PORT_STATE [port] 2).wr F.RT_BRINGUP_PHASE [] 8

/-- ZP of this switch at Z = 0 meets ZN of the one at Z = 1. -/
theorem witness_BringUp :
    (∀ a ∈ [(0, 17, 1), (1, 16, 1), (1, 17, 3), (1, 17, 1)], onLink (mgmtPort 16) 16 kDISCOVER (discovers a.1 a.2.1 a.2.2).encode
      (discovers a.1 a.2.1 a.2.2)) ∧
    ((mgmtPort 16).bench = false ∧ fieldOf (Nbr.ofPayload (discovers 0 17 1).payload).coord 0 4 = (mgmtPort 16).rd F.GLB_COORD_Z []) ∧
    ((mgmtPort 16).wiringOk 16 (Nbr.ofPayload (discovers 1 16 1).payload) = false) ∧
    ((mgmtPort 16).wiringOk 16 (Nbr.ofPayload (discovers 1 17 3).payload) = true ∧
      (mgmtPort 16).rd F.RT_FABLEVEL_LOCAL [] + 1 < (Nbr.ofPayload (discovers 1 17 3).payload).level % 16) ∧
    ((mgmtPort 16).wiringOk 16 (Nbr.ofPayload (discovers 1 17 1).payload) = true ∧
      (mgmtPort 16).rd F.RT_FABLEVEL_LOCAL [] = 1 ∧ (mgmtPort 16).portState 16 = pMGMT ∧
      (mgmtPort 16).rd F.RT_BRINGUP_PHASE [] = 8 ∧ (Nbr.ofPayload (discovers 1 17 1).payload).phase = 8) := by
  unfold onLink listens State.ready; refine ⟨?_, ?_, ?_, ?_, ?_⟩ <;> decide +kernel

/-- No neighbour has been heard: every position but this switch's own is silent; the eighth completes the ring. -/
theorem witness_BringUp_absent :
    (let s := up
     (s.zSees 8 = false ∧ (8 : Nat) ≠ s.rd F.GLB_COORD_Z [] ∧ s.rd F.GLB_COORD_Z [] < 9 ∧ s.on F.RT_BRINGUP_Z_CLASH [] = false) ∧
     (0 = s.rd F.GLB_COORD_Z [])) ∧
    (let s := { up with fab := { up.fab with zAbsent := 0xFE } }
     s.ready ∧ s.zSees 8 = false ∧ s.fab.zAbsent < 512 ∧ s.rd F.GLB_COORD_Z [] < 9 ∧ s.on F.RT_BRINGUP_Z_CLASH [] = false ∧
     ∀ y < 9, s.zSees y = true ∨ s.fab.zAbsent.testBit y = true ∨ y = 8) ∧
    (let s := up.wr F.GLB_COORD_Z [] 15
     s.ready ∧ 9 ≤ s.rd F.GLB_COORD_Z [] ∧ s.on F.GLB_COORD_XY_VALID [] = false) := by
  unfold State.ready; decide

/-- A request of another switch's management block: type in ARG, tag 5. -/
def mgtPkt (src ty : Nat) (addr : Nat) (data : List Byte) : Pkt :=
  pkt kMGTREQ 6 src (fun p => { p with
    dst := 39, flags := 1, chunk := addr % 2 ^ 32, opseq := addr / 2 ^ 32, arg := ty + 16 * 5, payload := data })

/-- The answer to that request is kept. -/
def keeping : State := { up with stylus := { up.stylus with kept := [⟨64 + 39, 5, 0, leBytes 8 9, 1 + 16 * 5⟩] } }

/-- A read of stylus port 0 that waits for switch 1, sent so many times. -/
def asked (sends : Nat) : FwdReq := ⟨5, 0, true, false, 1, 0x58, 8, [], sends⟩

/-- The switch that has sent it, the stylus port up. -/
def asking (sends : Nat) : State :=
  let s := up.wr F.GLB_STYLUS_STATUS_STATE [0] 2
  { s with stylus := { s.stylus with fwd := [asked sends] } }

/-- The answer. -/
def mgtRsp : Pkt := pkt kMGTRSP 6 (64 + 39) (fun p => { p with dst := 39, flags := 1, arg := 1 + 16 * 5, payload := leBytes 8 9 })

theorem witness_ForwardedRequests :
    (up.ready ∧ up.sys.fwRuns = true ∧ up.stylus.kept = [] ∧ up.stylus.slots = [] ∧ up.mem.wf = true ∧
      (∀ a ∈ [(64 + 39, 1, regAddr .glbMode [], 0), (1024 + 39, 1, regAddr .glbMode [], 0), (64 + 39, 3, 0x10000000000, 8)],
        up.hears kMGTREQ (mgtPkt a.1 a.2.1 a.2.2.1 (leBytes a.2.2.2 7)).encode (mgtPkt a.1 a.2.1 a.2.2.1 (leBytes a.2.2.2 7))) ∧
      1024 + 39 > 1023 ∧ (1024 + 39) / 1024 ≠ up.switchId / 16 ∧ (64 + 39) / 1024 = up.switchId / 16) ∧
    (up.reach (mgtPkt (64 + 39) 1 (regAddr .glbMode []) []).addr 8 = .reg .glbMode [] ∧ (up.regRead .glbMode []).2 = up ∧
      up.reach (mgtPkt (64 + 39) 3 0x10000000000 (leBytes 8 7)).addr 8 = .mem) ∧
    (keeping.ready ∧ keeping.hears kMGTREQ (mgtPkt (64 + 39) 1 0 []).encode (mgtPkt (64 + 39) 1 0 []) ∧
      keeping.stylus.kept.find? (fun r => r.src == 64 + 39 && r.tag == 5) = some ⟨64 + 39, 5, 0, leBytes 8 9, 1 + 16 * 5⟩ ∧
      fieldOf (1 + 16 * 5) 4 16 = 5) ∧
    (∀ sends ∈ [1, 5], (asking sends).ready ∧ (asking sends).stylus.fwd = [asked sends] ∧ (asking sends).stylus.backlog = [] ∧
      (asking sends).stylusUp 0 = true ∧ (asking sends).bp.waits = [] ∧ (asking sends).hears kMGTRSP mgtRsp.encode mgtRsp ∧
      (asked sends).tag = fieldOf mgtRsp.arg 4 16 ∧ (asked sends).port = fieldOf mgtRsp.arg 20 1 ∧
      (asked sends).target = mgtRsp.src / 64) := by
  unfold State.hears State.ready; simp only [inTurn_iff]; refine ⟨?_, ⟨?_, rfl, ?_⟩, ?_, ?_⟩ <;> decide +kernel

/-! ### Time -/

theorem witness_TimeBase : up.ready ∧ up.sys.crefLost = false ∧ up.sys.fwRuns = true ∧
    State.reset.ready ∧ State.reset.sys.crefLost = false ∧ State.reset.sys.fwRuns = false ∧
    ({ up with sys := { up.sys with crefLost := true } } : State).sys.crefLost = true := by
  unfold State.ready; decide

/-- A switch that takes part in synchronisation over ZP, its parent silent since its last request. -/
def timing : State :=
  let s := (((up.wr F.GC_CFG_EN [] 1).wr F.GLB_COORD_XY_VALID [] 1).wr F.RT_PORT_STATE [16] 3).wr F.GC_STATUS_PARENT [] 16
  { s with time := { s.time with reqs := [⟨16, 7, 0⟩], nextNum := 8 } }

/-- It has heard switch 0 on another port; a lane is in use and credit is there. -/
def following : State :=
  let s := ((timing.wr F.RT_PORT_STATE [17] 3).wr F.GLB_COORD_X [] 1).updLink 16 (fun l => { l with txMask := 1, txC := [(vcOf 6 0, 100)] })
  { s with time := { s.time with nbrs := [⟨17, 0, true, 0, 0, none, 0⟩] } }

/-- What a step leaves in a field of one register. -/
def after (c : Instr) (s : State) (f : Fld) : Nat := match exec c s with
  | .next t => t.rd f []
  | _ => 99

/-- A switch that hears no other becomes master; one that hears a lower one stays below it, in holdover when its parent is silent. -/
theorem witness_TimeSynchronisation_roles :
    (timing.ready ∧ timing.timeOn = true ∧ after .timeExchangeTimer timing F.GC_STATUS_MASTER = 1) ∧
    (following.ready ∧ following.timeOn = true ∧ following.rd F.GC_STATUS_PARENT [] ∈ following.time.reqs.map (·.port) ∧
      after .timeExchangeTimer following F.GC_STATUS_MASTER = 0) := by
  unfold State.ready; refine ⟨?_, ?_⟩ <;> decide +kernel

/-- A TIME packet of a type with an exchange number. -/
def timePkt (ty num : Nat) : Pkt :=
  pkt kTIME 6 (64 + 39) (fun p => { p with dst := 39, flags := 1, chunk := num, payload := leBytes 1 ty ++ List.replicate 47 0 })

theorem witness_TimeSynchronisation :
    (timing.ready ∧ timing.timeOn = true ∧ timing.timePorts = [16] ∧
      timing.rd F.GC_STATUS_PARENT [] ∈ timing.time.reqs.map (·.port)) ∧
    (onLink following 16 kTIME (timePkt 1 3).encode (timePkt 1 3) ∧ following.timeOn = true ∧ (following.link 16).mgmt = [] ∧
      (timePkt 1 3).cells ≤ following.creditLeft 16 (vcOf 6 0) ∧ (following.link 16).lpIdle = 0 ∧ following.txLanes 16 ≠ 0) ∧
    (up.ready ∧ up.timeOn = false) ∧
    (∀ a ∈ [(1, 3), (2, 7), (2, 8)], onLink timing 16 kTIME (timePkt a.1 a.2).encode (timePkt a.1 a.2) ∧
      (timePkt a.1 a.2).payload.length = 48 ∧ leAt (timePkt a.1 a.2).payload 0 1 = a.1 ∧ (timePkt a.1 a.2).chunk = a.2) ∧
    ((up.wr F.GC_STATUS_SYNCED [] 1).ready ∧ (up.wr F.GC_STATUS_SYNCED [] 1).on F.GC_STATUS_SYNCED [] = true ∧
      (up.wr F.GC_STATUS_SYNCED [] 1).on F.GC_STATUS_MASTER [] = false ∧ up.on F.GC_STATUS_SYNCED [] = false) := by
  unfold onLink listens State.ready; refine ⟨?_, ?_, ?_, ?_, ?_⟩ <;> decide +kernel


/-! ### Links, lanes, Ethernet -/

/-- A control flit. -/
def flit (ty : Nat) (body : List Byte) : BitVec 256 := BitVec.ofNat 256 (leNat (ctrlFlit ty body))

/-- ZP in service, its link as `f` makes it. -/
def linkUp (f : LinkPort → LinkPort) : State := (up.wr F.RT_PORT_STATE [16] 3).updLink 16 f

/-- LPI for lane group 0 with an answer code. -/
def lpi (code : Nat) : BitVec 256 := flit 6 (leBytes 1 1 ++ leBytes 1 code)

/-- Low states allowed to a group that tolerates 1 µs. -/
def lowPower : State := ((linkUp id).wr F.LINK_PORT_CFG_LPM_EN [16] 1).wr F.PWR_DOMAIN_TOL_NS [8] 1000

theorem witness_ControlFlits :
    (listens (linkUp id) 16 ∧ (linkUp id).faults.inject = none ∧ (∀ n ∈ [4, 7], roomy (linkUp id) F.LINK_CNT_COUNT [16, n] 1) ∧ (linkUp id).roleIdles 16 = false) ∧
    (∀ ty < 7, leAt (flitBytes (BitVec.ofNat 256 (0x03C0 + ty))) 0 2 = 0x03C0 + ty ∧
      crc8 ((flitBytes (BitVec.ofNat 256 (0x03C0 + ty))).take 31) ≠ leAt (flitBytes (BitVec.ofNat 256 (0x03C0 + ty))) 31 1) ∧
    (∀ ty ∈ [0, 1, 2, 3, 4], flitOk (flitBytes (flit ty [])) ty) ∧
    (∀ body ∈ [[0, 1, 2], [0, 0, 0]], flitOk (flitBytes (flit 5 body)) 5 ∧ leAt (flitBytes (flit 5 body)) 2 1 < portLanes 16) ∧
    (∀ code ∈ [1, 2, 3, 4], flitOk (flitBytes (lpi code)) 6 ∧ leAt (flitBytes (lpi code)) 3 1 = code ∧
      leAt (flitBytes (lpi code)) 2 1 % 16 = 1) := by
  unfold listens roomy flitOk State.ready; refine ⟨?_, ?_, ?_, ?_, ?_⟩ <;> decide +kernel

/-- The check bits of the next control flit of ZP are inverted. -/
def aimed : State := { linkUp id with faults := { up.faults with inject := some ⟨0x0C, 0, 0, 0, 16, 1, false⟩ } }

/-- ZP on two lanes, the first under test and in a state. -/
def tested (st : Nat) : State :=
  (linkUp (fun l => { l with rxMask := 3, txMask := 2, tests := [(0, 2)] })).wr F.LANE_STATUS_STATE [64] st

theorem witness_ControlFlits_lanes :
    (listens aimed 16 ∧ aimed.faults.inject = some ⟨0x0C, portDie 16, 0, 0, 16, 1, false⟩ ∧ aimed.inReset 4 16 = false ∧
      roomy aimed F.LINK_CNT_COUNT [16, 7] 1) ∧
    (let s := linkUp (fun l => { l with txMask := 3 })
     listens s 16 ∧ s.faults.inject = none ∧ flitOk (flitBytes (flit 3 [0, 0, 2])) 3 ∧ leAt (flitBytes (flit 3 [0, 0, 2])) 4 1 = 2 ∧
     ((s.lastFrame 16 + 2 ^ 16 - leAt (flitBytes (flit 3 [0, 0, 2])) 2 2) % 2 ^ 16 < 12 ∧
      behind (leAt (flitBytes (flit 3 [0, 0, 2])) 2 2) (s.link 16).acked = false) ∧
     (s.link 16).lastReplay = none ∧ ∃ k < portLanes 16, (s.link 16).announced.testBit k = true) ∧
    (listens (tested 2) 16 ∧ (tested 2).faults.inject = none ∧ (tested 2).laneState (portLane 16 + 0) = 2 ∧ taken (tested 2) 16 0 = true ∧
      taken (linkUp id) 16 0 = false) := by
  unfold listens roomy flitOk taken State.ready; refine ⟨?_, ?_, ?_⟩ <;> decide +kernel

/-- RETRY of frame 0 within reach and of one out of reach; a lane that may be tested and one in its test; groups that may and
may not idle, and one whose request is out. -/
theorem witness_ControlFlits_more :
    ((((linkUp id).lastFrame 16 + 2 ^ 16 - leAt (flitBytes (flit 3 [])) 2 2) % 2 ^ 16 < 12 ∧
        behind (leAt (flitBytes (flit 3 [])) 2 2) ((linkUp id).link 16).acked = false) ∧
      ((linkUp id).link 16).lastReplay = none ∧ 0 < max 1 ((linkUp id).rd F.LINK_PORT_CFG_RETRY_LIMIT [16])) ∧
    (flitOk (flitBytes (flit 3 [0, 1])) 3 ∧
      12 ≤ ((linkUp id).lastFrame 16 + 2 ^ 16 - leAt (flitBytes (flit 3 [0, 1])) 2 2) % 2 ^ 16) ∧
    (listens ((linkUp id).wr F.LANE_STATUS_STATE [64] 2) 16 ∧ ((linkUp id).wr F.LANE_STATUS_STATE [64] 2).laneState (portLane 16) = 2 ∧
      taken ((linkUp id).wr F.LANE_STATUS_STATE [64] 2) 16 0 = false ∧ leAt (flitBytes (flit 3 [])) 4 1 ≠ 2 ∧
      leAt (flitBytes (flit 5 [0, 1, 2])) 3 1 = 1 ∧ leAt (flitBytes (flit 5 [0, 0, 0])) 3 1 = 0) ∧
    ((linkUp id).groupsIdle 16 1 = false ∧ listens lowPower 16 ∧ lowPower.groupsIdle 16 1 = true) ∧
    (listens (linkUp (fun l => { l with lpReq := 1 })) 16 ∧ ((linkUp (fun l => { l with lpReq := 1 })).link 16).lpReq = 1) := by
  unfold listens flitOk taken State.ready; refine ⟨?_, ?_, ?_, ?_, ?_⟩ <;> decide +kernel

/-- A port whose receiver listens on one lane. -/
def oneLane (retry changed : Bool) : State := linkUp (fun l => { l with rxMask := 1, rxRetry := retry, rxChanged := changed })

/-- The bits of the eight codewords of that message, with the check symbols that the generator polynomial gives (R383). -/
def idleBits : Nat := joinBits 440 (
   [0x3C053000000000000000000000000000000000000000000000000000000000003C000000000,
   0x3C053000000000000000000000000000000000000000000000000000000000003C053000000000000000000000000,
   0xC053000000000000000000000000000000000000000000000000000000000003C053000000000000000000000000000000000000000000,
   0x3C053000000000000000000000000000000000000000000000000000000000003,
   0x3C053000000000000000000000000000000000000000000000000000000000003C05300000000000000,
   0x3C053000000000000000000000000000000000000000000000000000000000003C05300000000000000000000000000000000,
   0x3C05300000000000000000000000000000000000000000000000000,
   0x3C053000000000000000000000000000000000000000000000000000000000003C0530000,
   0x3C053000000000000000000000000000000000000000000000000000000000003C0530000000000000000000000,
   0x3C053000000000000000000000000000000000000000000000000000000000003C0530000000000000000000000000000000000000000] ++
   [0x3C0530000000000000000000000000000000000000000000000000000000000,
   0xBC392A929C6D635D40D650BECCD5A843C5800000000000000000000000000000000000000000000000000000000003C053000000000000,
   0x3C053000000000000000000000000000000000000000000000000000000000003C05309C73D4933D7EFC1591678336309F1BEDBBC11A7A,
   0x3C05300000000000000000000000000000000000000000000000000000000000,
   0x3C053000000000000000000000000000000000000000000000000000000000003C0530000000000000,
   0x3C053000000000000000000000000000000000000000000000000000000000003C0530000000000000000000000000000000,
   0x3C0530000000000000000000000000000000000000000000000000,
   0x3C053000000000000000000000000000000000000000000000000000000000003C053000,
   0x3C053000000000000000000000000000000000000000000000000000000000003C053000000000000000000000,
   0x3C053000000000000000000000000000000000000000000000000000000000003C053000000000000000000000000000000000000000] ++
   [0x3C053000000000000000000000000000000000000000000000000000000000,
   0x3C053000000000000000000000000000000000000000000000000000000000003C05300000000000,
   0x3C053000000000000000000000000000000000000000000000000000000000003C05300000000000000000000000000000,
   0x3C05300000000000000000000000000000000000000000000000,
   0x3B933B6C2D2460EF490A4C649C5C497FA32111229B8402591AF92982FB84FC99959BC38E7D06C0530,
   0x3C053000000000000000000000000000000000000000000000000000000000003C053000000000000000000000000000000,
   0x3C053000000000000000000000000000000000000000000000000,
   0x3C053000000000000000000000000000000000000000000000000000000000003C05300,
   0x3C053000000000000000000000000000000000000000000000000000000000003C05300000000000000000000,
   0x3C053000000000000000000000000000000000000000000000000000000000003C05300000000000000000000000000000000000000] ++
   [0x3C05300000000000000000000000000000000000000000000000000000000,
   0x3C053000000000000000000000000000000000000000000000000000000000003C0530000000000,
   0x3C053000000000000000000000000000000000000000000000000000000000003C0530000000000000000000000000000,
   0x3C0530000000000000000000000000000000000000000000000,
   0x3C053000000000000000000000000000000000000000000000000000000000003C053,
   0x3C053000000000000000000000000000000000000000000000000000000000003C053000000000000000000,
   0xE67C02C6EE15A3943D9D0F9EF18C54E3CC47862FBF2C6D40E570089BD8700451100003C053000000000000000000000000000000000000,
   0x3C053000000000000000000000000000000000000000000000000000000024DF4029B6,
   0x3C053000000000000000000000000000000000000000000000000000000000003C0530000000000000000000,
   0x3C053000000000000000000000000000000000000000000000000000000000003C0530000000000000000000000000000000000000] ++
   [0x3C0530000000000000000000000000000000000000000000000000000000,
   0x3C053000000000000000000000000000000000000000000000000000000000003C053000000000,
   0x3C053000000000000000000000000000000000000000000000000000000000003C053000000000000000000000000000,
   0x3000000000000000000000000000000000000000000000000000000000003C053000000000000000000000000000000000000000000000,
   0x3C053000000000000000000000000000000000000000000000000000000000003C05,
   0x3C053000000000000000000000000000000000000000000000000000000000003C05300000000000000000,
   0x3C053000000000000000000000000000000000000000000000000000000000003C05300000000000000000000000000000000000,
   0x3C05300000000000000000000000000000000000000000000000000000,
   0xE9C32DE4F100BB05CFDACC2DB0000000003C053000000000000000000000000000000000000000000000000000000000003C0530000000,
   0x3C053000000000000000000000000000000000000000000000000002485A94DBEDD95D7E81D23B31E01AEBE7E8979F533D977C387] ++
   [0x3C053000000000000000000000000000000000000000000000000000000,
   0x3C053000000000000000000000000000000000000000000000000000000000003C05300000000,
   0x3C053000000000000000000000000000000000000000000000000000000000003C05300000000000000000000000000,
   0x53000000000000000000000000000000000000000000000000000000000003C05300000000000000000000000000000000000000000000,
   0x3C053000000000000000000000000000000000000000000000000000000000003C0,
   0x3C053000000000000000000000000000000000000000000000000000000000003C0530000000000000000,
   0x3C053000000000000000000000000000000000000000000000000000000000003C0530000000000000000000000000000000000,
   0x3C0530000000000000000000000000000000000000000000000000000,
   0x3C053000000000000000000000000000000000000000000000000000000000003C053000000,
   0x3C053000000000000000000000000000000000000000000000000000000000003C053000000000000000000000000] ++
   [0xC053000000000000000000000000000000000000000000000000000000000003C053000000000000000000000000000000000000000000,
   0xCD2AC697C0B211E146D2F828954A74A70163080F27F8509E7366D033F89457067E1BADE2585000000000000003,
   0x3C053000000000000000000000000000000000000000000000000000000000003C0530000000000000000000000000,
   0x53000000000000000000000000000000000000000000000000000000000003C0530000000000000000000000000000000000000000000,
   0x3C053000000000000000000000000000000000000000000000000000000000003C,
   0x3C053000000000000000000000000000000000000000000000000000000000003C053000000000000000,
   0x3C053000000000000000000000000000000000000000000000000000000000003C053000000000000000000000000000000000,
   0x3C053000000000000000000000000000000000000000000000000000,
   0x3C053000000000000000000000000000000000000000000000000000000000003C05300000,
   0x3C053000000000000000000000000000000000000000000000000000000000003C05300000000000000000000000] ++
   [0x3C053000000000000000000000000000000000000000000000000000000000003C05300000000000000000000000000000000000000000,
   0x3C05300000000000000000000000000000000000000000000000000000000000,
   0x3C053000000000000000000000000000000000000000000000000000000000003C0530000000000000,
   0xC9D657599A77A565CE42C8908A250ED471890D5C376D24E1A458D2200000000000000000003C0530000000000000000000000000000000,
   0x3C053000000000000000000000000000000000000000072EB929EE0F724D5E743,
   0x3C053000000000000000000000000000000000000000000000000000000000003C05300000000000000,
   0x3C053000000000000000000000000000000000000000000000000000000000003C05300000000000000000000000000000000,
   0x3C05300000000000000000000000000000000000000000000000000,
   0x3C053000000000000000000000000000000000000000000000000000000000003C0530000,
   0x3C053000000000000000000000000000000000000000000000000000000000003C0530000000000000000000000] ++
   [0x3C053000000000000000000000000000000000000000000000000000000000003C0530000000000000000000000000000000000000000,
   0x3C0530000000000000000000000000000000000000000000000000000000000,
   0x3C053000000000000000000000000000000000000000000000000000000000003C053000000000000,
   0x3C053000000000000000000000000000000000000000000000000000000000003C053000000000000000000000000000000,
   0x3C053000000000000000000000000000000000000000000000000,
   0x94279A490ED6B460000000000000000000000003C053000000000000000000000000000000000000000000000000000000000003C05300,
   0x3C05300000000000000000000000000000000000AF98FEDE79D63A9F6EE37BA9BBCC2CC8B74FC570890A721181E51CA93C75,
   0x3C0530000000000000000000000000000000000000000000000000,
   0x3C053000000000000000000000000000000000000000000000000000000000003C053000,
   0x3C053000000000000000000000000000000000000000000000000000000000003C053000000000000000000000] ++
   [0x3C053000000000000000000000000000000000000000000000000000000000003C053000000000000000000000000000000000000000,
   0x3C053000000000000000000000000000000000000000000000000000000000,
   0x3C053000000000000000000000000000000000000000000000000000000000003C05300000000000,
   0x3C053000000000000000000000000000000000000000000000000000000000003C05300000000000000000000000000000,
   0x3C05300000000000000000000000000000000000000000000000,
   0x3C053000000000000000000000000000000000000000000000000000000000003C0530,
   0x3C053000000000000000000000000000000000000000000000000000000000003C0530000000000000000000,
   0x3C053000000000000000000000000000000000000000000000000000000000003C0530000000000000000000000000000000000000,
   0x21E3C1250CC007A6D439BD47DF9ECA23E65BE5803019FF99B8889267640519EC028EB520ED50000000000000000000000000])

/-- The 5,140 message bytes of a frame of 160 IDLE flits and a half, number 0, lane 0. -/
def idleBytes : List Byte := [0, 0, 0, 0] ++ ((List.replicate 160 (ctrlFlit 0 [])).flatten ++ (ctrlFlit 0 []).take 16)

/-- Those bits on the line, a parity bit behind each block of 256. -/
def idleFrame : LaneFrame := ⟨0, joinBits 440 (
   [0x780A6000000000000000000000000000000000000000000000000000000000003C000000000,
   0x1E029800000000000000000000000000000000000000000000000000000000000F014C000000000000000000000000,
   0xA6000000000000000000000000000000000000000000000000000000000003C0530000000000000000000000000000000000000000000,
   0xF014C0000000000000000000000000000000000000000000000000000000000078,
   0x3C053000000000000000000000000000000000000000000000000000000000001E0298000000000000000,
   0xF014C00000000000000000000000000000000000000000000000000000000000780A60000000000000000000000000000000000,
   0x1E02980000000000000000000000000000000000000000000000000000,
   0x780A6000000000000000000000000000000000000000000000000000000000003C0530000000,
   0x1E029800000000000000000000000000000000000000000000000000000000000F014C0000000000000000000000000,
   0xA6000000000000000000000000000000000000000000000000000000000003C05300000000000000000000000000000000000000000000] ++
   [0xF014C00000000000000000000000000000000000000000000000000000000000780,
   0xA929C6D635D40D650BECCD5A843C5800000000000000000000000000000000000000000000000000000000001E02980000000000000000,
   0x2000000000000000000000000000000000000000000780A6138E7A9267AFDF82B91678336309F1BEDBBC11A7ABC392,
   0x1E029800000000000000000000000000000000000000000000000000000000000F014C,
   0x780A6000000000000000000000000000000000000000000000000000000000003C0530000000000000000000,
   0x1E029800000000000000000000000000000000000000000000000000000000000F014C0000000000000000000000000000000000000,
   0x3C05300000000000000000000000000000000000000000000000000000000,
   0xF014C00000000000000000000000000000000000000000000000000000000000780A60000000000,
   0x3C053000000000000000000000000000000000000000000000000000000000001E02980000000000000000000000000000,
   0x780A600000000000000000000000000000000000000000000000] ++
   [0x1E029800000000000000000000000000000000000000000000000000000000000F014C0,
   0x780A6000000000000000000000000000000000000000000000000000000000003C05300000000000000000000,
   0x1E029800000000000000000000000000000000000000000000000000000000000F014C00000000000000000000000000000000000000,
   0x3C053000000000000000000000000000000000000000000000000000000000,
   0xEE4CEDB0B49183BD24293192717125FE86422245370804B235F25305F709F9332B37871CFA0D80A600000000000,
   0x3C053000000000000000000000000000000000000000000000000000000000001E02980000000000000000000000000000000000000000,
   0x780A600000000000000000000000000000000000000000000000000000000000,
   0x1E029800000000000000000000000000000000000000000000000000000000000F014C0000000000000,
   0x780A6000000000000000000000000000000000000000000000000000000000003C05300000000000000000000000000000000,
   0xF014C00000000000000000000000000000000000000000000000000] ++
   [0x3C053000000000000000000000000000000000000000000000000000000000001E02980000,
   0xF014C00000000000000000000000000000000000000000000000000000000000780A600000000000000000000000,
   0xC053000000000000000000000000000000000000000000000000000000000001E029800000000000000000000000000000000000000000,
   0x780A6000000000000000000000000000000000000000000000000000000000003,
   0x1E029800000000000000000000000000000000000000000000000000000000000F014C00000000000000,
   0x780A6000000000000000000000000000000000000000000000000000000000003C053000000000000000000000000000000000,
   0x1ECE87CF78C62A71E623C34BEFCB1B50395C0226F61C0114440000F014C000000000000000000000000000000000000000000000000000,
   0x3C0530000000000000000000000000000000000000008000000000000000126FA014DB733E0163770AD1CA,
   0xF014C00000000000000000000000000000000000000000000000000000000000780A600000000000000000000000000000000000,
   0x1E029800000000000000000000000000000000000000000000000000000] ++
   [0x780A6000000000000000000000000000000000000000000000000000000000003C05300000000,
   0x1E029800000000000000000000000000000000000000000000000000000000000F014C00000000000000000000000000,
   0x6000000000000000000000000000000000000000000000000000000000003C053000000000000000000000000000000000000000000000,
   0xF014C00000000000000000000000000000000000000000000000000000000000780A,
   0x3C053000000000000000000000000000000000000000000000000000000000001E029800000000000000000,
   0xF014C00000000000000000000000000000000000000000000000000000000000780A6000000000000000000000000000000000000,
   0x1E0298000000000000000000000000000000000000000000000000000000,
   0x780A6000000000000000000000000000000000000000000000000000000000003C053000000000,
   0x616D8000000001E029800000000000000000000000000000000000000000000000000000000000F014C000000000000000000000000000,
   0x2485A94DBEDD95D7E81D23B31E01AEBE7E8979F533D977C387E9C32DE4F100BB02E7ED6] ++
   [0xF014C00000000000000000000000000000000000000000000000000000000000780A600000000000,
   0x3C053000000000000000000000000000000000000000000000000000000000001E029800000000000000000000000000000,
   0x780A6000000000000000000000000000000000000000000000000,
   0x1E029800000000000000000000000000000000000000000000000000000000000F014C00,
   0x780A6000000000000000000000000000000000000000000000000000000000003C053000000000000000000000,
   0x1E029800000000000000000000000000000000000000000000000000000000000F014C000000000000000000000000000000000000000,
   0x3C0530000000000000000000000000000000000000000000000000000000000,
   0xF014C00000000000000000000000000000000000000000000000000000000000780A6000000000000,
   0x3C053000000000000000000000000000000000000000000000000000000000001E0298000000000000000000000000000000,
   0x780A60000000000000000000000000000000000000000000000000] ++
   [0x1E029800000000000000000000000000000000000000000000000000000000000F014C000,
   0x5F02C847868DA5F0512A94E94E02C6101E4FF0A13CE6CDA067F128AE0CFC375BC4B0A000000000000003C0530000000000000000000000,
   0x1E414C00000000000000000000000000000000000000000000334AB1A,
   0x78053000000000000000000000000000000000000000000000000000000000003C029800000,
   0x1E014C00000000000000000000000000000000000000000000000000000000000F00A6000000000000000000000000,
   0x53000000000000000000000000000000000000000000000000000000000003C0298000000000000000000000000000000000000000000,
   0xF00A60000000000000000000000000000000000000000000000000000000000078,
   0x3C029800000000000000000000000000000000000000000000000000000000001E014C000000000000000,
   0xF00A600000000000000000000000000000000000000000000000000000000000780530000000000000000000000000000000000,
   0x1E014C0000000000000000000000000000000000000000000000000000] ++
   [0x78053000000000000000000000000000000000000000000000000000000000003C0298000000,
   0x1E014C00000000000000000000000000000000000000000000000000000000000F00A60000000000000000000000000,
   0x53000000000000000000000000000000000000000000000000000000000003C02980000000000000000000000000000000000000000000,
   0x1C6243570DDB4938691634880000000000000000000F00A600000000000000000000000000000000000000000000000000000000000780,
   0x3C05300000000000000000000000000000000000000003975C94F707B926AF3A1E4EB2BACCD3BA9597390B224228943B5,
   0x780A60000000000000000000000000000000000000000000000,
   0x1E029800000000000000000000000000000000000000000000000000000000000F014C,
   0x780A6000000000000000000000000000000000000000000000000000000000003C0530000000000000000000,
   0x1E029800000000000000000000000000000000000000000000000000000000000F014C0000000000000000000000000000000000000,
   0x3C05300000000000000000000000000000000000000000000000000000000] ++
   [0xF014C00000000000000000000000000000000000000000000000000000000000780A60000000000,
   0x3C053000000000000000000000000000000000000000000000000000000000001E02980000000000000000000000000000,
   0x780A600000000000000000000000000000000000000000000000,
   0x1E029800000000000000000000000000000000000000000000000000000000000F014C0,
   0x780A6000000000000000000000000000000000000000000000000000000000003C05300000000000000000000,
   0x1E029800000000000000000000000000000000000000000000000000000000000F014C00000000000000000000000000000000000000,
   0xAF98FEDE79D63A9F6EE37BA9BBCC2CC8B74FC570890A7211C0F28E549E3ACA13CD24876B5A30000000000000000000000,
   0xF014C00000000000000000000000000000000000000000000000000000000000780A60000000000000000001000,
   0x3C053000000000000000000000000000000000000000000000000000000000001E02980000000000000000000000000000000000000000,
   0x780A600000000000000000000000000000000000000000000000000000000000] ++
   [0x1E029800000000000000000000000000000000000000000000000000000000000F014C0000000000000,
   0x780A6000000000000000000000000000000000000000000000000000000000003C05300000000000000000000000000000000,
   0xF014C00000000000000000000000000000000000000000000000000,
   0x3C053000000000000000000000000000000000000000000000000000000000001E02980000,
   0xF014C00000000000000000000000000000000000000000000000000000000000780A600000000000000000000000,
   0xC053000000000000000000000000000000000000000000000000000000000001E029800000000000000000000000000000000000000000,
   0x780A6000000000000000000000000000000000000000000000000000000000003,
   0x1E029800000000000000000000000000000000000000000000000000000000000F014C00000000000000,
   0xCCB7CB006033FF33711124CEC80A33D9028EB520ED5000000000000000000000000000003C053000000000000000000000000000000000,
   0x243C7824A19800F4DA8737A8FBF3D9447]), List.replicate 170 0, 0⟩

theorem idle_inner : ∀ i < 170, blockGood idleFrame.line idleBits i = true := by decide +kernel

theorem idle_bits : joinBits 256 ((List.range 170).map (fun i => fieldOf idleBits (256 * i) 256)) = idleBits := by
  decide +kernel

theorem idle_words : ∀ j < 8, wordGood (wordOf idleBits j) = true := by decide +kernel

theorem idle_message :
    leBytes 5140 (joinBits 10 (((List.range 8).map (fun j => (wordOf idleBits j).take 514)).flatten)) = idleBytes := by
  decide +kernel

/-- The frame is decoded to that message, and nothing in it to correct. -/
theorem idle_decode : LaneFrame.decode idleFrame = ⟨0, idleBytes, 0, 0, 0, 0⟩ := by
  rw [decode_good idleFrame idleBits idle_inner idle_bits idle_words, idle_message]; rfl

/-- Copies of a list side by side, cut at its length. -/
theorem cut_replicate (x r : List Byte) (n i : Nat) (h : i < n) :
    ((((List.replicate n x).flatten ++ r).drop (x.length * i)).take x.length) = x := by
  induction n generalizing i with
  | zero => omega
  | succ n ih =>
    rw [List.replicate_succ, List.flatten_cons, List.append_assoc]
    cases i with
    | zero => simp
    | succ i =>
      have hd : (x ++ ((List.replicate n x).flatten ++ r)).drop (x.length * (i + 1)) =
          ((List.replicate n x).flatten ++ r).drop (x.length * i) := by
        rw [List.drop_append, List.drop_eq_nil_of_le (by rw [Nat.mul_add]; omega), List.nil_append]
        congr 1
        rw [Nat.mul_add]; omega
      rw [hd]
      exact ih i (by omega)

/-- One lane's words dealt are its bytes behind the marker. -/
theorem deal_one (l : List Byte) (h : l.length = 5140) : dealWords [l] = l.drop 4 := by
  have step (n : Nat) : ((List.range n).map (fun w => ([l].map (fun l => (l.drop (4 + 8 * w)).take 8)).flatten)).flatten =
      (l.drop 4).take (8 * n) := by
    induction n with
    | zero => simp
    | succ n ih =>
      rw [List.range_succ, List.map_append, List.flatten_append, ih, Nat.mul_add, List.take_add]
      simp [List.drop_drop]
  unfold dealWords
  rw [step 642, List.take_of_length_le]
  simp [h]

theorem idle_length : idleBytes.length = 5140 := by
  have : (ctrlFlit 0 []).length = 32 := by decide
  simp [idleBytes, this]

theorem idle_stream : frameStream (oneLane false false) 16 [idleFrame] =
    (List.replicate 160 (ctrlFlit 0 [])).flatten ++ (ctrlFlit 0 []).take 16 := by
  have h : ((((List.range (portLanes 16)).filter (fun k => ((oneLane false false).link 16).rxMask.testBit k)).filterMap
      (fun k => [idleFrame].find? (fun f => f.lane == k))).map (fun f => (LaneFrame.decode f).bytes)) =
      [(LaneFrame.decode idleFrame).bytes] := rfl
  unfold frameStream
  rw [h, idle_decode, deal_one _ idle_length]
  rfl

theorem witness_PortFrames :
    (listens (oneLane false false) 16 ∧ (oneLane false false).faults.inject = none ∧ ((oneLane false false).link 16).rxWidths = [] ∧
      ((oneLane false false).link 16).rxRetry = false ∧ ((oneLane false false).link 16).rxChanged = false) ∧
    frameGood (oneLane false false) 16 [idleFrame] ∧ (∀ f ∈ [idleFrame], (LaneFrame.decode f).flips = 0 ∧
      (LaneFrame.decode f).corrected = 0 ∧ (LaneFrame.decode f).lost = 0) ∧
    (∀ i, 32 * i + 32 ≤ (frameStream (oneLane false false) 16 [idleFrame]).length →
      flitOk (((frameStream (oneLane false false) 16 [idleFrame]).drop (32 * i)).take 32) 0) ∧
    (0 < portLanes 16 ∧ ((oneLane false false).link 16).rxMask.testBit 0 = true) ∧
    (listens (oneLane true true) 16 ∧ ((oneLane true true).link 16).rxRetry = true ∧
      ((oneLane true true).link 16).rxChanged = true ∧ roomy (oneLane true true) F.LINK_CNT_COUNT [16, 3] 1) := by
  refine ⟨?_, ?_, ?_, ?_, ?_, ?_⟩
  · unfold listens State.ready; decide
  · refine ⟨⟨0, by decide, rfl⟩, ?_⟩
    intro k hk hm
    have hk0 : k = 0 := by
      have : ((oneLane false false).link 16).rxMask = 1 := rfl
      rw [this] at hm
      have h1 : k < 32 := hk
      revert hm; revert k; decide
    subst hk0
    refine ⟨idleFrame, rfl, ?_⟩
    rw [idle_decode]
    exact ⟨rfl, by decide +kernel, by decide +kernel⟩
  · intro f hf
    have : f = idleFrame := by simpa using hf
    subst this; rw [idle_decode]; exact ⟨rfl, rfl, rfl⟩
  · intro i hi
    rw [idle_stream] at hi ⊢
    have hl : (ctrlFlit 0 []).length = 32 := by decide
    have hn : i < 160 := by simp [hl] at hi; omega
    have := cut_replicate (ctrlFlit 0 []) ((ctrlFlit 0 []).take 16) 160 i hn
    rw [hl] at this
    rw [this]
    unfold flitOk; decide
  · decide
  · unfold listens roomy State.ready; decide

/-- Lane 1 of that port is in use no more, taken by a self-test or with EN 0. -/
def leavingLane (tests : List (Nat × Nat)) (en : Nat) : State :=
  ((linkUp (fun l => { l with rxMask := 1, tests := tests })).wr F.LANE_STATUS_STATE [65] 2).wr F.LANE_CTRL_EN [65] en

theorem witness_PortFrames_unused :
    (∀ a ∈ [([(1, 2)], 1), ([], 0)], let s := leavingLane a.1 a.2
      listens s 16 ∧ s.faults.inject = none ∧ (s.link 16).rxWidths = [] ∧ (s.link 16).rxRetry = false ∧
      (s.link 16).rxMask = ((oneLane false false).link 16).rxMask ∧ (s.link 16).rxPart = ((oneLane false false).link 16).rxPart ∧
      (s.link 16).rxNext = ((oneLane false false).link 16).rxNext ∧
      1 < portLanes 16 ∧ s.laneState (portLane 16 + 1) = 2 ∧ s.laneUnused 16 (portLane 16 + 1) = true) ∧
    taken (leavingLane [(1, 2)] 1) 16 1 = true ∧ taken (leavingLane [] 0) 16 1 = false ∧
    (leavingLane [] 0).on F.LANE_CTRL_EN [portLane 16 + 1] = false := by
  unfold listens taken State.ready; refine ⟨?_, ?_, ?_, ?_⟩ <;> decide +kernel

/-- ZP in training. -/
def training (min_ : Nat) : State := (up.wr F.RT_PORT_STATE [16] 1).wr F.LINK_PORT_CFG_MIN_LANES [16] min_

/-- ZP in service on these lanes; lane 64, its first, in a state. -/
def laned (mask st min_ : Nat) : State :=
  ((linkUp (fun l => { l with rxMask := mask, txMask := mask })).wr F.LANE_STATUS_STATE [64] st).wr F.LINK_PORT_CFG_MIN_LANES [16] min_

/-- What the clauses on a lane's self-test and EN ask. -/
def laneFacts (s : State) : Prop :=
  s.ready ∧ s.reaches .lanePrbs [64] ∧ s.reaches .laneCtrl [64] ∧ s.rd F.LANE_PRBS_RESULT [64] ≠ 1 ∧ s.portState (lanePort 64) = pUP

theorem witness_LanesAndTraining :
    (up.ready ∧ up.portState 16 ≠ pTRAINING ∧ (∀ m ∈ [1, 31], (training m).ready ∧ (training m).portState 16 = pTRAINING) ∧
      lanesThat 16 (fun k => (3 : BitVec 32).getLsbD k && (training 31).on F.LANE_CTRL_EN [portLane 16 + k]) < (training 31).rd
        F.LINK_PORT_CFG_MIN_LANES [16] ∧
      (training 1).rd F.LINK_PORT_CFG_MIN_LANES [16] ≤
        lanesThat 16 (fun k => (3 : BitVec 32).getLsbD k && (training 1).on F.LANE_CTRL_EN [portLane 16 + k])) ∧
    (up.reaches .linkPortCfg [16] ∧ up.fabricPort 16 = true ∧ up.roleIdles 16 = false) ∧
    (laneFacts (laned 3 0 1) ∧ (laned 3 0 1).laneState 64 = 0 ∧ laneFacts (laned 1 2 1) ∧ (laned 1 2 1).laneState 64 = 2 ∧
      taken (laned 1 2 1) 16 0 = false ∧ laneFacts (tested 2) ∧ taken (tested 2) 16 0 = true ∧
      maskCount ((laned 1 2 1).link 16).rxMask ≤ 1) ∧
    (∀ m ∈ [1, 31], laneFacts (laned 3 2 m) ∧ (laned 3 2 m).laneState 64 = 2 ∧ 1 < maskCount ((laned 3 2 m).link 16).rxMask ∧
      (laned 3 2 m).lanesEnough 16 (maskMinus ((laned 3 2 m).link 16).rxMask 1) = decide (m = 1)) ∧
    (lanePort 64 = 16 ∧ portLane 16 = 64 ∧
      (laneFacts (tested 3) ∧ (tested 3).laneState 64 ≠ 2 ∧ (tested 3).laneState 64 ≠ 1 ∧ taken (tested 3) 16 0 = true ∧
        Tbl.find 0 ((tested 3).link 16).tests = some 2 ∧ ((tested 3).wr F.LANE_PRBS_RESULT [64] 1).rd F.LANE_PRBS_RESULT [64] = 1 ∧
        (tested 3).on F.LANE_CTRL_EN [64] = true) ∧
      (laneFacts (laned 3 1 1) ∧ (laned 3 1 1).laneState 64 = 1) ∧
      (laneFacts ((laned 3 2 1).wr F.LANE_CTRL_EN [64] 0) ∧ ((laned 3 2 1).wr F.LANE_CTRL_EN [64] 0).on F.LANE_CTRL_EN [64] = false ∧
        ((laned 3 2 1).wr F.LANE_CTRL_EN [64] 0).laneState 64 = 2 ∧ taken ((laned 3 2 1).wr F.LANE_CTRL_EN [64] 0) 16 0 = false ∧
        (((laned 3 2 1).wr F.LANE_CTRL_EN [64] 0).link 16).lpIdle.testBit 0 = false) ∧
      (laneFacts ((laned 3 0 1).wr F.LANE_CTRL_EN [64] 0) ∧ ((laned 3 0 1).wr F.LANE_CTRL_EN [64] 0).on F.LANE_CTRL_EN [64] = false ∧
        ((laned 3 0 1).wr F.LANE_CTRL_EN [64] 0).laneState 64 = 0) ∧ (laned 3 2 1).on F.LANE_CTRL_EN [64] = true) := by
  unfold laneFacts taken State.reaches State.ready; refine ⟨?_, ?_, ?_, ?_, ?_⟩ <;> decide +kernel

/-- A lane of an Ethernet port, and one of a port that is off. -/
theorem witness_LanesAndTraining_off :
    (let s := up.wr F.LINK_PORT_CFG_MODE [24] 1
     s.ready ∧ s.fabricPort 24 = false ∧ lanePort (portLane 24) = 24 ∧ s.reaches .laneCtrl [portLane 24] ∧
     s.on F.LANE_CTRL_EN [portLane 24] ≠ false ∧ (s.wr F.LANE_CTRL_EN [portLane 24] 0).on F.LANE_CTRL_EN [portLane 24] ≠ true) ∧
    (up.reaches .laneCtrl [64] ∧ up.portState (lanePort 64) = pOFF ∧ up.on F.LANE_CTRL_EN [64] = true) := by
  unfold State.reaches State.ready; refine ⟨?_, ?_⟩ <;> decide +kernel

/-- An uplink in Ethernet mode whose first port is in a state, its serving port open. -/
def ethIn (st : Nat) : State :=
  ((((fabric.wr F.TM_RED_EN [11, 0] 0).wr F.LINK_PORT_CFG_MODE [24] 1).wr F.LINK_ETH_STATUS_STATE [0] st).wr F.LINK_ETH_CFG_SERVE_PORT [0] 4791).updLink 16 (fun l =>
    { l with txC := [(vcOf 7 0, 100)] })

theorem witness_EthernetPorts_states : ∀ st < 6, (ethIn st).ready ∧ (ethIn st).fabricPort (ethUplink 0) = false ∧
    (ethIn st).ethState 0 = st ∧ ((ethIn st).wr F.LINK_ETH_STATUS_AN_FAIL [0] 1).on F.LINK_ETH_STATUS_AN_FAIL [0] = true ∧
    (ethIn st).on F.LINK_ETH_STATUS_AN_FAIL [0] = false := by
  unfold State.ready; decide

/-- An IPv6 and UDP datagram with a serving header for endpoint 33 of switch 1; `cut` bytes are missing from its header. -/
def datagram (port cut : Nat) : List Byte :=
  let head := (beBytes 2 0x5356 ++ [1, 0] ++ beBytes 2 97 ++ [0, 0] ++ List.replicate 24 0).take (32 - cut)
  let udp (ck : Nat) : List Byte := beBytes 2 1000 ++ beBytes 2 port ++ beBytes 2 (8 + head.length) ++ beBytes 2 ck ++ head
  let ip := [0x60, 0, 0, 0] ++ beBytes 2 (8 + head.length) ++ [17, 64] ++ List.replicate 32 0
  let pseudo := (ip.drop 8).take 32 ++ beBytes 4 (8 + head.length) ++ beBytes 4 17
  ip ++ udp (0xFFFF - fold16 (onesSum pseudo + onesSum (udp 0)))

/-- Frames to the port's own address. -/
def frame (etype : Nat) (data : List Byte) : List Byte := ethFrame ((ethIn 4).rd F.LINK_ETH_MAC_MAC [0]) 0 none etype data

/-- The packet that a serving datagram becomes. -/
def servePkt : Pkt :=
  let d := datagram 4791 0
  ({ Pkt.make kSERVE 7 97 16 with payload := d, flags := 1 } : Pkt).seal

/-- What the checks of a frame say: its FCS, EtherType, opcode and datagram. -/
def frameFacts (f : List Byte) : Bool × Nat × Nat × (List Byte ⊕ Nat) :=
  let b := f.take (f.length - 4)
  (decide (64 ≤ f.length) && decide (f.length ≤ 9216) && decide (fcs b = leAt f (f.length - 4) 4), (ethParts b).2.1,
    beAt (ethParts b).2.2 0 2, (ethIn 4).serving 0 b)

/-- A frame with an FCS that is not its own, a pause frame, a PFC frame, one that is not served, and one that is too long. -/
theorem witness_EthernetPorts_frames :
    (∀ n < 13, roomy (ethIn 4) F.LINK_ETH_CNT_COUNT [0, n] (1 + 9300)) ∧
    (¬(64 ≤ (List.replicate 64 (0 : Byte)).length ∧
      fcs ((List.replicate 64 (0 : Byte)).take (64 - 4)) = leAt (List.replicate 64 0) (64 - 4) 4)) ∧
    ((leBytes 4 (fcs [])).length < 64 ∧ fcs ((leBytes 4 (fcs [])).take 0) = leAt (leBytes 4 (fcs [])) 0 4) ∧
    (frameFacts (frame 0x8808 (beBytes 2 1))).1 = true ∧ (frameFacts (frame 0x8808 (beBytes 2 1))).2.2.1 = 1 ∧
    (frameFacts (frame 0x8808 (beBytes 2 0x101))).1 = true ∧ (frameFacts (frame 0x8808 (beBytes 2 0x101))).2.2.1 = 0x101 ∧
    frameFacts (frame 0x86DD (datagram 4792 0)) = (true, 0x86DD, 0x6000, .inr 7) ∧
    frameFacts (frame 0x86DD (datagram 4791 0)) = (true, 0x86DD, 0x6000, .inl (datagram 4791 0)) := by
  unfold roomy; refine ⟨?_, ?_, ?_, ?_, ?_, ?_, ?_, ?_, ?_⟩ <;> decide +kernel

theorem witness_EthernetPorts_served :
    goesTo (ethIn 4) (ethUplink 0) 0 servePkt 16 ⟨11, 7, false, 0, false⟩ ∧
    ((ethIn 4).rd F.LINK_ETH_CFG_PFC_TX_EN [0]).testBit ((ethIn 4).rd F.LINK_ETH_CFG_DEF_PRIO [0]) = false ∧
    (ethIn 4).on F.TM_PMAP_EN [leadTile (ethUplink 0), 7] = false ∧
    (beAt ((datagram 4791 0).drop 48) 4 2 = 97 ∧ (ethIn 4).switchId * 64 + 16 + leAt ((datagram 4791 0).drop 48) 6 1 % 16 = 16) := by
  refine ⟨⟨?_, ?_, ?_, ?_, fun _ => ?_, ?_, ?_, ?_, rfl, ?_⟩, ?_, ?_, ?_⟩
  all_goals decide +kernel

theorem crc32Shift_lt (k c : Nat) (h : c < 2 ^ 32) : crc32Shift k c < 2 ^ 32 := by
  induction k generalizing c with
  | zero => exact h
  | succ k ih =>
    rw [crc32Shift]
    apply ih
    split
    · exact Nat.xor_lt_two_pow (by omega) (by decide)
    · omega

theorem fcs_lt (bs : List Byte) : fcs bs < 2 ^ 32 := by
  have h : ∀ (l : List Byte) (c : Nat), c < 2 ^ 32 → l.foldl (fun c b => crc32Shift 8 (c ^^^ b.toNat)) c < 2 ^ 32 := by
    intro l
    induction l with
    | nil => intro c hc; exact hc
    | cons b l ih => intro c hc; exact ih _ (crc32Shift_lt 8 _ (Nat.xor_lt_two_pow hc (by omega)))
  exact Nat.xor_lt_two_pow (h bs _ (by decide)) (by decide)

/-- A frame that is longer than 9,216 bytes, with its FCS. -/
theorem witness_EthernetPorts_long : ∃ f : List Byte, 9216 < f.length ∧ 64 ≤ f.length ∧
    fcs (f.take (f.length - 4)) = leAt f (f.length - 4) 4 := by
  have key : ∀ (n : Nat) (b : List Byte), b.length = n →
      ∃ f : List Byte, f.length = n + 4 ∧ fcs (f.take (f.length - 4)) = leAt f (f.length - 4) 4 := by
    intro n b h
    have hl : (leBytes 4 (fcs b)).length = 4 := by simp [leBytes]
    refine ⟨b ++ leBytes 4 (fcs b), by simp [h, hl], ?_⟩
    have hn : (b ++ leBytes 4 (fcs b)).length - 4 = b.length := by simp [hl]
    rw [hn, List.take_left' rfl, leAt, List.drop_left' rfl, List.take_of_length_le (by omega), leNat_leBytes]
    exact (Nat.mod_eq_of_lt (fcs_lt b)).symm
  obtain ⟨f, hl, hf⟩ := key 9216 (List.replicate 9216 0) List.length_replicate
  exact ⟨f, by omega, by omega, hf⟩

/-! ### The control node -/

/-- A transaction's bytes. -/
def txn (ty flags addr : Nat) (len : Nat) (data : List Byte) : List Byte := Txn.encode ⟨ty, flags, 7, len, addr, data⟩

/-- Stylus port 0 UP, the route to switch 1's management endpoint valid. -/
def stylus : State := (up.wr F.GLB_STYLUS_STATUS_STATE [0] 2).wr F.RT_ENTRY_ENTRY [64 + 39] 5

/-- A request of port 0 waits for another switch. -/
def stylusBusy : State := { stylus with stylus := { stylus.stylus with fwd := [⟨1, 0, true, false, 1, 0, 8, [], 1⟩] } }

/-- Before firmware runs, and not in recovery either. -/
def stylusEarly : State := { stylus with sys := { stylus.sys with fwRuns := false } }

/-- The registers that the witnesses below read and write. -/
theorem plain_tileImgSrc :
    plainRead stylus (regAddr .tileImgSrc [0]) .tileImgSrc [0] ∧
    plainWrite stylus (regAddr .tileImgSrc [0]) .tileImgSrc [0] (leNat (leBytes 8 64)) :=
  ⟨⟨by decide, by decide, rfl⟩, by decide, rfl⟩

theorem witness_StylusReadsAndWrites :
    (stylus.ready ∧ stylus.stylusUp 0 = true ∧ up.ready ∧ up.stylusUp 0 = false ∧ Txn.parse [] = none ∧
      roomy stylus F.GLB_STYLUS_CNT_COUNT [0, 0] 1) ∧
    (stylusBusy.ready ∧ stylusBusy.stylusUp 0 = true ∧ stylusBusy.portBusy 0 = true ∧ stylus.portBusy 0 = false) ∧
    -- reads: below all windows, of nothing, of a register, of memory
    (∀ a ∈ [0x1000008, 0xFFFFF8, regAddr .tileImgSrc [0], 0x10000000000], ∃ x, Txn.parse (txn 1 0 a 8 []) = some x ∧ x.ty = 1 ∧
      x.len = 8 ∧ x.at_ = a ∧ x.flags.testBit 1 = false) ∧
    -- writes, answered and posted
    (∀ a ∈ [0x1000008, 0xFFFFF8, regAddr .tileImgSrc [0], 0x10000000000], ∀ f ∈ [0, 1], ∃ x,
      Txn.parse (txn 3 f a 8 (leBytes 8 64)) = some x ∧ x.ty = 3 ∧ x.data = leBytes 8 64 ∧ x.at_ = a ∧ x.flags = f ∧
      x.flags.testBit 1 = false) ∧
    (stylus.reach 0x1000008 8 = .fail 1 ∧ stylus.reach 0xFFFFF8 8 = .hole ∧ stylus.reach 0x10000000000 8 = .mem ∧
      sound stylus 0x10000000000 8 ∧ stylus.mem.wf = true) ∧
    -- requests for other switches: one with a route, one without
    (∀ target ∈ [1, 2], ∀ ty ∈ [1, 3], ∃ x, Txn.parse (txn ty 3 (2 ^ 54 * target + 64) 8 (if ty = 3 then leBytes 8 64 else [])) = some x ∧
      x.ty = ty ∧ x.flags.testBit 0 = true ∧ x.flags.testBit 1 = true ∧ x.addr / 2 ^ 54 = target ∧ target ≠ stylus.switchId ∧
      (stylus.validId target = true ∧ (Route.ofNat (stylus.rd F.RT_ENTRY_ENTRY [target * 64 + 39])).valid = true ↔ target = 1)) ∧
    -- one that reads a register of another switch, not of eight bytes and of eight
    (∀ n ∈ [4, 8], ∃ x, Txn.parse (txn 1 3 (2 ^ 54 + regAddr .tileImgSrc [0]) n []) = some x ∧ x.ty = 1 ∧ x.flags.testBit 1 = true ∧
      x.addr / 2 ^ 54 = 1 ∧ (regWindow (x.addr % 2 ^ 54) (max 1 x.len)).isSome = true ∧
      ((x.len ≠ 8 ∨ x.addr % 2 ^ 54 % 8 ≠ 0) ↔ n = 4)) ∧
    -- served, and not yet
    (stylus.stylusServes = true ∧ stylusEarly.ready ∧ stylusEarly.stylusUp 0 = true ∧ stylusEarly.portBusy 0 = false ∧
      stylusEarly.stylusServes = false) := by
  refine ⟨?_, ?_, ?_, ?_, ?_, ?_, ?_, ?_⟩
  · unfold roomy State.ready; decide
  · unfold State.ready; decide
  · intro a ha
    refine ⟨⟨1, 0, 7, 8, a, []⟩, ?_⟩
    revert a; decide +kernel
  · intro a ha f hf
    refine ⟨⟨3, f, 7, 8, a, leBytes 8 64⟩, ?_⟩
    revert f; revert a; decide +kernel
  · unfold sound; decide
  · intro target ht ty hy
    refine ⟨⟨ty, 3, 7, 8, 2 ^ 54 * target + 64, if ty = 3 then leBytes 8 64 else []⟩, ?_⟩
    revert ty; revert target; decide +kernel
  · intro n hn
    refine ⟨⟨1, 3, 7, n, 2 ^ 54 + regAddr .tileImgSrc [0], []⟩, ?_⟩
    revert n; decide +kernel
  · unfold State.ready; decide

/-- The value of a doorbell. -/
def dbValue (ring bits index : Nat) : List Byte := leBytes 8 (ring + 2 ^ 12 * bits + 2 ^ 16 * index)

/-- Submission ring 5 in use with 16 entries, for the management block or a tile, completion ring 6 in use with records
posted up to 4. -/
def rings (tile : Nat) : State :=
  let s := (stylus.wr F.GLB_SQ_CFG_EN [5] 1).wr F.GLB_SQ_CFG_CONSUMER [5] tile
  let s := (s.wr F.GLB_SQ_CFG_ENTRIES_LOG2 [5] 4).wr F.GLB_SQ_MAILBOX_ADDR [5] (plateBase + 0x100000)
  let s := ((s.wr F.GLB_CQ_CFG_EN [6] 1).wr F.GLB_CQ_CFG_IRQ_EN [6] 1).wr F.GLB_CQ_CFG_ENTRIES_LOG2 [6] 4
  s.wr F.GLB_CQ_IDX_TAIL [6] 4

/-- Doorbells of rings in use and not in use, within their rules and outside them; one that is forwarded. -/
theorem witness_Doorbells :
    (∀ v ∈ [(5, 0, 3), (5, 0, 17), (9, 0, 0), (6, 1, 2), (6, 3, 2), (6, 1, 5), (9, 1, 0)], ∀ fwd ∈ [0, 2],
      ∃ x, Txn.parse (txn 5 fwd 0 8 (dbValue v.1 v.2.1 v.2.2)) = some x ∧ x.ty = 5 ∧ x.flags = fwd ∧
        leNat x.data % 4096 = v.1 ∧ (leNat x.data).testBit 12 = decide (v.2.1 ≠ 0) ∧ (leNat x.data).testBit 13 = decide (v.2.1 = 3) ∧
        fieldOf (leNat x.data) 16 16 = v.2.2 ∧ fieldOf (leNat x.data) 14 2 = 0 ∧ fieldOf (leNat x.data) 32 32 = 0) ∧
    (∀ tile ∈ [0, 1], (rings tile).ready ∧ (rings tile).stylusUp 0 = true ∧ (rings tile).portBusy 0 = false ∧
      roomy (rings tile) F.GLB_STYLUS_CNT_COUNT [0, 1] 1 ∧ roomy (rings tile) F.GLB_STYLUS_CNT_COUNT [0, 0] 1 ∧
      (rings tile).mem.wf = true ∧ (rings tile).on F.GLB_SQ_CFG_EN [5] = true ∧ (rings tile).on F.GLB_SQ_CFG_EN [9] = false ∧
      (rings tile).on F.GLB_SQ_CFG_CONSUMER [5] = decide (tile = 1) ∧ (rings tile).rd F.GLB_SQ_CFG_ENTRIES_LOG2 [5] = 4 ∧
      (rings tile).rd F.GLB_SQ_IDX_HEAD [5] = 0 ∧ (rings tile).rd F.GLB_SQ_IDX_TAIL [5] = 0 ∧
      (rings tile).rd F.GLB_SQ_CFG_TILE [5] = 0 ∧ (rings tile).rd F.GLB_SQ_MAILBOX_ADDR [5] = plateBase + 0x100000 ∧
      (rings tile).on F.GLB_CQ_CFG_EN [6] = true ∧ (rings tile).on F.GLB_CQ_CFG_EN [9] = false ∧
      (rings tile).on F.GLB_CQ_CFG_IRQ_EN [6] = true ∧
      (rings tile).rd F.GLB_CQ_IDX_TAIL [6] = 4 ∧ (rings tile).rd F.GLB_CQ_IDX_HEAD [6] = 0) ∧
    ((rings 0).stylusServes = true ∧ stylusEarly.ready ∧ stylusEarly.stylusUp 0 = true ∧ stylusEarly.portBusy 0 = false ∧
      stylusEarly.stylusServes = false ∧ stylusEarly.mem.wf = true ∧
      roomy stylusEarly F.GLB_STYLUS_CNT_COUNT [0, 1] 1 ∧ roomy stylusEarly F.GLB_STYLUS_CNT_COUNT [0, 0] 1) ∧
    (∀ a ∈ [plateBase + 0x1000, plateBase + 0x100004, plateBase + plateSize], let s := (rings 1).wr F.GLB_SQ_MAILBOX_ADDR [5] a
      s.ready ∧ s.stylusUp 0 = true ∧ s.portBusy 0 = false ∧ s.mem.wf = true ∧ s.stylusServes = true ∧
      roomy s F.GLB_STYLUS_CNT_COUNT [0, 1] 1 ∧ roomy s F.GLB_STYLUS_CNT_COUNT [0, 0] 1 ∧
      s.on F.GLB_SQ_CFG_EN [5] = true ∧ s.on F.GLB_SQ_CFG_CONSUMER [5] = true ∧ s.rd F.GLB_SQ_CFG_ENTRIES_LOG2 [5] = 4 ∧
      s.rd F.GLB_SQ_IDX_TAIL [5] = 0 ∧ s.rd F.GLB_SQ_CFG_TILE [5] = 0 ∧ s.rd F.GLB_SQ_MAILBOX_ADDR [5] = a) := by
  refine ⟨?_, ?_, ?_, ?_⟩
  · intro v hv fwd hf
    refine ⟨⟨5, fwd, 7, 8, 0, dbValue v.1 v.2.1 v.2.2⟩, ?_⟩
    revert fwd; revert v; decide +kernel
  · unfold roomy State.ready; decide +kernel
  · unfold roomy State.ready; decide +kernel
  · unfold roomy State.ready; decide +kernel

/-- A write of the device that waits for its WRACK. -/
def outWrite (sends : Nat) (why : MwrWhy) : MwrOut := ⟨0, 7, 0x1000, leBytes 8 1, sends, why⟩

/-- One such write is out. -/
def waitsAck (sends : Nat) (why : MwrWhy) : State :=
  { stylus with stylus := { stylus.stylus with out := [outWrite sends why] } }

/-- One is out on port 0, which has gone down; port 1 is UP, or is not. -/
def waitsDown (other : Nat) : State :=
  ((waitsAck 1 (.shadow 6 0)).wr F.GLB_STYLUS_STATUS_STATE [0] 0).wr F.GLB_STYLUS_STATUS_STATE [1] other

/-- An interrupt of ring 6 is due, port 0 in this state, a write waiting for a port. -/
def dueRing (port : Nat) : State :=
  let s := (((rings 0).wr F.GLB_CQ_CFG_ARMED [6] 1).updCq 6 (fun c => { c with shadow := 4, late := port != 2 })).wr
    F.GLB_STYLUS_STATUS_STATE [0] port
  { s with stylus := { s.stylus with wait := [outWrite 0 (.shadow 6 0)] } }

/-- The writes that await a WRACK: a record at TAIL, a shadow; others; resends. -/
theorem witness_StylusEvents :
    ((∃ x, Txn.parse (txn 4 0 0 0 []) = some x ∧ x.ty = 4 ∧ x.tag = 7) ∧ stylus.stylus.out = []) ∧
    (∀ sends ∈ [1, 8], ∀ why ∈ [MwrWhy.record 6 0 none, .shadow 6 0], let s := waitsAck sends why
      s.ready ∧ s.stylusUp 0 = true ∧ s.stylus.out = [outWrite sends why] ∧ s.stylus.wait = [] ∧
      s.rd F.GLB_CQ_IDX_TAIL [6] = 0 ∧ (s.cqSt 6).acked = [] ∧ (s.cqSt 6).shadowOut = false ∧ (s.cqSt 6).shadow ≠ (0 + 1) % 65536 ∧
      s.on F.GLB_CQ_CFG_ARMED [6] = false ∧ roomy s F.GLB_STYLUS_CNT_COUNT [0, 3] 1 ∧ roomy s F.GLB_STYLUS_CNT_COUNT [0, 4] 1) ∧
    (∀ port ∈ [0, 2], let s := dueRing port
      s.ready ∧ s.cqDue 6 = true ∧ s.stylusUp (s.cqPort 6) = decide (port = 2) ∧ s.cqDue 9 = false ∧ s.stylusUp 0 = decide (port = 2) ∧
      (s.cqSt 6).late = decide (port = 0) ∧ s.stylus.out = [] ∧ s.stylus.wait = [outWrite 0 (.shadow 6 0)]) ∧
    (∀ other ∈ [0, 2], let s := waitsDown other
      s.ready ∧ s.stylus.out = [outWrite 1 (.shadow 6 0)] ∧ s.stylusUp 0 = false ∧ s.stylusUp 1 = decide (other = 2) ∧
      roomy s F.GLB_STYLUS_CNT_COUNT [1, 3] 1) ∧
    (stylus.reaches .glbStylusCfg [] ∧ stylus.stylusUp 1 = false) := by
  refine ⟨⟨⟨⟨4, 0, 7, 0, 0, []⟩, ?_⟩, ?_⟩, ?_, ?_, ?_, ?_⟩
  · decide +kernel
  · decide
  · unfold roomy State.ready; decide +kernel
  · unfold State.ready; decide +kernel
  · unfold roomy State.ready; decide +kernel
  · unfold State.reaches; decide

/-- Sending is reported on the board bus when the last port goes down with its interrupts on. -/
theorem witness_StylusEvents_down :
    let s := { stylus with i3c := { stylus.i3c with ibiEn := true } }
    s.ready ∧ s.reaches .glbStylusCfg [] ∧ s.stylusUp 0 = true ∧ s.stylusUp 1 = false ∧ s.i3c.ibiEn = true := by
  unfold State.ready State.reaches; decide

/-- An entry of ring 5: its operation, whether it reports, its register, two values. -/
def entry (op report a v mask : Nat) : List Byte :=
  leBytes 1 op ++ leBytes 1 report ++ leBytes 2 6 ++ leBytes 4 0 ++ leBytes 8 a ++ leBytes 8 v ++ leBytes 8 mask

/-- Ring 5 of the management block with an entry in HBM. -/
def entryRing : State := ((rings 0).wr F.GLB_SQ_BASE_BASE [5] 0x10000000000).wr F.GLB_SQ_IDX_TAIL [5] 1

/-- That ring with that entry. -/
def withEntry (b : List Byte) : State := { entryRing with mem := Memory.write [] 0x10000000000 b }

/-- What an access reaches does not hang on memory. -/
theorem reach_other (s : State) (m : Memory) (a n : Nat) : ({ s with mem := m } : State).reach a n = s.reach a n := rfl

/-- TILE_IMG_SRC is written by its access codes alone. -/
theorem plain_turn (s : State) (h : s.reach (regAddr .tileImgSrc [0]) 8 = .reg .tileImgSrc [0]) (v : Nat) :
    plainWrite { s with stylus := { s.stylus with turn := 5 } } (regAddr .tileImgSrc [0]) .tileImgSrc [0] v := ⟨h, rfl⟩

/-- Whether a ring's record may be posted does not hang on memory. -/
theorem cqOpen_mem (s : State) (m : Memory) (h : cqOpen s 6) : cqOpen { s with mem := m } 6 := h

theorem witness_ManagementEntries :
    (∀ op < 4, ∀ report < 2, ∀ v ∈ [0, 64], let b := entry op report (regAddr .tileImgSrc [0]) v (if op = 3 then 64 else 0)
      nextEntry (withEntry b) 5 b ∧ leAt b 0 1 = op ∧ (leAt b 1 1).testBit 0 = decide (report = 1) ∧ leAt b 2 2 % 4096 = 6 ∧
      leAt b 8 8 = regAddr .tileImgSrc [0] ∧ leAt b 0x10 8 = v ∧ leAt b 0x18 8 = (if op = 3 then 64 else 0) ∧
      ((withEntry b).regRead .tileImgSrc [0]).1 = 0 ∧ regAddr .tileImgSrc [0] ≠ regAddr .glbSqIdx [5] ∧
      (withEntry b).reach (regAddr .tileImgSrc [0]) 8 = .reg .tileImgSrc [0]) ∧
    (∀ b : List Byte, ((withEntry b).regRead .tileImgSrc [0]).2 = withEntry b) ∧
    (∀ (b : List Byte) (v : Nat), let s := { withEntry b with stylus := { (withEntry b).stylus with turn := 5 } }
      plainWrite s (regAddr .tileImgSrc [0]) .tileImgSrc [0] v) ∧
    (∀ b : List Byte, cqOpen (withEntry b) 6) := by
  refine ⟨?_, fun b => rfl, fun b v => plain_turn _ (by unfold withEntry; exact (reach_other entryRing _ _ _).trans (by decide)) v,
    fun b => by unfold withEntry; exact cqOpen_mem _ _ (by unfold cqOpen; decide)⟩
  · intro op ho report hr v hv
    refine ⟨⟨⟨?_, ?_⟩, ?_, ?_, ?_, ⟨?_, ⟨?_, ?_⟩, ?_⟩, ?_⟩, ?_⟩ <;> (revert v; revert report; revert op; decide +kernel)

/-- A POLL of ring 5 is being read. -/
def polling (want : Nat) : State :=
  { rings 0 with stylus := { (rings 0).stylus with polls := [⟨5, 6, true, regAddr .tileImgSrc [0], some (want, 64), 0⟩] } }

/-- A POLL that is read again; it matches and it does not. -/
theorem witness_ManagementEntries_poll : ∀ want ∈ [0, 64],
    (polling want).ready ∧ (polling want).bp.waits = [] ∧ (polling want).stylus.polls = [⟨5, 6, true, regAddr .tileImgSrc [0], some (want, 64), 0⟩] ∧
    (polling want).reach (regAddr .tileImgSrc [0]) 8 = .reg .tileImgSrc [0] ∧
    ((polling want).regRead .tileImgSrc [0]).1 &&& 64 = 0 ∧ cqOpen (polling want) 6 := by
  unfold State.ready cqOpen; decide +kernel

/-- A target with an address and without one; the static address of slot code 0. -/
theorem witness_BoardBus :
    up.ready ∧ up.i3c.dynAddr = none ∧ (0x50 : BitVec 7).toNat = 0x50 + up.rd F.GLB_COORD_SLOT_CODE [] ∧
    ({ up with i3c := { up.i3c with dynAddr := some 9 } }).ready ∧ (some 9 = some (9 : BitVec 7).toNat) := by
  unfold State.ready; decide

/-! ### Datamovers, buffer pools, memories -/

/-- Channel 3 of datamover 0 in a state, its ring open, with working state `x`. -/
def dmAt (st : Nat) (x : DmChan) : State := (((rings 0).wr F.DM_CH_STATUS_STATE [0, 3] st).wr F.DM_CH_CTRL_RING [0, 3] 6).setChan 0 3 x

/-- A descriptor of 100 bytes from HBM to HBM. -/
def desc (len flags : Nat) : DmDesc := ⟨0x10000000000, 0x10000001000, 0x10000002000, len, flags, 0x10000000040, 9⟩

theorem witness_DatamoverCommands :
    (∀ st < 4, (dmAt st DmChan.fresh).ready ∧ (dmAt st DmChan.fresh).reaches .dmChCtrl [0, 3] ∧
      (dmAt st DmChan.fresh).on F.DM_STATUS_HALTED [0] = false ∧ (dmAt st DmChan.fresh).dmState 0 3 = st ∧
      ((dmAt st DmChan.fresh).chan 0 3).desc = none) ∧
    (let s := dmAt 1 { DmChan.fresh with desc := some (desc 100 0) }
     s.dmState 0 3 = 1 ∧ (s.chan 0 3).desc = some (desc 100 0) ∧ (s.chan 0 3).issued < (desc 100 0).len) ∧
    (up.wr F.DM_STATUS_HALTED [0] 1).on F.DM_STATUS_HALTED [0] = true ∧ up.reaches .dmCtrl [0] := by
  unfold State.reaches State.ready; decide

/-- A descriptor's bytes. -/
def descBytes (res len flags : Nat) : List Byte :=
  leBytes 8 0x10000001000 ++ leBytes 8 0x10000002000 ++ leBytes 4 len ++ leBytes 2 flags ++ leBytes 2 res ++ leBytes 8 0x10000000040 ++
  leBytes 8 9 ++ List.replicate 24 0

/-- The channel is to fetch a descriptor with these fields; pool 0 has buffers. -/
def toFetch (a res len flags : Nat) : State :=
  let s := (dmAt 1 { DmChan.fresh with nextFetch := some a }).wr F.BP_POOL_CFG_EN [0] 1
  let p := { BpPool.fresh with cache := List.replicate 129 0x10000100000 }
  { s with mem := Memory.write [] 0x10000000000 (descBytes res len flags), bp := { s.bp with pools := [(0, p)] } }

/-- A descriptor misaligned, malformed, of length zero, well formed, and one with a pooled destination. -/
theorem witness_DescriptorsFetched :
    (∀ f ∈ [(0x10000000008, 0, 100, 0), (0x10000000000, 1, 100, 0), (0x10000000000, 0, 0, 0), (0x10000000000, 0, 100, 0),
        (0x10000000000, 0, 100, 4)],
      let s := toFetch f.1 f.2.1 f.2.2.1 f.2.2.2
      fetches s 0 3 f.1 ∧ s.on F.DM_CH_CTRL_RING_EN [0, 3] = false ∧ s.tiles = [] ∧ s.mem.wf = true ∧
      s.closed 0x10000000000 64 = false ∧ sound s 0x10000000000 64 ∧ s.rangeWin 0x10000000000 64 = some .hbm ∧
      DmDesc.ofBytes 0x10000000000 (s.mem.read 0x10000000000 64) = desc f.2.2.1 f.2.2.2 ∧
      leAt (s.mem.read 0x10000000000 64) 0x16 2 = f.2.1 ∧ leAt (s.mem.read 0x10000000000 64) 0x28 8 = 0 ∧
      s.inReset 7 0 = false ∧ s.bp.waits = [] ∧ s.bpChoose 0 = some 0 ∧ 128 < (s.pool 0).cache.length ∧ s.lowStack f.1 64 = false) ∧
    -- a stack in a low state; an address with no memory; a closed one
    (let s := (toFetch 0x10000000000 0 100 0).wr F.PWR_DOMAIN_STATE [192] 1
     fetches s 0 3 0x10000000000 ∧ s.on F.DM_CH_CTRL_RING_EN [0, 3] = false ∧ s.mem.wf = true ∧ s.lowStack 0x10000000000 64 = true) ∧
    (let s := toFetch 0x40 0 100 0
     fetches s 0 3 0x40 ∧ s.on F.DM_CH_CTRL_RING_EN [0, 3] = false ∧ s.mem.wf = true ∧ s.lowStack 0x40 64 = false ∧
     s.rangeWin 0x40 64 ≠ some .hbm ∧ s.rangeWin 0x40 64 ≠ some .ddr) ∧
    (let s := ((toFetch 0x10000000000 0 100 0).wr F.GLB_STAGE_HBM_BASE_BASE [] 0x10000000000).wr F.GLB_STAGE_POOL_HBM_MIB [] 1
     fetches s 0 3 0x10000000000 ∧ s.on F.DM_CH_CTRL_RING_EN [0, 3] = false ∧ s.mem.wf = true ∧ s.lowStack 0x10000000000 64 = false ∧
     s.closed 0x10000000000 64 = true) ∧
    (let s := toFetch 0x10000000000 0 100 0
     s.rangeWin (desc 100 0).src 100 ≠ none ∧ s.rangeWin (desc 100 0).dst 100 ≠ none ∧ s.admits (desc 100 0).src 100 (.dm 0) = true ∧
     s.admits (desc 100 0).dst 100 (.dm 0) = true) := by
  refine ⟨?_, ?_, ?_, ?_, ?_⟩
  · intro f hf
    refine ⟨⟨?_, ?_⟩, ?_, ?_, ?_, ?_, ⟨?_, ?_⟩, ?_⟩ <;> revert f <;> first | decide +kernel | (unfold State.ready; decide +kernel)
  · unfold fetches State.ready; decide +kernel
  · unfold fetches State.ready; decide +kernel
  · unfold fetches State.ready; decide +kernel
  · decide +kernel

/-- No hand-over is pending where no tile listed has one. -/
theorem tiles_noHandOver (s : State) (h : ∀ e ∈ s.tiles, e.2.handOver = none) : noHandOver s := by
  intro p
  have key : ∀ t : Tbl Tile, (∀ e ∈ t, e.2.handOver = none) → (Tbl.look Tile.fresh t p).handOver = none := by
    intro t ht
    induction t with
    | nil => rfl
    | cons e t ih =>
      simp only [Tbl.look, Tbl.find] at *
      split
      · exact ht e (List.mem_cons_self ..)
      · exact ih (fun x hx => ht x (List.mem_cons_of_mem _ hx))
  exact key s.tiles h

/-- A burst of 100 bytes in flight. -/
def burst : Burst := ⟨0, List.replicate 100 1, []⟩

theorem witness_DescriptorsRun :
    (let s := dmAt 1 { DmChan.fresh with desc := some (desc 100 0) }
     s.ready ∧ s.faults.inject = none ∧ s.mem.wf = true ∧ (s.chan 0 3).desc = some (desc 100 0) ∧ s.dmMayIssue 0 3 = true ∧
     sound s 0x10000001000 100) ∧
    (let s := dmAt 1 { DmChan.fresh with desc := some (desc 100 0), issued := 100, inFlight := [burst] }
     s.ready ∧ (s.chan 0 3).desc = some (desc 100 0) ∧ (s.chan 0 3).inFlight = burst :: [] ∧ burst.bad = [] ∧
     s.dmMayIssue 0 3 = false ∧ s.lowStack ((desc 100 0).dst + burst.off) burst.data.length = false) ∧
    -- the destination's stack is in a low state
    (let s := (dmAt 1 { DmChan.fresh with desc := some (desc 100 0), issued := 100, inFlight := [burst] }).wr F.PWR_DOMAIN_STATE [194] 1
     s.ready ∧ s.faults.inject = none ∧ s.mem.wf = true ∧ (s.chan 0 3).desc = some (desc 100 0) ∧ (s.chan 0 3).inFlight = burst :: [] ∧
     s.lowStack ((desc 100 0).dst + burst.off) burst.data.length = true) ∧
    -- done, going on or not, with a ring and without one
    (∀ ring ∈ [0, 1], ∀ flags ∈ [0, 1, 2], ∀ stop ∈ [none, some 0x40],
      let s := (dmAt 1 { DmChan.fresh with desc := some (desc 100 flags), issued := 100, written := 100, stop := stop,
                                            used := some 0x10000002000 }).wr F.DM_CH_CTRL_RING_EN [0, 3] ring
      s.ready ∧ s.faults.inject = none ∧ s.mem.wf = true ∧ (s.chan 0 3).desc = some (desc 100 flags) ∧ (s.chan 0 3).asking = false ∧
      (s.chan 0 3).inFlight = [] ∧ s.on F.DM_STATUS_HALTED [0] = false ∧ s.inReset 6 0 = false ∧ (s.chan 0 3).issued = 100 ∧
      sound s 0x10000002000 164 ∧ s.tiles = [] ∧ (s.chan 0 3).used = some 0x10000002000 ∧ (s.chan 0 3).stop = stop ∧
      (s.chan 0 3).poisoned = false ∧ s.lowStack (desc 100 flags).addr 64 = false ∧
      (∀ a ∈ s.readBacks (desc 100 flags).dst 100, s.lowStack a 1 = false) ∧ s.on F.DM_CH_CTRL_RING_EN [0, 3] = decide (ring = 1) ∧
      s.on F.GLB_CQ_CFG_EN [6] = true ∧ s.cqFull 6 = false ∧ s.stylus.out = [] ∧ s.rd F.DM_CH_CTRL_RING [0, 3] = 6) := by
  refine ⟨?_, ?_, ?_, ?_⟩
  · unfold sound State.ready; decide +kernel
  · unfold State.ready; decide +kernel
  · unfold State.ready; decide +kernel
  · intro ring hr flags hf stop hs
    refine ⟨?_, ?_, ?_, ?_, ?_, ?_, ?_, ?_, ?_, ⟨?_, ?_⟩, ?_⟩ <;> revert stop <;> revert flags <;> revert ring <;>
      first | decide +kernel | (unfold State.ready; decide +kernel)

/-- Datamover 0 works for the machinery: gate slot 2 pages in from DDR5, communicator 0 saves to it. -/
def machinery : State :=
  let s := withComm (up.wr F.GLB_GATE_SLOT_STATE [2] 1) { comm0 3 two [] with pause := some ⟨0, 100, ddrBase + 4096, true, some 5⟩ }
  { s with cs := { s.cs with gates := [(2, ⟨ddrBase, [], 0⟩)] } }

theorem witness_BusErrorHalts :
    (∀ h ∈ [0, 1], (up.wr F.DM_STATUS_HALTED [0] h).ready ∧
      (up.wr F.DM_STATUS_HALTED [0] h).on F.DM_STATUS_HALTED [0] = decide (h = 1)) ∧
    -- nothing for the machinery; a channel STOPPED and one with a descriptor
    noMachinery (dmAt 3 DmChan.fresh) 0 ∧
    (∀ st ∈ [1, 3], let s := dmAt st { DmChan.fresh with desc := if st = 1 then some (desc 100 0) else none }
      s.ready ∧ s.on F.DM_STATUS_HALTED [0] = false ∧ s.inReset 6 0 = false ∧ s.dmState 0 3 = st ∧
      (s.chan 0 3).desc = (if st = 1 then some (desc 100 0) else none)) ∧
    -- and with work for it
    (machinery.ready ∧ machinery.on F.DM_STATUS_HALTED [0] = false ∧ machinery.inReset 6 0 = false ∧
      machinery.rd F.GLB_GATE_SLOT_STATE [2] = 1 ∧ machineDie (machinery.gate 2).src = 0 ∧
      ∃ cm p, machinery.comm 0 = some cm ∧ cm.pause = some p ∧ p.savedAt ≠ none ∧ machineDie p.area = 0) := by
  refine ⟨?_, ⟨?_, ?_⟩, ?_, ?_, ?_, ?_, ?_, ?_, ⟨_, _, rfl, rfl, ?_, ?_⟩⟩
  · unfold State.ready; decide
  · decide
  · intro e he; have h : (dmAt 3 DmChan.fresh).cs.comms = [] := rfl; rw [h] at he; cases he
  · unfold State.ready; decide
  · unfold State.ready; decide
  all_goals decide

/-- The buffer pool manager with a pool as given, pool 0 of 1,024 buffers in HBM. -/
def pools (en : Nat) (p : BpPool) : State :=
  let s := (stylus.wr F.BP_POOL_CFG_EN [0] en).wr F.BP_POOL_CFG_COUNT [0] 1024
  let s := (s.wr F.BP_POOL_BASE_ADDR [0] 0x10000100000).wr F.BP_POOL_RING_ADDR [0] 0x10000010000
  { s with bp := { s.bp with pools := [(0, p)] } }

/-- 200 free buffers in the cache and 24 in the ring. -/
def somePool (refill filling : Bool) : BpPool := ⟨List.replicate 200 0x10000100000, 0, 24, refill, filling⟩

theorem witness_BufferPools :
    (∀ en ∈ [0, 1], let s := pools en (somePool false false)
      s.ready ∧ s.bp.waits = [] ∧ s.faults.inject = none ∧ s.stylusUp 0 = true ∧ s.portBusy 0 = false ∧ s.stylus.backlog = [] ∧
      s.reaches .bpAlloc [0] ∧ s.bpChoose 0 = (if en = 1 then some 0 else none) ∧ 128 < (s.pool 0).cache.length ∧
      s.reaches .bpFree [] ∧ s.bpHome (0x10000100000 : Word).toNat = (if en = 1 then some 0 else none) ∧
      roomy s F.BP_BAD_CNT_COUNT [] 1 ∧ (s.pool 0).free ≠ s.bpCount 0 ∧ (s.pool 0).cache.length < 448 ∧
      s.reaches .bpPoolCfg [0] ∧ s.on F.BP_POOL_CFG_EN [0] = decide (en = 1)) ∧
    (let s := pools 1 (somePool false true)
     (s.pool 0).filling = true ∧ 0 < s.bpCount 0 ∧ s.rangeWin (s.rd F.BP_POOL_RING_ADDR [0]) (8 * s.bpCount 0) = some .hbm ∧
     s.mem.wf = true) ∧
    (let p := (pools 1 (somePool true false)).pool 0
     p.refill = true ∧ 8 ≤ p.ringCount ∧ p.cache.length + 8 ≤ 512 ∧ 128 ≤ p.cache.length + 8 ∧
     (pools 1 (somePool true false)).memPoison = []) := by
  unfold State.reaches roomy State.ready; refine ⟨?_, ?_, ?_⟩ <;> decide +kernel

/-- A plate whose scrub is off, on, and at its last line; one whose hand-over is pending; one that an operation uses, another
one in use with its own hand-over waiting; one that none uses. -/
theorem witness_PlatesKept :
    (up.ready ∧ (up.wr F.PLATE_SCRUB_PERIOD [5] 0).rd F.PLATE_SCRUB_PERIOD [5] = 0 ∧
      up.reaches .plateOwner [5] ∧ (up.tile 6).handOver = none ∧ up.on F.PLATE_OWNER_PENDING [5] = false ∧ up.plateInUse 5 = false) ∧
    (∀ l ∈ [7, 131071], let s := (up.wr F.PLATE_SCRUB_PERIOD [5] 1).updTile 5 (fun tl => { tl with scrubLine := l })
      s.ready ∧ s.rd F.PLATE_SCRUB_PERIOD [5] ≠ 0 ∧ (s.tile 5).scrubLine = l ∧ l < 131072 ∧
      sound s (plateBase + 5 * plateSize + 64 * l) 64) ∧
    (let s := (up.wr F.PLATE_OWNER_PENDING [5] 1).updTile 5 (fun tl => { tl with handOver := some 9 })
     s.ready ∧ s.reaches .plateOwner [5] ∧ s.on F.PLATE_OWNER_PENDING [5] = true ∧ (s.tile 5).handOver = some 9) ∧
    (let s := (engine 2 (fun tl => { tl with memRun := [{ opOf 2 0 0 with plates := [5, 6] }] })).updTile 6
        (fun tl => { tl with handOver := some 9 })
     s.ready ∧ s.reaches .plateOwner [5] ∧ s.on F.PLATE_OWNER_PENDING [5] = false ∧ s.plateInUse 5 = true ∧
     s.plateInUse 6 = true ∧ (s.tile 6).handOver = some 9) := by
  unfold State.reaches sound State.ready; refine ⟨?_, ?_, ?_, ?_⟩ <;> decide +kernel

/-- HBM before its INIT, during it, and after; DDR5 in training with a module; sound memory. -/
theorem witness_HbmAndDdr :
    (up.ready ∧ up.sys.fwRuns = true ∧ up.memc.lastMap = b2n false ∧ up.memc.lastMap = 1 - b2n true ∧ up.mem.wf = true ∧
      up.memc.hbmWritten = false ∧ up.memc.hbmBusy = false) ∧
    (stylusEarly.ready ∧ stylusEarly.sys.fwRuns = false) ∧
    (let s := { up with memc := { up.memc with hbmWritten := true, hbmBusy := true, ddrBusy := true } }
     s.ready ∧ s.sys.fwRuns = true ∧ s.memc.hbmWritten = true ∧ s.memc.hbmBusy = true ∧ s.memc.ddrBusy = true) ∧
    ((255 : BitVec 8).toNat = 255 ∧ (5 : BitVec 8).toNat ≠ 255) ∧
    (∃ m : DdrModule, [m][0]? = some m ∧ m.present = true ∧ m.trains = true ∧ [m].length ≤ 1) ∧
    (sound up (hbmBase + 64 * 5) 64 ∧ sound up (ddrBase + 2 * ddrRange + 64 * 5) 64) := by
  unfold sound State.ready
  refine ⟨?_, ?_, ?_, ?_, ⟨⟨true, true, 64, 2, 2⟩, by decide⟩, ?_⟩ <;> decide

/-- The audit of tile 9, on or off, its buffer reclaimed or not, at a count. -/
def auditing (on reclaim count : Nat) : State :=
  { ((up.wr F.TM_AUDIT_CFG_EN [9] on).wr F.TM_AUDIT_CFG_RECLAIM [9] reclaim) with count := BitVec.ofNat 64 count }

/-- On and off, due and not yet, with leaked cells of which one is too young. -/
theorem witness_BufferAudit :
    ∀ on ∈ [0, 1], ∀ reclaim ∈ [0, 1], ∀ count ∈ [5, 20000000], let s := auditing on reclaim count
      s.ready ∧ s.on F.TM_AUDIT_CFG_EN [9] = decide (on = 1) ∧ s.on F.TM_AUDIT_CFG_RECLAIM [9] = decide (reclaim = 1) ∧
      s.inReset 3 9 = false ∧ ((s.tm 9).auditAt + s.auditPeriod 9 ≤ s.now ↔ count = 20000000) ∧
      roomy s F.TM_CNT_COUNT [9, 27] 2 ∧ roomy s F.TM_CNT_COUNT [9, 28] 2 ∧
      (count = 20000000 → ([5, 7, 19999999].filter (fun a => decide (a + s.auditPeriod 9 ≤ s.now))).length = 2) := by
  unfold roomy State.ready; decide

/-! ### Faults, resets, power -/

/-- An injection armed for a checker of a tile or a unit, with checks left. -/
def armed (checker tile index left : Nat) : State :=
  { up with faults := { up.faults with inject := some ⟨checker, 0, tile, 1, index, left, false⟩ } }

theorem witness_CheckersReport :
    -- a class that the checker does not raise; a UL of a tile's block; a UF; an uncorrectable route entry; staging with no communicator
    (∀ x ∈ [((5 : Byte), (1 : Fin 6)), (5, 2), (6, 2), (4, 3), (0x17, 4), (0x0A, 2), (0x10, 2)],
      let d := checkerDie 0 x.1.toNat 9 9
      up.ready ∧ (x.2.val ∈ checkerClasses x.1.toNat ↔ x ≠ (5, 1)) ∧ d < 4 ∧
      withinLimits up ⟨d, x.2.val, x.1.toNat, if 1 ≤ x.1.toNat ∧ x.1.toNat ≤ 9 then 9 else 0, 97, 9, false, false, false⟩ ∧
      roomy up F.FLT_DIE_CNT_COUNT [d, x.2] 1 ∧ roomy up F.TILE_RESIDUE_CNT_COUNT [9] 1) ∧
    (wrapperOf ⟨0, 3, 4, 9, 97, 9, false, false, false⟩ = some (0, 9) ∧ up.validId (97 / 64) = true ∧ up.comm 97 = none) ∧
    -- a memory's checker: words that the window holds, and a page outside it
    (∀ x ∈ [((7 : Byte), (1 : Fin 6)), (7, 2), (0x11, 1)], let k := x.1.toNat
      let n := if k = 7 then 64 else 4096
      let a := if k = 7 then plateBase + 9 * plateSize + 97 % 131072 * 64 else hbmBase
      x.2.val ∈ checkerClasses k ∧ up.faults.inject = none ∧ (k = 0x11 → (0x10000000 : BitVec 32).toNat * 4096 = a) ∧
      ∀ w ∈ wordsOf a n, up.byteWin (8 * w) = some (if k = 7 then .plate else .hbm) ∧ w ∉ up.memPoison ∧
        (let h := up.eccHome (8 * w)
         withinLimits up ⟨h.2.2, x.2.val, k, if 1 ≤ k ∧ k ≤ 9 then 9 else 0, 0, h.2.1, false, false, false⟩ ∧
         roomy up F.FLT_DIE_CNT_COUNT [h.2.2, x.2] 1)) ∧
    (∀ w ∈ wordsOf 0 4096, up.byteWin (8 * w) ≠ some .ddr) ∧
    -- injected checks: the last one and another, of a tile's checker and of a port's
    (∀ x ∈ [((3 : Byte), 9, 0), (0x0E, 0, 2)], ∀ left ∈ [1, 2], let s := armed x.1.toNat x.2.1 x.2.2 left
      let cl := injectedClass x.1.toNat 1
      s.ready ∧ s.faults.inject = some ⟨x.1.toNat, 0, x.2.1, 1, x.2.2, left, false⟩ ∧ checkerClasses x.1.toNat ≠ [] ∧
      checkerDie 0 x.1.toNat 9 x.2.2 = 0 ∧ s.checkerShut x.1.toNat 0 (if 1 ≤ x.1.toNat ∧ x.1.toNat ≤ 9 then 9 else 0) x.2.2 = false ∧
      withinLimits s ⟨0, cl, x.1.toNat, if 1 ≤ x.1.toNat ∧ x.1.toNat ≤ 9 then 9 else 0, 97, x.2.2, true, false, false⟩ ∧
      roomy s F.FLT_DIE_CNT_COUNT [0, cl] 1) := by
  unfold withinLimits roomy State.ready
  refine ⟨?_, ?_, ?_, ?_, ?_⟩ <;> decide +kernel

/-- The pair in the fault state, with a UF out or not. -/
def faulty (uf : Bool) : State := { up with faults := { up.faults with pairFault := true, ufOut := uf } }

theorem witness_PairAndInjection :
    (∀ uf ∈ [false, true], (faulty uf).ready ∧ (faulty uf).faults.pairFault = true ∧ (faulty uf).faults.ufOut = uf ∧
      (faulty uf).rd F.SEC_BOOT_STATUS_PHASE [] = 3 ∧ (faulty uf).quietPast = true ∧ (faulty uf).reaches .fltPair []) ∧
    (∀ first ∈ [false, true], ∃ s : State, s = { faulty false with faults := { (faulty false).faults with firstReturn := first } } ∧
      s.ready ∧ s.faults.firstReturn = first ∧ s.quietPast = true ∧
      eventBase s F.FLT_RECOVERY_COUNT [] + 1 < 2 ^ F.FLT_RECOVERY_COUNT.width - 1) ∧
    (let s := { faulty false with faults := { (faulty false).faults with lastFault := some up.now } }
     s.ready ∧ s.quietPast = false) ∧
    (up.reaches .fltInject [] ∧ up.on F.FLT_INJECT_ARMED [] = false ∧ (0x16 : Word).toNat % 256 = 0x16 ∧ (0x800000005 : Word).toNat % 256 = 5) := by
  unfold State.reaches State.ready; refine ⟨?_, ?_, ?_, ?_⟩
  · decide
  · intro first h; refine ⟨_, rfl, ?_⟩; revert first; decide
  · decide
  · decide

/-- A block in reset, brought there by request or not. -/
def inReset (dom inst : Nat) (asked : Bool) : State := { up with faults := { up.faults with inReset := [⟨dom, inst, asked⟩] } }

theorem witness_BlockResets :
    (up.ready ∧ up.reaches .fltBlkrst [] ∧ up.on F.FLT_BLKRST_BUSY [] = false ∧ (up.wr F.FLT_BLKRST_BUSY [] 1).on F.FLT_BLKRST_BUSY [] = true ∧
      up.inWarm = false ∧ (up.tile 9).memRun = []) ∧
    (∀ x ∈ [(0, 9), (3, 9), (4, 16), (6, 2), (7, 0)], x.2 < domainSize x.1 ∧ up.inReset x.1 x.2 = false) ∧
    (up.fabricPort 16 = true ∧ up.roleIdles 16 = false) ∧
    (∃ cm x, (withComm up (comm0 2 two [coll0 0])).comm 0 = some cm ∧ x ∈ cm.ops ∧ x.home = 0) ∧
    (∀ x ∈ [(4, 26), (5, 4), (6, 4), (7, 1)], domainSize x.1 ≤ x.2) ∧
    (∀ asked ∈ [true, false], (inReset 3 9 asked).ready ∧ (inReset 3 9 asked).reaches .fltBlkrst [] ∧ (inReset 3 9 asked).inReset 3 9 = true ∧
      (inReset 3 9 asked).faults.inReset.find? (fun b => b.domain == 3 && b.inst == 9) = some ⟨3, 9, asked⟩ ∧
      (inReset 3 9 asked).inWarm = false) := by
  unfold State.reaches State.ready; refine ⟨?_, ?_, ?_, ⟨_, _, rfl, List.mem_singleton_self _, ?_⟩, ?_, ?_⟩ <;> decide

theorem witness_ArithmeticSelfTest :
    (∀ r < 6, let s := up.wr F.FLT_ASELFTEST_RESULT [9] r
      s.ready ∧ s.reaches .fltAselftest [9] ∧ s.rd F.FLT_ASELFTEST_RESULT [9] = r ∧ s.rd F.PWR_DOMAIN_TOL_NS [64 + 9] < 40000) ∧
    40000 ≤ (up.wr F.PWR_DOMAIN_TOL_NS [64 + 9] 40000).rd F.PWR_DOMAIN_TOL_NS [64 + 9] ∧
    (let s := up.wr F.FLT_ASELFTEST_RESULT [9] 1
     (s.tile 9).hatchQ = [] ∧ (s.tile 9).xhQ = [] ∧ (s.tile 9).hatchRun = [] ∧ (s.tile 9).xhRun = [] ∧ s.gatingOn 9 = false ∧ s.inReset 1 9 = false ∧
     s.inReset 2 9 = false ∧ s.rd F.FLT_ASELFTEST_RESULT [9] = 1) ∧
    (let s := (up.wr F.FLT_ASELFTEST_RESULT [9] 1).updTile 9 (fun tl => { tl with hatchRun := [opOf 1 0 0] })
     s.rd F.FLT_ASELFTEST_RESULT [9] = 1 ∧ (s.tile 9).hatchRun ≠ []) ∧
    (∀ n ∈ [0, 1], let s := (up.wr F.FLT_ASELFTEST_RESULT [9] 2).updTile 9 (fun tl => { tl with stTries := n })
      s.rd F.FLT_ASELFTEST_RESULT [9] = 2 ∧ (s.tile 9).stTries = n) := by
  unfold State.reaches State.ready; decide

/-- A domain in each state, tolerant and not; a busy one. -/
theorem witness_PowerDomains :
    (∀ st < 4, ∀ tol ∈ [0, 10, 6000], let s := (up.wr F.PWR_DOMAIN_STATE [70] st).wr F.PWR_DOMAIN_TOL_NS [70] tol
      s.ready ∧ plainDomain 70 ∧ s.pwrState 70 = st ∧ s.rd F.PWR_DOMAIN_TOL_NS [70] = tol ∧ s.reaches .pwrDomain [70] ∧
      s.pwrIdle 70 false = true ∧ s.pwrIdle 70 true = true) ∧
    (exitLatency 70 false ≤ 6000 ∧ exitLatency 70 true ≤ 6000 ∧ 10 < exitLatency 70 false) ∧
    (up.updTile 6 (fun tl => { tl with hatchRun := [opOf 1 0 0] })).pwrIdle 70 false = false := by
  unfold State.reaches plainDomain State.ready; decide

/-- Thresholds of 95 °C and 105 °C; the last sample above the second (2), far below it (0) or between (1), the throttle at a step. -/
def hot (heat step : Nat) : State :=
  let s := ((up.wr F.PWR_THERM_ALERT_C [] 95).wr F.PWR_THERM_THROTTLE_C [] 105).wr F.PWR_THERM_THROTTLING [] 1
  { s with sys := { s.sys with throttleT := step, heat := heat } }

theorem witness_HeatAndPower :
    (∀ x ∈ [((1100 : BitVec 16), (1100 : Int)), (1051, 1051), (1050, 1050), (1020, 1020), (1019, 1019), (950, 950), (900, 900), (899, 899)],
      x.1.toInt = x.2 ∧ x.1.toInt ≤ 1150) ∧
    (1150 < (1151 : BitVec 16).toInt ∧ (hot 2 0).ready ∧ (hot 2 0).inWarm = false) ∧
    (let s := (hot 2 0).wr F.SEC_BOOT_STATUS_PHASE [] 0
     s.ready ∧ s.inWarm = true) ∧
    ((hot 2 0).rd F.PWR_THERM_ALERT_C [] = 95 ∧ (hot 2 0).rd F.PWR_THERM_THROTTLE_C [] = 105) ∧
    (∀ step < 4, ∀ heat < 3, (hot heat step).ready ∧ (hot heat step).on F.PWR_THERM_THROTTLING [] = true ∧
      (hot heat step).sys.throttleT = step ∧ (hot heat step).sys.heat = heat) ∧
    (up.on F.PWR_THERM_THROTTLING [] = false ∧ up.rd F.PWR_INPUT_CAP_W [] < 3000 ∧ ¬(2300 < 100 ∨ up.rd F.PWR_INPUT_CAP_W [] < 0)) := by
  unfold State.ready; decide

/-- A module without power, tripped or not, with RESET_N asserted or not. -/
def dark (power tripped resetN : Bool) : State :=
  { up with sys := { up.sys with power := power, tripped := tripped, resetN := resetN } }

theorem witness_PowerAndColdResets : ∀ power ∈ [false, true], ∀ tripped ∈ [false, true], ∀ resetN ∈ [false, true],
    settledLc (dark power tripped resetN) ∧ (dark power tripped resetN).todo = [] ∧ (dark power tripped resetN).sys.power = power ∧
    (dark power tripped resetN).sys.tripped = tripped ∧ (dark power tripped resetN).sys.resetN = resetN ∧
    (900 : BitVec 16).toInt = 900 ∧ (899 : BitVec 16).toInt < 900 ∧
    -- samples at both ends of a band, and in two bands
    (∀ v ∈ List.replicate 8 1125 ++ List.replicate 8 2249, 1125 * 1 ≤ v ∧ v < 1125 * 2) ∧
    (∀ c < 15, ¬∀ v ∈ List.replicate 8 1124 ++ List.replicate 8 1125, 1125 * c ≤ v ∧ v < 1125 * (c + 1)) := by
  unfold settledLc; decide

theorem witness_WarmResets :
    (up.ready ∧ up.inWarm = false ∧ settledLc up ∧ Tbl.sorted up.regs ∧ up.reaches .glbResetCmd [] ∧ up.sys.fwRuns = true ∧
      up.rd F.GLB_MGMT_WDOG_PERIOD_MS [] ≠ 0 ∧ up.reaches .glbMgmtWdog []) ∧
    (let s := (faulty true).wr F.FLT_ESC_UF_ACTION [] 1
     s.ready ∧ s.inWarm = false ∧ settledLc s ∧ Tbl.sorted s.regs ∧ s.faults.ufOut = true ∧ s.on F.FLT_ESC_UF_ACTION [] = true) ∧
    (∀ fw ∈ [false, true], let s := { up with sec := { up.sec with lcReset := true }, sys := { up.sys with fwRuns := fw } }
     s.ready ∧ s.inWarm = false ∧ settledLc s ∧ Tbl.sorted s.regs ∧ s.sec.lcReset = true ∧ s.sys.fwRuns = fw) ∧
    (eventBase up F.GLB_RESET_CAUSE_WARM_COUNT [] + 1 < 2 ^ F.GLB_RESET_CAUSE_WARM_COUNT.width - 1) ∧
    (up.faults.ufOut = false ∧ up.sec.lcReset = false ∧ (up.wr F.GLB_MGMT_WDOG_PERIOD_MS [] 0).rd F.GLB_MGMT_WDOG_PERIOD_MS [] = 0) := by
  unfold settledLc State.reaches Tbl.sorted State.ready; decide

/-! ### Boot and security -/

/-- The first 24 bytes of a firmware image of no code. -/
def fwHead : List Byte := leBytes 4 0x46574D53 ++ leBytes 2 1 ++ leBytes 2 0 ++ leBytes 4 3 ++ leBytes 4 0 ++ leBytes 8 0

/-- A firmware image with a SIGNER_ID and a signature, its key `testKey`. -/
def fwImage (sid sig : List Byte) : List Byte :=
  fwHead ++ (sid ++ (List.replicate 24 0 ++ (testKey ++ (List.replicate 96 0 ++ sig))))

/-- A boot that is to check slot A, or slot B after it, the key's hash fused. -/
def booting (second : Bool) (phase : Nat) : State :=
  let s := up
  let s := { s with sys := { s.sys with fwRuns := false }, sec := { s.sec with fuses := { s.sec.fuses with
    svn := 0, keys := [⟨hashNat testKey, true, false, false, false⟩] } } }
  (s.wr F.SEC_BOOT_STATUS_PHASE [] phase).wr F.SEC_BOOT_STATUS_RESULT_A [] (if second then 6 else 1)

theorem fwHead_length : fwHead.length = 24 := by decide

/-- A field before the SIGNER_ID. -/
theorem fwImage_head (sid sig : List Byte) (o k : Nat) (h : o + k ≤ 24) :
    ((fwImage sid sig).drop o).take k = (fwHead.drop o).take k := by
  have l := fwHead_length
  exact drop_take_head _ _ _ _ (by omega)

/-- Bytes after the SIGNER_ID. -/
theorem fwImage_rest (sid sig : List Byte) (hs : sid.length = 16) (o k : Nat) :
    ((fwImage sid sig).drop (40 + o)).take k =
      ((List.replicate 24 0 ++ (testKey ++ (List.replicate 96 0 ++ sig))).drop o).take k := by
  have l := fwHead_length
  rw [fwImage, ← List.append_assoc, ← List.drop_drop, List.drop_left' (by simp [l, hs])]

/-- The zeros before the key, the key and the zeros after it. -/
theorem fwImage_parts (sid sig : List Byte) (hs : sid.length = 16) :
    ((fwImage sid sig).drop 0x28).take 24 = List.replicate 24 0 ∧ ((fwImage sid sig).drop 0x40).take 96 = testKey ∧
    ((fwImage sid sig).drop 0xA0).take 96 = List.replicate 96 0 := by
  have hk := testKey_length
  refine ⟨?_, ?_, ?_⟩
  · rw [fwImage_rest sid sig hs 0 24, List.drop_zero, List.take_left' (by simp)]
  · rw [fwImage_rest sid sig hs 24 96, List.drop_left' (by simp), List.take_left' hk]
  · rw [fwImage_rest sid sig hs 120 96, ← List.append_assoc, List.drop_left' (by simp [hk]), List.take_left' (by simp)]

/-- A firmware image signed by a fused key is accepted. -/
theorem fwImage_accepted (s : State) (sig : List Byte) (hs : sig.length = 96)
    (hk : s.sec.fuses.keys = [⟨hashNat testKey, true, false, false, false⟩]) (hv : s.sec.fuses.svn = 0)
    (hsig : sigOk testKey ((fwImage (signerId testKey) sig).take 256) (((fwImage (signerId testKey) sig).drop 256).take 96) = true) :
    s.slotCheck (fwImage (signerId testKey) sig) = 0 := by
  have hid := signerId_length testKey
  have hl : (fwImage (signerId testKey) sig).length = 352 := by simp [fwImage, hid, hs, fwHead_length, testKey_length]
  have f : ∀ o k, o + k ≤ 24 → leAt (fwImage (signerId testKey) sig) o k = leAt fwHead o k := fun o k h => by
    rw [leAt, leAt, fwImage_head _ _ _ _ h]
  obtain ⟨z24, hkey, z96⟩ := fwImage_parts (signerId testKey) sig hid
  have hsid : ((fwImage (signerId testKey) sig).drop 0x18).take 16 = signerId testKey := by
    rw [fwImage, List.drop_left' fwHead_length, List.take_left' hid]
  have v : leAt fwHead 0 4 = 0x46574D53 ∧ leAt fwHead 4 2 = 1 ∧ leAt fwHead 8 4 = 3 ∧ leAt fwHead 0xC 4 = 0 := by decide
  have h6 : (((fwImage (signerId testKey) sig).drop 6).take 2).all (fun b => b == 0) = true := by
    rw [fwImage_head _ _ _ _ (by omega)]; decide
  unfold State.slotCheck
  simp only [f _ _ (show 0xC + 4 ≤ 24 by decide), f _ _ (show 8 + 4 ≤ 24 by decide), f _ _ (show 0 + 4 ≤ 24 by decide),
    f _ _ (show 4 + 2 ≤ 24 by decide), v, hl, h6, z24, z96, hsid, hkey, hk, hv]
  simp [hsig]

/-- What is signed of that image. -/
def fwMsg : List Byte := fwImage (signerId testKey) []

theorem fwMsg_hash : hashNat fwMsg =
    0x2B51F93B3917808473981E5E3C19EF29B2AFC0F94E3919AD7B8D2F9D5882124F33EA8B93E0DC4B7D3DBE0013059A76AF := by
  decide +kernel

theorem fwMsg_signed : sigOk testKey fwMsg (signBytes 1 1 fwMsg) = true := by
  unfold sigOk signBytes
  rw [fwMsg_hash]
  decide +kernel

/-- Slots that cannot be read, that hold no image, that hold a signed one; running firmware; the READY
phase; a pair in the fault state; the life-cycle states. -/
theorem witness_BootRuns :
    (∀ second ∈ [false, true], ∀ phase ∈ [0, 1, 2, 4], (booting second phase).ready ∧ (booting second phase).sys.fwRuns = false ∧
      (booting second phase).rd F.SEC_BOOT_STATUS_PHASE [] = phase ∧
      ((booting second phase).rd F.SEC_BOOT_STATUS_RESULT_A [] != 1) = second ∧ (booting second phase).sec.flash.slotA = none ∧
      (booting second phase).sec.flash.slotB = none ∧ (booting second phase).slotCheck [] ≠ 0) ∧
    (∀ second phase, (booting second phase).slotCheck (fwMsg ++ signBytes 1 1 fwMsg) = 0) ∧
    (up.ready ∧ up.sys.fwRuns = true ∧ up.rd F.SEC_BOOT_STATUS_PHASE [] ≠ 2) ∧
    (∀ lc ∈ [1, 2], ∀ changed ∈ [false, true], let s := (faulty false).wr F.SEC_BOOT_STATUS_PHASE [] 2
      let s := { s with sec := { s.sec with lcBoot := changed, fuses := { s.sec.fuses with lc := lc } } }
      s.ready ∧ s.rd F.SEC_BOOT_STATUS_PHASE [] = 2 ∧ s.faults.pairFault = true ∧ s.faults.ufOut = false ∧ s.faults.lastFault = none ∧
      s.sec.fuses.lc = lc ∧ s.sec.lcBoot = changed) := by
  refine ⟨?_, fun second phase => ?_, ?_, ?_⟩
  · intro second h phase h'
    refine ⟨?_, ?_, ?_, ?_, ?_, ?_, ?_⟩ <;> revert phase <;> revert second <;> first | decide | (unfold State.ready; decide)
  · have hs := signBytes_length 1 1 fwMsg
    have hl : fwMsg.length = 256 := by simp [fwMsg, fwImage, fwHead_length, signerId_length, testKey_length]
    have e : fwImage (signerId testKey) (signBytes 1 1 fwMsg) = fwMsg ++ signBytes 1 1 fwMsg := by simp [fwMsg, fwImage]
    rw [← e]
    refine fwImage_accepted _ _ hs rfl rfl ?_
    rw [e, List.take_left' hl, List.drop_left' hl, List.take_of_length_le (Nat.le_of_eq hs)]
    exact fwMsg_signed
  · unfold State.ready; decide
  · unfold State.ready; decide

/-- A security command in progress, its input bytes in HBM; the life cycle, the owner's hash and the serial number as fused. -/
def secAt (op src lc : Nat) (bs : List Byte) : State :=
  let s := up
  { s with mem := Memory.write [] 0x10000000000 bs, sec := { s.sec with
      cmd := some (op, src, 0x10000100000), measure := 7,
      fuses := { s.sec.fuses with lc := lc, owner := some (hashNat testKey), serial := 5, pending := none } } }

/-- What holds of every such state. -/
theorem secAt_source (op src lc : Nat) (bs : List Byte) (hw : (secAt op src lc bs).rangeWin 0x10000000000 bs.length ≠ none) :
    (secAt op src lc bs).mem.wf = true ∧ secSource (secAt op src lc bs) 0x10000000000 bs := by
  have hm : (secAt op src lc bs).mem = Memory.write [] 0x10000000000 bs := rfl
  have hp : (secAt op src lc bs).memPoison = [] := rfl
  have h := read_write [] 0x10000000000 bs rfl bs.length (Nat.le_refl _)
  rw [List.take_length] at h
  refine ⟨by rw [hm]; exact Memory.write_wf _ _ rfl, hw, ⟨rfl, fun w _ => by rw [hp]; exact List.not_mem_nil⟩, by rw [hm, h]⟩

/-- What is signed of a request for a life-cycle state, by its magic number. -/
def lcHead (magic target : Nat) : List Byte := leBytes 4 magic ++ leBytes 1 target ++ leBytes 3 0 ++ leBytes 8 5 ++ testKey

/-- What is signed of a key list of one key, by its magic number. -/
def klHead (magic : Nat) : List Byte := leBytes 4 magic ++ leBytes 2 1 ++ [1, 0] ++ leBytes 8 0 ++ testKey ++ List.replicate 768 0

/-- What the fields of those requests are. -/
theorem requests_fields : ∀ m ∈ [0x4356434C, 0x4B4C5453, 0],
    (klHead m).length = 880 ∧ ((klHead m).drop 0x10).take 96 = testKey ∧ leAt (klHead m) 0 4 = m ∧ leAt (klHead m) 4 2 = 1 ∧
    leAt (klHead m) 6 1 = 1 ∧ leAt (klHead m) 7 1 = 0 ∧ (∀ b ∈ ((klHead m).drop (0x70 + 96 * 1)).take (768 - 96 * 1), b = 0) ∧
    (lcHead m 2).length = 112 ∧ ((lcHead m 2).drop 0x10).take 96 = testKey ∧ leAt (lcHead m 2) 0 4 = m ∧ leAt (lcHead m 2) 4 1 = 2 ∧
    leAt (lcHead m 2) 5 3 = 0 ∧ leAt (lcHead m 2) 8 8 = 5 := by
  decide +kernel

theorem klHead_hash : hashNat (klHead 0x4B4C5453) =
    0x5FA2E3745D78C93BCB649350276D8BFF0F0966ED4E755C3B08431103098530B1D7A3E37A16EC37884D24243A0C3E15EB := by
  decide +kernel

theorem klHead_signed : sigOk testKey (klHead 0x4B4C5453) (signBytes 1 1 (klHead 0x4B4C5453)) = true := by
  unfold sigOk signBytes
  rw [klHead_hash]
  decide +kernel

theorem lcHead_hash : hashNat (lcHead 0x4356434C 2) =
    0x74D0D31B7AF14EBC196AF689BDC4C0BFD9303A0960326E706CC94CA917192636E84803F340B05B24B26BC47138992954 := by
  decide +kernel

theorem lcHead_signed : sigOk testKey (lcHead 0x4356434C 2) (signBytes 1 1 (lcHead 0x4356434C 2)) = true := by
  unfold sigOk signBytes
  rw [lcHead_hash]
  decide +kernel

theorem witness_SecurityCommands :
    (up.ready ∧ eventBase up F.SEC_TAMPER_COUNT [] + 1 < 2 ^ F.SEC_TAMPER_COUNT.width - 1 ∧ up.reaches .secCmd [] ∧ up.on F.SEC_CMD_STATUS_BUSY [] = false ∧
      (up.wr F.SEC_CMD_STATUS_BUSY [] 1).on F.SEC_CMD_STATUS_BUSY [] = true ∧ up.sec.cmd = none) ∧
    (∀ op ∈ [1, 2, 3, 4, 5, 6], ∀ src ∈ [0x10000000000, 0x10000000008], ∀ lc ∈ [0, 2, 3],
      (secAt op src lc []).ready ∧ (secAt op src lc []).sec.cmd = some (op, src, 0x10000100000) ∧ (secAt op src lc []).sec.fuses.lc = lc ∧
      (secAt op src lc []).sec.flash.keyList = none ∧ (secAt op src lc []).rd F.SEC_BOOT_STATUS_PHASE [] ≠ 4 ∧
      (secAt op src lc []).mem.wf = true ∧
      ∀ n ∈ [48, 208, 352, 976], (secAt op src lc []).rangeWin 0x10000000000 n ≠ none ∧ (secAt op src lc []).rangeWin 0x10000100000 n ≠ none) ∧
    (∀ nonce, nonce.length = 48 → ((secAt 1 0x10000000000 2 nonce).report0 nonce).length = 256) ∧
    -- a key list, well formed with its key's hash fused, and one with another magic number
    (∀ sig ∈ [signBytes 1 1 (klHead 0x4B4C5453), List.replicate 96 0], ∀ m ∈ [0x4B4C5453, 0], let kl := klHead m ++ sig
      kl.length = 976 ∧ (kl.drop 0x10).take 96 = testKey ∧ leAt kl 0 4 = m ∧ leAt kl 4 2 = 1 ∧ leAt kl 6 1 = 1 ∧ leAt kl 7 1 = 0 ∧
      (secAt 3 0x10000000000 2 kl).sec.fuses.owner = some (hashNat ((kl.drop 0x10).take 96)) ∧
      ∀ b ∈ (kl.drop (0x70 + 96 * leAt kl 6 1)).take (768 - 96 * leAt kl 6 1), b = 0) ∧
    -- one of them signed, the other not
    (sigOk testKey (klHead 0x4B4C5453) (signBytes 1 1 (klHead 0x4B4C5453)) = true ∧
      sigOk testKey (klHead 0x4B4C5453) (List.replicate 96 0) = false) ∧
    -- a signed request to provision a module and one with another magic number
    (∀ m ∈ [0x4356434C, 0], let req := lcHead m 2 ++ signBytes 1 1 (lcHead m 2)
      req.length = 208 ∧ (secAt 4 0x10000000000 1 req).lcVerdict req = if m = 0 then .inl 4 else .inr 2) := by
  refine ⟨?_, ?_, ?_, ?_, ⟨klHead_signed, by decide +kernel⟩, ?_⟩
  · unfold State.reaches State.ready; decide
  · intro op ho src hs lc hl
    refine ⟨?_, ?_, ?_, ?_, ?_, ?_, ?_⟩ <;> revert lc <;> revert src <;> revert op <;> first | decide | (unfold State.ready; decide)
  · intro nonce h
    simp [State.report0, leBytes, beBytes, h]
  · intro sig hsig m hm
    have hs : sig.length = 96 := by
      simp only [List.mem_cons, List.not_mem_nil, or_false] at hsig
      rcases hsig with rfl | rfl
      · exact signBytes_length 1 1 _
      · rfl
    obtain ⟨hl, hk, h0, h4, h6, h7, hz, -⟩ := requests_fields m (by simp at hm ⊢; omega)
    have hk' : ((klHead m ++ sig).drop 0x10).take 96 = testKey := by rw [drop_take_head _ _ _ _ (by omega), hk]
    have h6' : leAt (klHead m ++ sig) 6 1 = 1 := by rw [leAt_head _ _ _ _ (by omega), h6]
    refine ⟨by simp [hl, hs], hk', ?_, ?_, h6', ?_, by rw [hk']; rfl, ?_⟩
    · rw [leAt_head _ _ _ _ (by omega), h0]
    · rw [leAt_head _ _ _ _ (by omega), h4]
    · rw [leAt_head _ _ _ _ (by omega), h7]
    · rw [h6', drop_take_head _ _ _ _ (by omega)]
      exact hz
  · intro m hm
    have hs : (signBytes 1 1 (lcHead m 2)).length = 96 := signBytes_length 1 1 _
    have hgood : m = 0x4356434C → sigOk testKey (lcHead m 2) (signBytes 1 1 (lcHead m 2)) = true := by
      rintro rfl; exact lcHead_signed
    generalize signBytes 1 1 (lcHead m 2) = sig at hs hgood
    obtain ⟨-, -, -, -, -, -, -, hl, hk, h0, h4, h5, h8⟩ := requests_fields m (by simp at hm ⊢; omega)
    have e : (lcHead m 2 ++ sig).take 0x70 = lcHead m 2 := List.take_left' hl
    have d : (lcHead m 2 ++ sig).drop 0x70 = sig := List.drop_left' hl
    have hv : (secAt 4 0x10000000000 1 (lcHead m 2 ++ sig)).lcVerdict (lcHead m 2 ++ sig) =
        if m ≠ 0x4356434C then .inl 4 else if !sigOk testKey (lcHead m 2) sig then .inl 2 else .inr 2 := by
      have hlc : (secAt 4 0x10000000000 1 (lcHead m 2 ++ sig)).sec.fuses.lc = 1 := rfl
      have hp : (secAt 4 0x10000000000 1 (lcHead m 2 ++ sig)).sec.fuses.pending = none := rfl
      have hser : (secAt 4 0x10000000000 1 (lcHead m 2 ++ sig)).sec.fuses.serial = 5 := rfl
      have g0 : leAt (lcHead m 2 ++ sig) 0 4 = m := by rw [leAt_head _ _ _ _ (by omega), h0]
      have g4 : leAt (lcHead m 2 ++ sig) 4 1 = 2 := by rw [leAt_head _ _ _ _ (by omega), h4]
      have g5 : leAt (lcHead m 2 ++ sig) 5 3 = 0 := by rw [leAt_head _ _ _ _ (by omega), h5]
      have g8 : leAt (lcHead m 2 ++ sig) 8 8 = 5 := by rw [leAt_head _ _ _ _ (by omega), h8]
      have gk : ((lcHead m 2 ++ sig).drop 0x10).take 96 = testKey := by rw [drop_take_head _ _ _ _ (by omega), hk]
      unfold State.lcVerdict
      simp only [g0, g4, g5, g8, gk, e, d, hlc, hp, hser, List.take_of_length_le (Nat.le_of_eq hs)]
      simp
    refine ⟨by simp [hl, hs], ?_⟩
    rw [hv]
    simp at hm
    rcases hm with rfl | rfl
    · rw [hgood rfl]; simp
    · simp

/-! ### JTAG, registers, the whole switch -/

theorem witness_JtagInstructions :
    (∀ resetN ∈ [false, true], (dark true false resetN).sys.power = true ∧ (dark true false resetN).todo = [] ∧
      (dark true false resetN).sys.resetN = resetN) ∧
    (∀ x ∈ [(0, 0, true), (3, 10, true), (3, 0, false), (2, 10, false)],
      let s := { up with sec := { up.sec with fuses := { up.sec.fuses with lc := x.1 } } }
      let s := s.wr F.GLB_COORD_SLOT_CODE [] x.2.1
      s.sys.power = true ∧ s.todo = [] ∧ eventBase s F.SEC_TAMPER_COUNT [] + 1 < 2 ^ F.SEC_TAMPER_COUNT.width - 1 ∧
      (x.2.2 = true ↔ s.sec.fuses.lc = 0 ∨ (s.sec.fuses.lc = 3 ∧ s.rd F.GLB_COORD_SLOT_CODE [] = 10))) := by
  decide

/-- Every register in its window, the rings enabled and not; a queue whose state is on chip and one whose state is not; a value
that moves the closed fields and one that does not. -/
theorem witness_RegistersWithRules :
    (up.ready ∧ up.reaches .tmPolicer [8, 5] ∧ regAbsent .tmPolicer [8, 5] = false ∧ up.reaches .tmPortShape [8] ∧
      regAbsent .tmPortShape [8] = false ∧ up.reaches .tmSample [8, 5] ∧ regAbsent .tmSample [8, 5] = false ∧
      up.reaches .lanePrbsErr [5]) ∧
    (∀ r < 2, up.reaches .tmSringCfg [16, r] ∧ regAbsent .tmSringCfg [16, r] = false) ∧
    (up.closed (64 * fieldOf (2 ^ 6 * (plateBase / 64) + 2 ^ 56) 6 42) 2048 = true ∧ (2 ^ 6 * (plateBase / 64) + 2 ^ 56).testBit 56 = true) ∧
    (fieldOf (up.rawReg .tmPortShape [8]) 18 39 = fieldOf 0 18 39 ∧ fieldOf (up.rawReg .tmPortShape [8]) 18 39 ≠ fieldOf (2 ^ 20) 18 39) ∧
    (up.reaches .tmQcfg [9, 5] ∧ (up.tm 9).resident 5 = true ∧ up.reaches .tmQcfg [9, 16000] ∧ (up.tm 9).resident 16000 = false ∧
      Tbl.find 16000 (up.tm 9).filling = none ∧ (up.tm 9).cached < 2048) ∧
    (∀ s ∈ [up, rings 0], s.ready ∧ s.reaches .glbSqCfg [5] ∧ s.reaches .glbCqCfg [6]) ∧
    (up.on F.GLB_SQ_CFG_EN [5] = false ∧ (rings 0).on F.GLB_SQ_CFG_EN [5] = true ∧ (up.rawReg .glbCqCfg [6]).testBit 4 = false ∧
      ((rings 0).rawReg .glbCqCfg [6]).testBit 4 = true) ∧
    (fieldOf ((rings 0).rawReg .glbSqCfg [5]) 0 11 = fieldOf 4 0 11 ∧ fieldOf ((rings 0).rawReg .glbSqCfg [5]) 0 11 ≠ fieldOf 5 0 11 ∧
      fieldOf ((rings 0).rawReg .glbCqCfg [6]) 0 4 ≠ fieldOf 5 0 4) := by
  unfold State.reaches State.ready; decide +kernel

/-- A register that hardware updates, too, its mark of this cycle from an update or from a write, or none. -/
def marked (a : Nat) (m : Option Bool) : State :=
  { stylus with faults := { stylus.faults with rws := match m with | some hw => [⟨a, stylus.now, 7, hw⟩] | none => [] } }

theorem witness_RegisterWrites_rws : ∀ row ∈ rwsRows, ∀ m ∈ [none, some false, some true],
    let a := regAddr row.1.reg row.2
    let s := marked a m
    s.ready ∧ (regWindow a 8).isSome = true ∧ a < 2 ^ 64 ∧ s.reaches row.1.reg row.2 ∧
    (s.rwsMark a).map (·.hw) = m := by
  unfold State.reaches State.ready; decide +kernel

/-- A register without a rule of its own, an unassigned address, an isolated one, each in a window. -/
theorem witness_RegisterWrites :
    stylus.ready ∧ (regWindow (regAddr .tileImgSrc [0]) 8).isSome = true ∧
    (∃ idx, plainWrite stylus (regAddr .tileImgSrc [0]) .tileImgSrc idx 64 ∧ idx = [0]) ∧
    ((regWindow 0xFFFFF8 8).isSome = true ∧ stylus.reach 0xFFFFF8 8 = .hole) ∧
    ((regWindow (regAddr .tileImgCmd [9]) 8).isSome = true ∧ (inReset 0 9 true).reach (regAddr .tileImgCmd [9]) 8 = .fail 5 ∧
      (inReset 0 9 true).ready) := by
  refine ⟨?_, ?_, ⟨[0], ⟨by decide, rfl⟩, rfl⟩, ?_, ?_⟩
  · unfold State.ready; decide
  · decide
  · decide
  · unfold State.ready; decide

/-- A module that hears no command, a step with nothing to do. -/
theorem witness_EveryCommandCompletes : (dark false false false).live = false ∧ (dark false false false).todo = [] ∧
    heardAsleep .quietPeriodEnd = false ∧ up.pending = [] ∧
    (∀ debt ∈ [(8 : Int), -8, 7], ∀ phase ∈ [0, 4999], let s := { up with time := { up.time with debt := debt, phase := phase } }
      s.pending = [] ∧ s.live = true ∧ s.time.debt = debt ∧ s.time.phase = phase) := by
  refine ⟨?_, ?_, ?_, ?_, ?_⟩ <;> decide

theorem witness_TransactionsReadBack : txnFits ⟨3, 1, 65535, 8, 64, leBytes 8 7⟩ ∧ txnFits ⟨5, 0, 0, 8, 0, leBytes 8 7⟩ ∧
    txnFits ⟨1, 3, 0, 8191, 2 ^ 64 - 1, []⟩ ∧ txnFits ⟨4, 0, 7, 0, 0, []⟩ := by
  unfold txnFits; decide

theorem witness_PacketsReadBack : pktFits (putPkt 3 97 0) ∧ Pkt.parse (putPkt 3 97 0).encode = .ok (putPkt 3 97 0) := by
  unfold pktFits; decide +kernel

/-- A memory in canonical form, and the step of a command that writes to it. -/
theorem witness_MemoryStaysCanonical :
    let s := { up with mem := [(0x10000000000, 1), (0x10000000007, 2)] }
    s.mem.wf = true ∧ ∃ t, step s = .next t := ⟨by decide, _, rfl⟩

theorem witness_IdentityCode : up.sys.power = true ∧ up.todo = [] := by decide

/-- A torus port UP and all of them down; the coordinates at zero. -/
theorem witness_CoordinateWrites :
    (up.ready ∧ up.reaches .glbCoord [] ∧ torusPorts.any up.portUp = false ∧ up.rd F.GLB_COORD_X [] = 0) ∧
    ((up.wr F.RT_PORT_STATE [16] 3).ready ∧ (up.wr F.RT_PORT_STATE [16] 3).reaches .glbCoord [] ∧
      torusPorts.any (up.wr F.RT_PORT_STATE [16] 3).portUp = true) := by
  unfold State.reaches State.ready; decide

theorem witness_RoleChanges : ∀ role < 3, let s := up.wr F.GLB_COORD_ROLE [] role
    s.ready ∧ s.reaches .glbCoord [] ∧ s.rd F.GLB_COORD_ROLE [] = role ∧ s.slotIdles = false ∧ s.faults.ufOut = false ∧ s.sys.fwRuns = true ∧
    torusPorts.any s.portUp = false ∧ torusPorts.any (s.wr F.RT_PORT_STATE [16] 3).portUp = true ∧
    ∀ p < 24, s.portState p = pOFF := by
  unfold State.reaches State.ready; decide

/-- An image that requires deterministic mode runs. -/
theorem witness_DeterminismKept :
    (let s := (slotAt .running 1 [] []).wr F.GLB_MODE_DETERM [] 1
     s.ready ∧ s.reaches .glbMode [] ∧ s.on F.GLB_MODE_DETERM [] = true ∧ needsDeterm s) ∧
    (up.ready ∧ up.reaches .glbMode [] ∧ ¬(up.on F.GLB_MODE_DETERM [] = true)) := by
  unfold State.reaches needsDeterm State.ready; decide

theorem witness_GlobalCountSet :
    ((up.wr F.GC_STATUS_MASTER [] 1).ready ∧ (up.wr F.GC_STATUS_MASTER [] 1).reaches .gcSet [] ∧
      (up.wr F.GC_STATUS_MASTER [] 1).on F.GC_STATUS_MASTER [] = true ∧ (up.wr F.GC_STATUS_MASTER [] 1).on F.GC_STATUS_EVER_SYNCED [] = false) ∧
    (up.reaches .gcSet [] ∧ up.on F.GC_STATUS_MASTER [] = false) := by
  unfold State.reaches State.ready; decide

/-! ### Operands that the outside cannot send -/

/-- One ill-formed command for each check. -/
theorem test_ill_formed :
    (Instr.ackReceive []).wellFormed = false ∧ (Instr.partialReceive [] true).wellFormed = false ∧
    (Instr.wrackReceive 0 []).wellFormed = false ∧ (Instr.hbmPatrolScrub (2 ^ 40) Ecc.clean).wellFormed = false ∧
    (Instr.i3cPrivateRead 9 9).wellFormed = false ∧ (Instr.bpRefillDone 0 513 Ecc.clean).wellFormed = false ∧
    (Instr.hbmPatrolScrub (384 * 2 ^ 24) Ecc.clean).wellFormed = false ∧ (Instr.ddrPatrolScrub 0 (128 * 2 ^ 24) Ecc.clean).wellFormed = false ∧
    (Instr.ddrInitDone [⟨true, true, 64, 2, 3⟩]).wellFormed = false ∧ (Instr.ddrInitDone (List.replicate 9 ⟨true, true, 64, 2, 2⟩)).wellFormed = false ∧
    (Instr.powerCapSample 65536 0 0 0).wellFormed = false := by
  decide

theorem test_ill_formed_frame (f : LaneFrame)
    (h : 32 ≤ f.lane ∨ 2 ^ 43690 ≤ f.line ∨ f.weak.length ≠ 170 ∨ ∃ k ∈ f.weak, 257 ≤ k) :
    (Instr.portFrameReceive 0 [f]).wellFormed = false := by
  cases hc : [f].all frameOk with
  | false => simp only [Instr.wellFormed, hc, Bool.false_and]
  | true =>
    rw [List.all_cons, List.all_nil, Bool.and_true] at hc
    unfold frameOk at hc
    generalize 2 ^ 43690 = n at hc h
    simp only [Bool.and_eq_true, decide_eq_true_eq, List.all_eq_true] at hc
    rcases h with h | h | h | ⟨k, hk, h⟩
    · omega
    · omega
    · exact absurd hc.1.2 h
    · have := hc.2 k hk; omega

theorem test_ill_formed_cells (cells : List Nat) (h : 16384 < cells.length) :
    (Instr.auditPass 0 cells true).wellFormed = false := by
  simp only [Instr.wellFormed, decide_eq_false_iff_not]
  omega

theorem test_ill_formed_frames (f : LaneFrame) : (Instr.portFrameReceive 0 (List.replicate 33 f)).wellFormed = false := by
  simp only [Instr.wellFormed, List.length_replicate]
  rw [Bool.and_eq_false_iff]
  exact .inr rfl

theorem test_ill_formed_slot (b : List Byte) (h : 16 * 2 ^ 20 < b.length) : (Instr.bootSlotChecked (some b) true).wellFormed = false := by
  simp only [Instr.wellFormed, decide_eq_false_iff_not]
  omega

/-- A command whose operands are as the spec gives them. -/
theorem test_well_formed : (Instr.ackReceive (List.replicate 36 0)).wellFormed = true ∧ (Instr.i3cPrivateRead 9 8).wellFormed = true := by
  decide

/-! ### Worked examples of the spec -/

/-- The block of the example of R50 and R51, each value as the W32 nearest to it. -/
def exampleBlock : List (Acc × Rnd) :=
  ([0x42340000, 0xC0533333, 0x3BAF4F0E, 0x4149999A] ++ List.replicate 12 0).map (fun x => ((decodeLane .w32 x).1, Rnd.near))

/-- spec/02_number_formats.md, "Worked example: a Q8 block": scale byte 0x80, the codes of its table, INX and UNF. -/
theorem test_example_q8_block :
    storeBlock .q8 2 exampleBlock =
      ([0x80000076, 0x800000BA, 0x80000000, 0x80000059] ++ List.replicate 12 0x80000000, ⟨false, true, true, false⟩) := by
  decide +kernel

/-- The same example's second block: 63.5 takes scale byte 0x81 and code 0x70. -/
theorem test_example_q8_block_above :
    storeBlock .q8 2 [((decodeLane .w32 0x427E0000).1, Rnd.near)] = ([0x81000070], ⟨false, false, true, false⟩) := by
  decide +kernel

/-- spec/02_number_formats.md, "Worked example: one block pair": 6.625, exact, stored to W16 as 0x4350. -/
theorem test_example_block_pair :
    let p := blockPair .q8 .q8 0x80 0x7C ([0x76, 0xBA] ++ List.replicate 14 0) ([0x38, 0x50] ++ List.replicate 14 0)
    p.2 = Flags.none ∧ storeElem p.1 .w16 Rnd.near = (0x4350, Flags.none) := by
  decide +kernel

/-- spec/02_number_formats.md, "Worked example: stochastic rounding to W16": 1 + 2^-11 has f = 0x4000, so it becomes 0x3E01 for
draws below that and 0x3E00 for the others, inexact in both cases. -/
theorem test_example_stochastic : ∀ index < 12,
    storeElem (Acc.exact false 2049 (-11)) .w16 ⟨.sr, 2, ⟨1, 0, 0, index⟩⟩ =
      (if srWord ⟨1, 0, 0, index⟩ >>> 48 < 0x4000 then 0x3E01 else 0x3E00, Flags.INX) := by
  decide +kernel

/-- spec/07_packets_routing.md, R292: the CRC-32C of "123456789". -/
theorem test_crc32c : crc32c [0x31, 0x32, 0x33, 0x34, 0x35, 0x36, 0x37, 0x38, 0x39] = 0xE3069283 := by decide +kernel

/-- spec/07_packets_routing.md, "Worked example: a PUT with a damaged packet": the three packets of 20,000 bytes. -/
theorem test_example_put :
    (messagePkts { Pkt.make kPUT 0 0x7509 0x5520 with comm := 7, chunk := 0x80000000, opseq := 2, flags := 2 } true
      (List.replicate 20000 0)).map (fun p => (p.optag, p.flags, p.payload.length, p.addr)) =
    [(0x800001, 2, 8192, 0x280000000), (0x800401, 2, 8192, 0x280002000), (0x800801, 3, 3616, 0x280004000)] := by
  decide +kernel

/-- spec/08_switch_core.md, "Worked example: voice requests beside an asset stream": the increments of the two packets. -/
theorem test_example_increments : tagInc 8228 1 = 539230208 ∧ tagInc 1060 1 = 69468160 := by decide

/-- The same example: of 80 requests of 1,060 bytes on full buckets 15 are green, 61 yellow and 4 red, and 484 and 876 bytes are
left. -/
theorem test_example_policer :
    let r := (List.range 80).foldl (fun (a : List Nat × PolSt) _ =>
      let c := polColour false 0 (1060 * bucketUnit) a.2
      (a.1 ++ [c.1], c.2)) ([], ⟨16384 * bucketUnit, 65536 * bucketUnit, 0⟩)
    r.1 = List.replicate 15 0 ++ List.replicate 61 1 ++ List.replicate 4 2 ∧ r.2.tc = 484 * bucketUnit ∧
    r.2.te = 876 * bucketUnit := by
  decide +kernel

/-- spec/05_collectives.md, "Worked example: a 1 GiB gradient all-reduce": the smallest quota is 32,256 KiB. -/
theorem test_example_quota :
    quotaMin { (comm0 2 [] []).desc with
      chunk := 65536, window := 16, members := (List.range 16).map (fun i => ⟨i, i, 0⟩),
      levels := List.replicate 3 ⟨8, 0, []⟩ } = 32256 := by decide +kernel

/-- spec/06_dispatch_combine.md, "Worked example: one serving step of the world model": the three largest logits, at experts 17,
41 and 88, are chosen in that order, and the first drop list entry is that of token 803. -/
theorem test_example_dispatch :
    (topK 3 ((List.range 96).map (fun e => (e, Val.acc (decodeLane .w32
      (if e = 17 then 0x40200000 else if e = 41 then 0x3FE00000 else if e = 88 then 0x3F000000 else 0)).1)))).map (·.1) =
      [17, 41, 88] ∧
    leNat (dropEntry (803, 41, 1)) = 0x0000012900000323 := by
  decide +kernel

/-- The same example: 0.622003 × 1.0 + 0.084179 × 4.0, the second choice dropped, is stored to W16 as 0x3DD6 with INX. -/
theorem test_example_combine :
    let one : Nat := 0x3E00
    let four : Nat := 0x4200
    let a : Area := ⟨0, 64, List.replicate 0x15 0 ++ [4, 0, 0, 16, 0, 0, 0], [], 0, true,
      [(17 * 2 ^ 16, leBytes 2 one ++ List.replicate 30 0, false), (88 * 2 ^ 16 + 29, leBytes 2 four ++ List.replicate 30 0, false)], 0⟩
    let r := (⟨up, comm0 2 away [], { coll0 0x11 with fmt := .w16 }⟩ : Run).combineToken a 803
      [⟨17, 1, 0, 0x3F1F3B97⟩, ⟨41, 2, 0, 0x3E966EC9⟩, ⟨88, 1, 29, 0x3DAC660A⟩]
    leAt r.1 0 2 = 0x3DD6 ∧ r.2 = Flags.INX := by
  decide +kernel

/-- spec/11_control_port.md, "Worked example: notifications into a wrapping ring": the payload of the MSI of completion ring 17. -/
theorem test_example_msi :
    (((((up.wr F.GLB_STYLUS_STATUS_STATE [0] 2).wr F.GLB_CQ_CFG_VECTOR [17] 0x211).updCq 17 (fun c =>
      { c with shadow := 1025 })).sendMsi 17).outbox) = [.stylus 0 6 0 0 8 0 0 (leBytes 8 0x0000040100110211)] := by
  decide +kernel

end Sys2Proof.Tests
end

section
/-! SUPPORT. What an event of a register leaves alone (R497 to R501), and what a refused write does (R523). -/
namespace Sys2Proof.Claim
open Machine

variable {a s t : State} {d : Nat} {as : List Nat}

theorem tells.refl (s : State) (d : Nat) (as : List Nat) : tells s s d as := ⟨rfl, fun _ _ _ => rfl⟩

theorem tells.trans (h : tells a s d as) (k : tells s t d as) : tells a t d as := by
  obtain ⟨hfields, hregs⟩ := h
  obtain ⟨kfields, kregs⟩ := k
  refine ⟨?_, fun r idx hr => (kregs r idx hr).trans (hregs r idx hr)⟩
  calc t = { s with regs := t.regs, faults := t.faults, stylus := t.stylus, outbox := t.outbox } := kfields
    _ = _ := by rw [hfields]

/-- A register that is not named, and not of the collector, is as it was. -/
theorem tells.rawReg_eq (h : tells s t d as) {r : RegName} {idx : List Nat} (hr : regAddr r idx ∉ as ++ eventRegs d) :
    t.rawReg r idx = s.rawReg r idx := h.2 r idx hr

theorem tells.ite {t' : State} {c : Prop} [Decidable c] (h : tells s t d as) (h' : tells s t' d as) :
    tells s (if c then t else t') d as := by split <;> assumption

/-- A command whose effect is no more than this owes nothing. -/
theorem tells.after (h : tells s t d as) (hs : s.todo = []) : s.after t = t := by
  have htodo : t.todo = s.todo := by rw [h.1]
  have hpending : t.pending = s.pending := by rw [h.1]
  rw [State.after_nil s t (htodo.trans hs), ← hpending]

/-! ### The updates that an event makes -/

theorem tells.faults (h : tells s t d as) (x : FaultSt) : tells s { t with faults := x } d as :=
  h.trans ⟨rfl, fun _ _ _ => rfl⟩

theorem tells.wr (h : tells s t d as) {f : Fld} {idx : List Nat} (v : Nat) (hf : regAddr f.reg idx ∈ as ++ eventRegs d) :
    tells s (t.wr f idx v) d as :=
  h.trans ⟨rfl, fun _ _ hr => State.rawReg_wr_ne t f v fun he => hr (he ▸ hf)⟩

theorem tells.updCq (h : tells s t d as) (n : Nat) (f : CqSt → CqSt) : tells s (t.updCq n f) d as :=
  h.trans ⟨rfl, fun _ _ _ => rfl⟩

theorem dieStatus_mem (d : Nat) (as : List Nat) : regAddr .fltDieStatus [d] ∈ as ++ eventRegs d := by simp [eventRegs]
theorem dieLast0_mem (d : Nat) (as : List Nat) : regAddr .fltDieLast0 [d] ∈ as ++ eventRegs d := by simp [eventRegs]
theorem dieLast1_mem (d : Nat) (as : List Nat) : regAddr .fltDieLast1 [d] ∈ as ++ eventRegs d := by simp [eventRegs]
theorem dieCnt_mem (d : Nat) (as : List Nat) : regAddr .fltDieCnt [d, 0] ∈ as ++ eventRegs d := by simp [eventRegs]

theorem tells.updColl (h : tells s t d as) (f : Collector → Collector) : tells s (t.updColl d f) d as :=
  (h.faults _).wr _ (dieStatus_mem d as)

theorem tells.sendMwr (h : tells s t d as) (port addr : Nat) (data : List Byte) (why : MwrWhy) :
    tells s (t.sendMwr port addr data why) d as := by
  unfold State.sendMwr
  split <;> exact h.trans ⟨rfl, fun _ _ _ => rfl⟩

theorem tells.postCq (h : tells s t d as) (ring w0 w1 : Nat) (notify : Option (Nat × Nat)) :
    tells s (t.postCq ring w0 w1 notify).1 d as := by
  unfold State.postCq
  split
  · exact h
  · split
    · exact h
    · exact (h.updCq _ _).sendMwr _ _ _ _

theorem tells.loseRecord (h : tells s t d as) : tells s (t.loseRecord d) d as :=
  (h.updColl _).wr _ (dieStatus_mem d as)

theorem tells.postRecordWord (h : tells s t d as) (w0 w1 : Nat) : tells s (t.postRecordWord d w0 w1).1 d as := by
  have hpost := h.postCq (t.rd F.FLT_DIE_CFG_RING [d]) (w0 + 16 * b2n (t.coll d).lost) w1 none
  unfold State.postRecordWord
  dsimp only
  generalize t.postCq _ _ _ _ = p at hpost ⊢
  obtain ⟨t', answer⟩ := p
  cases answer with
  | posted =>
    dsimp only at hpost ⊢
    exact hpost.updColl _
  | full => exact hpost
  | off => exact hpost

theorem tells.offerRecord {r : Report} (h : tells s t r.die as) : tells s (t.offerRecord r) r.die as := by
  have hpost := h.postRecordWord (recordWord r false) t.now
  unfold State.offerRecord
  dsimp only
  generalize t.postRecordWord _ _ _ = p at hpost ⊢
  obtain ⟨t', answer⟩ := p
  refine .ite h.loseRecord (.ite (.ite ((h.updColl _).updColl _) h.loseRecord) ?_)
  cases answer with
  | posted => exact tells.updColl (t := t') hpost _
  | full => exact .ite ((tells.updColl hpost _).updColl _) (tells.loseRecord hpost)
  | off => exact tells.loseRecord hpost

theorem tells.rwsEvent (h : tells s t d as) {f : Fld} {idx : List Nat} (hf : regAddr f.reg idx ∈ as ++ eventRegs d) :
    tells s (t.rwsEvent f idx) d as := by
  unfold State.rwsEvent
  dsimp only
  split
  · exact .ite (h.faults _) ((h.faults _).wr _ hf)
  · exact h.faults _

theorem tells.recordOne {r : Report} (h : tells s t r.die as)
    (hcount : regAddr .fltDieCnt [r.die, r.cls] ∈ as ++ eventRegs r.die) : tells s (t.recordOne r) r.die as := by
  have hstatus := dieStatus_mem r.die as
  have hlast0 := dieLast0_mem r.die as
  have hlast1 := dieLast1_mem r.die as
  have hcounted (n : Nat) := h.wr (f := F.FLT_DIE_CNT_COUNT) n hcount
  unfold State.recordOne State.bump
  dsimp only
  refine (fun hlast => tells.ite hlast hlast.offerRecord) ?_
  refine .wr (.wr (.rwsEvent (.rwsEvent ?_ hlast0) hlast1) _ hlast0) _ hlast1
  exact .wr (.ite (.wr (hcounted _) _ hstatus) (hcounted _)) _ hstatus

/-- An event of a register is recorded by the collector of the register's die; it has no part in the fault pair and does not
escalate (R503, R506). -/
theorem event_eq_recordOne (s : State) (r : RegName) (idx : List Nat) :
    s.event r idx = s.recordOne
      ⟨(regHome r idx).1, 0, 0, (regHome r idx).2, regAddr r idx % 2 ^ 32, 0, false, false, false⟩ := rfl

theorem tells.event (h : tells s t d as) (r : RegName) (idx : List Nat) (hd : (regHome r idx).1 = d) :
    tells s (t.event r idx) d as := by
  subst hd
  rw [event_eq_recordOne]
  exact tells.recordOne h (dieCnt_mem _ _)

/-- The error status and its address lie in the register of refused writes, which no collector's event changes. -/
theorem tells.rd_cfgErr (h : tells s t 0 []) (f : Fld) (hf : f.reg = .fltCfgErr) : t.rd f [] = s.rd f [] := by
  simp only [State.rd, hf, h.rawReg_eq (r := .fltCfgErr) (idx := []) (by decide)]

/-- R523: what a refused write does. -/
theorem refuse_refused (s : State) (addr : Nat) : refused s (s.refuse addr) addr := by
  have hmem : regAddr .fltCfgErr [] ∈ [regAddr .fltCfgErr []] ++ eventRegs 0 := by decide
  unfold State.refuse
  by_cases herr : s.on F.FLT_CFG_ERR_ERR [] = true
  · have herr1 : s.rd F.FLT_CFG_ERR_ERR [] = 1 := by simpa [State.on] using herr
    rw [if_pos herr]
    refine ⟨(tells.refl s 0 _).wr _ hmem, ?_, ?_⟩
    · rw [State.rd_wr_disjoint s F.FLT_CFG_ERR_OVERRUN F.FLT_CFG_ERR_ERR [] 1 rfl (by decide) (by decide), herr1]
    · rw [if_pos herr]
      exact ⟨State.rd_wr_same s F.FLT_CFG_ERR_OVERRUN [] 1 (by decide),
        State.rd_wr_disjoint s F.FLT_CFG_ERR_OVERRUN F.FLT_CFG_ERR_ADDR [] 1 rfl (by decide) (by decide)⟩
  · have hoff : (s.wr F.FLT_CFG_ERR_ADDR [] addr).on F.FLT_CFG_ERR_ERR [] = s.on F.FLT_CFG_ERR_ERR [] := by
      rw [State.on, State.on, State.rd_wr_disjoint s F.FLT_CFG_ERR_ADDR F.FLT_CFG_ERR_ERR [] addr rfl (by decide) (by decide)]
    rw [if_neg herr, State.stickEv, hoff, if_neg herr]
    generalize hu : (s.wr F.FLT_CFG_ERR_ADDR [] addr).wr F.FLT_CFG_ERR_ERR [] 1 = u
    have hwritten : tells s u 0 [regAddr .fltCfgErr []] := hu ▸ ((tells.refl s 0 _).wr _ hmem).wr _ hmem
    have hevent : tells u (u.event F.FLT_CFG_ERR_ERR.reg []) 0 [] := (tells.refl u 0 []).event .fltCfgErr [] rfl
    refine ⟨hwritten.event .fltCfgErr [] rfl, ?_, ?_⟩
    · rw [tells.rd_cfgErr hevent F.FLT_CFG_ERR_ERR rfl, ← hu, State.rd_wr_same _ F.FLT_CFG_ERR_ERR [] 1 (by decide)]
      rfl
    · rw [if_neg herr, tells.rd_cfgErr hevent F.FLT_CFG_ERR_ADDR rfl, ← hu,
        State.rd_wr_disjoint _ F.FLT_CFG_ERR_ERR F.FLT_CFG_ERR_ADDR [] 1 rfl (by decide) (by decide),
        State.rd_wr_same s F.FLT_CFG_ERR_ADDR [] addr (by decide)]
      rfl

end Sys2Proof.Claim
end

section
/-! SUPPORT. What the work of ports, links and rings leaves alone. -/
namespace Sys2Proof.Machine
open Claim

/-- A register's copies lie at or above its first. -/
theorem base_le_regAddr (r : RegName) (idx : List Nat) : r.base ≤ regAddr r idx := Nat.le_add_right _ _

/-- What ports, links, rings and collectors leave alone as they work: everything but the registers, the link layer, the
time exchange, the collectors, the stylus ports, and what is sent, owed and drawn; and of the registers those below 0x100000,
the configuration of the switch as a whole (R489). -/
def PortWork (s t : State) : Prop :=
  t = { s with regs := t.regs, faults := t.faults, stylus := t.stylus, time := t.time, fab := t.fab, todo := t.todo,
               outbox := t.outbox, draws := t.draws } ∧
  ∀ r idx, regAddr r idx < 0x100000 → t.rawReg r idx = s.rawReg r idx

namespace PortWork
variable {a s t t' : State}

theorem refl (s : State) : PortWork s s := ⟨rfl, fun _ _ _ => rfl⟩

theorem trans (h : PortWork a s) (k : PortWork s t) : PortWork a t := by
  obtain ⟨hfields, hregs⟩ := h
  obtain ⟨kfields, kregs⟩ := k
  refine ⟨?_, fun r idx hr => (kregs r idx hr).trans (hregs r idx hr)⟩
  calc t = { s with regs := t.regs, faults := t.faults, stylus := t.stylus, time := t.time, fab := t.fab, todo := t.todo,
                    outbox := t.outbox, draws := t.draws } := kfields
    _ = _ := by rw [hfields]

theorem ite {c : Prop} [Decidable c] (h : PortWork s t) (h' : PortWork s t') : PortWork s (if c then t else t') := by
  split <;> assumption

/-- A fold over a list whose every step is such work. -/
theorem foldl {α : Type} {f : State → α → State} (hstep : ∀ t x, PortWork s t → PortWork s (f t x)) (l : List α) :
    ∀ t, PortWork s t → PortWork s (l.foldl f t) := by
  induction l with
  | nil => exact fun _ h => h
  | cons x l ih => exact fun t h => ih _ (hstep t x h)

theorem rawReg_eq (h : PortWork s t) {r : RegName} {idx : List Nat} (hr : regAddr r idx < 0x100000) :
    t.rawReg r idx = s.rawReg r idx := h.2 r idx hr

theorem tiles (h : PortWork s t) : t.tiles = s.tiles := by rw [h.1]
theorem mem (h : PortWork s t) : t.mem = s.mem := by rw [h.1]

/-! ### Registers, events -/

theorem setRaw (h : PortWork s t) {r : RegName} {idx : List Nat} (n : Nat) (hr : 0x100000 ≤ r.base) :
    PortWork s (t.setRaw r idx n) := by
  refine h.trans ⟨rfl, fun r' idx' hlow => State.rawReg_setRaw_ne t n ?_⟩
  have := base_le_regAddr r idx
  omega

theorem wr (h : PortWork s t) {f : Fld} {idx : List Nat} (v : Nat) (hf : 0x100000 ≤ f.reg.base) :
    PortWork s (t.wr f idx v) := h.setRaw _ hf

/-- The registers of the collectors are no configuration of the switch as a whole. -/
theorem of_tells {d : Nat} (h : tells s t d []) : PortWork s t := by
  refine ⟨h.1.trans (by rw [h.1]), fun r idx hlow => h.rawReg_eq fun hmem => ?_⟩
  have hs := base_le_regAddr .fltDieStatus [d]
  have h0 := base_le_regAddr .fltDieLast0 [d]
  have h1 := base_le_regAddr .fltDieLast1 [d]
  have hc := base_le_regAddr .fltDieCnt [d, 0]
  simp only [RegName.base] at hs h0 h1 hc
  simp only [eventRegs, List.nil_append, List.mem_cons, List.not_mem_nil, or_false] at hmem
  omega

theorem event (h : PortWork s t) (r : RegName) (idx : List Nat) : PortWork s (t.event r idx) :=
  h.trans (of_tells ((tells.refl t _ []).event r idx rfl))

theorem stickEv (h : PortWork s t) {f : Fld} {idx : List Nat} (hf : 0x100000 ≤ f.reg.base) : PortWork s (t.stickEv f idx) :=
  h.ite ((h.wr 1 hf).event _ _)

/-! ### The link layer, what is sent and owed -/

theorem fab (h : PortWork s t) (x : FabricSt) : PortWork s { t with fab := x } := h.trans ⟨rfl, fun _ _ _ => rfl⟩
theorem time (h : PortWork s t) (x : TimeSt) : PortWork s { t with time := x } := h.trans ⟨rfl, fun _ _ _ => rfl⟩
theorem emit (h : PortWork s t) (e : Emit) : PortWork s (t.emit e) := h.trans ⟨rfl, fun _ _ _ => rfl⟩
theorem owe (h : PortWork s t) (d : Due) : PortWork s (t.owe d) := h.trans ⟨rfl, fun _ _ _ => rfl⟩
theorem draw (h : PortWork s t) : PortWork s t.draw.2 := h.trans ⟨rfl, fun _ _ _ => rfl⟩
theorem updLink (h : PortWork s t) (p : Nat) (f : LinkPort → LinkPort) : PortWork s (t.updLink p f) := h.fab _
theorem updTm (h : PortWork s t) (k : Nat) (f : TmTile → TmTile) : PortWork s (t.updTm k f) := h.fab _

theorem retain (h : PortWork s t) (p : Nat) (x : LinkItem) : PortWork s (t.retain p x) := h.updLink _ _
theorem sendFlit (h : PortWork s t) (p : Nat) (flit : List Byte) : PortWork s (t.sendFlit p flit) := (h.retain _ _).emit _
theorem sendLpi (h : PortWork s t) (p groups k : Nat) : PortWork s (t.sendLpi p groups k) := h.sendFlit _ _
theorem sendPacket (h : PortWork s t) (p v cells : Nat) (reserved : Bool) (pkt : Pkt) :
    PortWork s (t.sendPacket p v cells reserved pkt) := ((h.updLink _ _).retain _ _).emit _

theorem stampTime (h : PortWork s t) (p : Nat) (q : Pkt) : PortWork s (t.stampTime p q).2 := by
  unfold State.stampTime
  dsimp only
  split
  · exact h
  · split
    · exact h.draw
    · exact h.draw.time _

theorem drainMgmt (p n : Nat) : ∀ {t : State}, PortWork s t → PortWork s (t.drainMgmt p n) := by
  induction n with
  | zero => exact fun h => h
  | succ n ih =>
    intro t h
    unfold State.drainMgmt
    split
    · exact h
    · exact .ite (ih (((h.updLink _ _).stampTime _ _).sendPacket _ _ _ _ _)) h

theorem linkCount (h : PortWork s t) (p n k : Nat) : PortWork s (t.linkCount p n k) := by
  have hcount : PortWork s (t.bump F.LINK_CNT_COUNT [p, n] k).1 := h.wr _ (by decide)
  exact .ite ((hcount.setRaw _ (by decide)).event _ _) hcount

/-! ### Lanes and ports -/

theorem showLane (h : PortWork s t) (was : State) (l : Nat) : PortWork s (t.showLane was l) := h.ite (h.emit _)

theorem setLane (h : PortWork s t) (l st : Nat) : PortWork s (t.setLane l st) :=
  ((((h.wr _ (by decide)).wr _ (by decide)).wr _ (by decide)).wr _ (by decide)).showLane _ _

theorem setLanes (h : PortWork s t) (p st : Nat) : PortWork s (t.setLanes p st) :=
  foldl (fun _ _ k => k.setLane _ _) _ _ h

theorem wakeGroups (h : PortWork s t) (p groups : Nat) : PortWork s (t.wakeGroups p groups) :=
  foldl (fun _ _ k => foldl (fun _ _ k => .ite (k.setLane _ _) k) _ _ (k.wr _ (by decide))) _ _ h

theorem wakeFor (h : PortWork s t) (p : Nat) : PortWork s (t.wakeFor p) := h.ite ((h.sendLpi _ _ _).wakeGroups _ _)

/-- A consequence that is owed in one case only. -/
theorem oweIf {c : Prop} [Decidable c] (h : PortWork s t) (d : Due) : PortWork s (if c then t.owe d else t) := .ite (h.owe d) h

theorem setPort (h : PortWork s t) (p st cause : Nat) : PortWork s (t.setPort p st cause) := by
  have hcause : PortWork s (t.wr F.RT_PORT_CAUSE [p] cause) := h.wr _ (by decide)
  have hshown := foldl (f := fun u l => u.showLane t l) (fun _ _ k => k.showLane _ _) (lanesOf p) _
    (hcause.wr (f := F.RT_PORT_STATE) (idx := [p]) st (by decide))
  have hchanged := hshown.stickEv (f := F.RT_PORT_CHANGED) (idx := [p]) (by decide)
  unfold State.setPort
  exact .ite hcause (oweIf (oweIf (oweIf (.ite hchanged (hchanged.wr _ (by decide))) _) _) _)

theorem flushPort (h : PortWork s t) (p : Nat) : PortWork s (t.flushPort p) :=
  ((foldl (fun _ _ k => (k.updTm _ _).fab _) _ _ h).fab _).owe _

theorem holdPort (h : PortWork s t) (p cause : Nat) : PortWork s (t.holdPort p cause) :=
  (((h.fab _).setPort _ _ _).setLanes _ _).flushPort _

/-! ### DISCOVER -/

theorem sendOnPort (h : PortWork s t) (p : Nat) (pkt : Pkt) : PortWork s (t.sendOnPort p pkt) := by
  have hqueued := (h.updLink p (fun l => { l with mgmt := l.mgmt ++ [pkt.seal] })).wakeFor p
  exact .ite (hqueued.drainMgmt _ _) ((hqueued.drainMgmt _ _).linkCount _ _ _)

theorem sendDiscover (h : PortWork s t) (p : Nat) : PortWork s (t.sendDiscover p) := .ite (h.sendOnPort _ _) h

theorem discoverAll (h : PortWork s t) : PortWork s t.discoverAll := foldl (fun _ _ k => k.sendDiscover _) _ _ h

/-! ### Rings -/

theorem phaseUp (h : PortWork s t) (n : Nat) : PortWork s (t.phaseUp n) := .ite (h.wr _ (by decide)) h

theorem tellBringup (h : PortWork s t) : PortWork s t.tellBringup := h.event _ _

theorem setOpen (h : PortWork s t) {f : Fld} (isOpen : Bool) (hf : 0x100000 ≤ f.reg.base) : PortWork s (t.setOpen f isOpen) :=
  .ite (h.wr _ hf).tellBringup (h.wr _ hf)

theorem zEval (h : PortWork s t) : PortWork s t.zEval := by
  unfold State.zEval
  dsimp only
  refine .ite h ((fun k => PortWork.ite k ((k.owe _).owe _)) ?_)
  have hseen (x : FabricSt) (n : Nat) := (h.fab x).wr (f := F.RT_BRINGUP_Z_PRESENT) (idx := []) n (by decide)
  have hled (x : FabricSt) (n : Nat) (y : FabricSt) (isOpen : Bool) (led : Nat) :=
    (((hseen x n).fab y).setOpen (f := F.RT_BRINGUP_Z_OPEN) isOpen (by decide)).wr
      (f := F.RT_BRINGUP_LEADER) (idx := []) led (by decide)
  refine .ite (.ite ((hled _ _ _ _ _).phaseUp 3) (.ite ?_ (hled _ _ _ _ _))) ((hseen _ _).phaseUp 3)
  exact .ite ((hled _ _ _ _ _).phaseUp 4).tellBringup ((hled _ _ _ _ _).phaseUp 4)

theorem xyWiring (h : PortWork s t) : PortWork s t.xyWiring := by
  refine foldl (fun u p k => ?_) _ _ h
  split
  · exact .ite (k.holdPort _ _) k
  · exact k

theorem xyEval (h : PortWork s t) : PortWork s t.xyEval := by
  have hwired : PortWork s (t.xyWiring.phaseUp 5) := h.xyWiring.phaseUp 5
  unfold State.xyEval
  refine .ite h ?_
  dsimp only
  split
  · exact hwired
  · next okX _ =>
    have hx := (hwired.setOpen (f := F.RT_BRINGUP_X_OPEN) (!okX) (by decide)).phaseUp 6
    split
    · exact hx
    · exact (hx.setOpen _ (by decide)).phaseUp 7

/-- R324: looking at the rings again changes neither the coordinates nor tiles or memory. -/
theorem ringsEval (h : PortWork s t) (force : Bool) : PortWork s (t.ringsEval force) :=
  .ite h.zEval.xyEval.discoverAll h.zEval.xyEval

end PortWork
end Sys2Proof.Machine
end

section
/-! SUPPORT. A write of the coordinates (R34). -/
namespace Sys2Proof.Machine
open Claim

/-- X, Y and XY_VALID of GLB_COORD as the one number that their seven bits spell. -/
def State.xyCode (s : State) : Nat := fieldOf (s.rawReg .glbCoord []) 4 7

/-- Seven bits are those of two coordinates and a flag exactly when each of the three fields is. -/
theorem fieldOf_xy_eq_iff (n x y b : Nat) (hx : x < 8) (hy : y < 8) (hb : b < 2) :
    fieldOf n 4 7 = x + 8 * y + 64 * b ↔ fieldOf n 4 3 = x ∧ fieldOf n 7 3 = y ∧ fieldOf n 10 1 = b := by
  simp only [fieldOf, Nat.shiftRight_eq_div_pow]
  omega

theorem b2n_lt_two (b : Bool) : b2n b < 2 := by cases b <;> decide

theorem State.xyCode_eq_iff (s : State) (x y : BitVec 3) (valid : Bool) :
    s.xyCode = x.toNat + 8 * y.toNat + 64 * b2n valid ↔
      (s.rd F.GLB_COORD_X [], s.rd F.GLB_COORD_Y [], s.rd F.GLB_COORD_XY_VALID []) = (x.toNat, y.toNat, b2n valid) := by
  rw [State.xyCode, fieldOf_xy_eq_iff _ _ _ _ x.isLt y.isLt (b2n_lt_two valid), Prod.mk.injEq, Prod.mk.injEq]
  rfl

/-- What is written to GLB_COORD when X, Y and XY_VALID take a code and the rest is left. -/
def State.withXy (s : State) (code : Nat) : Nat := setFieldOf (s.rawReg .glbCoord []) 4 7 code

@[simp] theorem State.xy_withXy (s : State) (code : Nat) (h : code < 128) : fieldOf (s.withXy code) 4 7 = code := by
  rw [State.withXy, fieldOf_setFieldOf_same]
  exact Nat.mod_eq_of_lt h

/-- A field outside X, Y and XY_VALID is left. -/
theorem State.fieldOf_withXy_ne (s : State) (code : Nat) {lo w : Nat} (h : lo + w ≤ 4 ∨ 11 ≤ lo) :
    fieldOf (s.withXy code) lo w = fieldOf (s.rawReg .glbCoord []) lo w := fieldOf_setFieldOf_ne _ _ _ _ _ _ h

/-! ### The three outcomes of a write that leaves ROLE -/

variable {s : State} {code v : Nat}

/-- A torus port is up: the write is refused (log 59). -/
theorem State.coordWrite_up (hrole : fieldOf v 12 2 = fieldOf (s.rawReg .glbCoord []) 12 2)
    (hup : torusPorts.any s.portUp = true) : s.coordWrite v = s.refuse (regAddr .glbCoord []) := by
  simp only [State.coordWrite, hrole, hup, or_true, and_self, if_true]

/-- Every torus port is down and the values are those that stand: nothing happens. -/
theorem State.coordWrite_same (hrole : fieldOf v 12 2 = fieldOf (s.rawReg .glbCoord []) 12 2)
    (hdown : torusPorts.any s.portUp = false) (hxy : fieldOf v 4 7 = s.xyCode) : s.coordWrite v = s := by
  rw [State.xyCode] at hxy
  simp [State.coordWrite, hrole, hdown, hxy]

/-- Every torus port is down and the values are new: they are stored, and the rings are looked at again (R324). -/
theorem State.coordWrite_new (hrole : fieldOf v 12 2 = fieldOf (s.rawReg .glbCoord []) 12 2)
    (hdown : torusPorts.any s.portUp = false) (hxy : fieldOf v 4 7 ≠ s.xyCode) :
    s.coordWrite v = (s.setRaw .glbCoord [] (s.withXy (fieldOf v 4 7))).ringsEval true := by
  rw [State.xyCode] at hxy
  simp [State.coordWrite, State.withXy, hrole, hdown, hxy]

/-! ### The command -/

/-- A command's write of a register that an access reaches (R468). -/
theorem State.cmdWrite_eq {r : RegName} {idx : List Nat} (h : s.reaches r idx) (v : Nat) :
    s.cmdWrite r idx v = s.regWrite r idx v := by
  simp only [State.cmdWrite, show s.reach (regAddr r idx) 8 = .reg r idx from h]

/-- What the command does: the fields take their new code by a write of GLB_COORD. -/
theorem does_glbCoordXyWrite (hready : s.ready) (hreach : s.reaches .glbCoord []) (x y : BitVec 3) (valid : Bool) :
    Does (.glbCoordXyWrite x y valid) s
      (s.after (s.coordWrite (s.withXy (x.toNat + 8 * y.toNat + 64 * b2n valid)))) := by
  have hexec := actLive_eq s
    (fun s => s.cmdWrite .glbCoord [] (s.withXy (x.toNat + 8 * y.toNat + 64 * b2n valid))) hready.1
  rw [State.cmdWrite_eq hreach] at hexec
  exact hexec

/-- The fields of GLB_COORD after its X, Y and XY_VALID were stored and ports and rings have worked. -/
theorem PortWork.fieldOf_coord {u : State} (h : PortWork (s.setRaw .glbCoord [] (s.withXy code)) u) {lo w : Nat}
    (h64 : lo + w ≤ 64) : fieldOf (u.rawReg .glbCoord []) lo w = fieldOf (s.withXy code) lo w := by
  rw [h.rawReg_eq (by decide), State.rawReg_setRaw_same, fieldOf_mod _ _ _ 64 h64]

end Sys2Proof.Machine
end

section
/-! The obligation of R34. -/
namespace Sys2Proof
open Machine Claim

/-- Settles O57: the three outcomes of the write; what it sets off in the rings keeps the register of the coordinates. -/
theorem coordinateWrites : Obligations.CoordinateWrites := by
  intro x y valid s hready hreach
  dsimp only
  have hcode : x.toNat + 8 * y.toNat + 64 * b2n valid < 128 := by
    have := b2n_lt_two valid
    omega
  have hdoes := does_glbCoordXyWrite hready hreach x y valid
  simp only [ne_eq, ← State.xyCode_eq_iff]
  generalize x.toNat + 8 * y.toNat + 64 * b2n valid = code at hcode hdoes ⊢
  have hrole : fieldOf (s.withXy code) 12 2 = fieldOf (s.rawReg .glbCoord []) 12 2 := s.fieldOf_withXy_ne code (by decide)
  have hxy := s.xy_withXy code hcode
  refine ⟨fun hsame hdown => ?_, fun hup => ?_, fun hnew hdown => ?_⟩
  · rw [State.coordWrite_same hrole hdown (hxy.trans hsame.symm), s.after_nil s hready.2] at hdoes
    exact hdoes
  · have hrefused := refuse_refused s (regAddr .glbCoord [])
    have htells := hrefused.1
    rw [State.coordWrite_up hrole hup, htells.after hready.2] at hdoes
    exact ⟨_, hdoes, hrefused, congrArg (fun n => (fieldOf n 4 3, fieldOf n 7 3, fieldOf n 10 1))
      (htells.rawReg_eq (r := .glbCoord) (idx := []) (by decide))⟩
  · have hwork := (PortWork.refl (s.setRaw .glbCoord [] (s.withXy code))).ringsEval true
    rw [State.coordWrite_new hrole hdown (fun hsame => hnew (hsame.symm.trans hxy)), hxy] at hdoes
    exact ⟨_, hdoes, (hwork.fieldOf_coord (by decide)).trans hxy,
      (hwork.fieldOf_coord (by decide)).trans (s.fieldOf_withXy_ne code (by decide)),
      (hwork.fieldOf_coord (by decide)).trans hrole, hwork.tiles, hwork.mem⟩

end Sys2Proof
end

section
/-! SUPPORT. Writes that a command makes of one register (R468), and what they do to GLB_MODE (R555) and GC_SET (R530). -/
namespace Sys2Proof.Machine
open Claim

variable {s : State}

/-- A command that writes a register which an access reaches does what a software write of that register does. -/
theorem actLive_cmdWrite {r : RegName} {idx : List Nat} (hready : s.ready) (hreach : s.reaches r idx) (v : Nat) :
    actLive s (fun s => s.cmdWrite r idx v) = .next (s.after (s.regWrite r idx v)) := by
  rw [actLive_eq s _ hready.1, State.cmdWrite_eq hreach]

/-- A refused write owes nothing. -/
theorem State.after_refuse (hready : s.ready) (addr : Nat) : s.after (s.refuse addr) = s.refuse addr :=
  (refuse_refused s addr).1.after hready.2

/-- An effect that leaves what is owed and the queue as they were is all that its command does. -/
theorem State.after_eq_self (hready : s.ready) {u : State} (htodo : u.todo = s.todo) (hpending : u.pending = s.pending) :
    s.after u = u := by
  rw [s.after_nil u (htodo.trans hready.2), ← hpending]

/-- A write by access codes changes the one register. -/
theorem State.onlyReg_swWrite (s : State) (r : RegName) (idx : List Nat) (v : Nat) : s.onlyReg (s.swWrite r idx v) r idx :=
  ⟨rfl, fun _ _ hne => s.rawReg_setRaw_ne _ hne⟩

/-! ### GLB_MODE -/

theorem does_glbModeWrite (hready : s.ready) (hreach : s.reaches .glbMode []) (v : Word) :
    Does (.glbModeWrite v) s (s.after (s.modeWrite v.toNat)) := actLive_cmdWrite hready hreach v.toNat

/-- The model's search of the tiles decides whether an image requires deterministic mode. -/
theorem State.determNeeded_iff (s : State) : s.determNeeded = true ↔ needsDeterm s := by
  simp only [State.determNeeded, needsDeterm, bitOf, List.any_eq_true, Bool.and_eq_true, Bool.or_eq_true, beq_iff_eq,
    and_comm]

/-- DETERM would be cleared under an image that requires it. -/
theorem State.modeWrite_needed {v : Nat}
    (h : s.on F.GLB_MODE_DETERM [] = true ∧ v.testBit 0 = false ∧ needsDeterm s) :
    s.modeWrite v = s.refuse (regAddr .glbMode []) := by
  obtain ⟨hon, hclear, hneeded⟩ := h
  rw [State.modeWrite, if_pos ⟨hon, by rw [bitOf, hclear]; rfl, s.determNeeded_iff.mpr hneeded⟩]

/-- Every other write goes by the register's access code. -/
theorem State.modeWrite_free {v : Nat}
    (h : ¬(s.on F.GLB_MODE_DETERM [] = true ∧ v.testBit 0 = false ∧ needsDeterm s)) :
    s.modeWrite v = s.swWrite .glbMode [] v := by
  rw [State.modeWrite, if_neg]
  rintro ⟨hon, hclear, hneeded⟩
  exact h ⟨hon, by simpa only [bitOf, Bool.not_eq_true'] using hclear, s.determNeeded_iff.mp hneeded⟩

/-- A one-bit field at bit 0 is 1 exactly when that bit is set. -/
theorem fieldOf_zero_one_beq (n : Nat) : (fieldOf n 0 1 == 1) = n.testBit 0 := by
  have hfield : fieldOf n 0 1 = n % 2 := rfl
  rw [hfield, Nat.testBit_zero]
  rfl

/-- DETERM is RW, so a write by access codes leaves in it what was written. -/
theorem State.determ_swWrite (s : State) (v : Nat) :
    (s.swWrite .glbMode [] v).on F.GLB_MODE_DETERM [] = v.testBit 0 := by
  have hstored : s.swWrite .glbMode [] v = s.wr F.GLB_MODE_DETERM [] (fieldOf v 0 1) := rfl
  have hread : (s.swWrite .glbMode [] v).rd F.GLB_MODE_DETERM [] = fieldOf v 0 1 := by
    rw [hstored, State.rd_wr_same _ _ _ _ (by decide)]
    exact Nat.mod_eq_of_lt (fieldOf_lt v 0 1)
  rw [State.on, hread, fieldOf_zero_one_beq]

/-! ### GC_SET -/

theorem does_gcSetWrite (hready : s.ready) (hreach : s.reaches .gcSet []) (v : Word) :
    Does (.gcSetWrite v) s (s.after (s.gcSet v.toNat)) := actLive_cmdWrite hready hreach v.toNat

/-- A master that was never synchronised takes the count. -/
theorem State.gcSet_unsynced (hmaster : s.on F.GC_STATUS_MASTER [] = true)
    (hsynced : s.on F.GC_STATUS_EVER_SYNCED [] = false) (v : Word) : s.gcSet v.toNat = { s with count := v } := by
  rw [State.gcSet, if_pos ⟨hmaster, by rw [hsynced]; rfl⟩, BitVec.ofNat_toNat, BitVec.setWidth_eq]

/-- Any other switch refuses it. -/
theorem State.gcSet_refused
    (h : s.on F.GC_STATUS_MASTER [] = false ∨ s.on F.GC_STATUS_EVER_SYNCED [] = true) (v : Nat) :
    s.gcSet v = s.refuse (regAddr .gcSet []) := by
  rw [State.gcSet, if_neg]
  rintro ⟨hmaster, hsynced⟩
  rcases h with h | h
  · exact Bool.false_ne_true (h.symm.trans hmaster)
  · rw [h] at hsynced
    exact Bool.false_ne_true hsynced

end Sys2Proof.Machine
end

section
/-! The obligations of R530 and R555. -/
namespace Sys2Proof
open Machine Claim

/-- Settles O59: a refused write leaves every register but that of the error status; any other goes by the access code. -/
theorem determinismKept : Obligations.DeterminismKept := by
  intro v s hready hreach
  have hdoes := does_glbModeWrite hready hreach v
  refine ⟨rfl, fun hon hclear hneeded => ?_, fun hfree => ?_⟩
  · have hrefused := refuse_refused s (regAddr .glbMode [])
    rw [State.modeWrite_needed ⟨hon, hclear, hneeded⟩, State.after_refuse hready] at hdoes
    exact ⟨_, hdoes, hrefused, hrefused.1.rawReg_eq (by decide)⟩
  · rw [State.modeWrite_free hfree,
      State.after_eq_self hready (s.swWrite_todo _ _ _) (s.swWrite_pending _ _ _)] at hdoes
    exact ⟨_, hdoes, s.onlyReg_swWrite .glbMode [] v.toNat, s.determ_swWrite v.toNat⟩

/-- Settles O35: the count is loaded, or the write is refused, which touches no count. -/
theorem globalCountSet : Obligations.GlobalCountSet := by
  intro v s hready hreach
  have hdoes := does_gcSetWrite hready hreach v
  refine ⟨fun hmaster hsynced => ?_, fun hother => ?_⟩
  · rw [State.gcSet_unsynced hmaster hsynced, State.after_eq_self (u := { s with count := v }) hready rfl rfl] at hdoes
    exact hdoes
  · have hrefused := refuse_refused s (regAddr .gcSet [])
    have hcount : (s.refuse (regAddr .gcSet [])).count = s.count := by rw [hrefused.1.1]
    rw [State.gcSet_refused hother, State.after_refuse hready] at hdoes
    exact ⟨_, hdoes, hrefused, hcount⟩

end Sys2Proof
end

section
/-! SUPPORT. What drives the output pins (R601), and what loading a JTAG instruction does. -/
namespace Sys2Proof.Machine
open Claim

variable {s : State}

/-- While RESET_N is low the loaded instruction is the one that acts. -/
theorem State.jtagActs_low (hlow : s.sys.resetN = true) : s.jtagActs = s.sys.jtagIr := by
  simp [State.jtagActs, hlow]

/-- While RESET_N is high no instruction that takes the pins acts. -/
theorem State.jtagActs_high (hhigh : s.sys.resetN = false) : s.jtagActs ∉ [0, 3, 4, 5] := by
  unfold State.jtagActs
  split
  · decide
  · next hnot => simpa [hhigh] using hnot

theorem State.pinMode_eq_ite (s : State) :
    s.pinMode = if s.jtagActs = 0 ∨ s.jtagActs = 3 ∨ s.jtagActs = 4 then 1 else if s.jtagActs = 5 then 2 else 0 := by
  unfold State.pinMode
  split <;> simp_all

/-- The instruction that acts decides what drives the pins. -/
theorem State.pinMode_eq_driver (s : State) : s.pinMode = driver s.sys := by
  rw [s.pinMode_eq_ite, driver]
  cases hreset : s.sys.resetN with
  | true => simp [State.jtagActs_low hreset]
  | false =>
    have hfree := State.jtagActs_high hreset
    simp only [List.mem_cons, List.not_mem_nil, or_false, not_or] at hfree
    simp [hfree]

/-- A powered device shows what drives its pins where that differs from before. -/
theorem State.pinsFrom_driver {t : State} (hpower : t.sys.power = true) (s : State) :
    t.pinsFrom (driver s.sys) = { t with outbox := t.outbox ++ pinsSeen s t } := by
  rw [State.pinsFrom, pinsSeen, State.pinMode_eq_driver]
  by_cases hsame : driver t.sys = driver s.sys
  · rw [if_neg fun h => h.2 hsame, if_pos hsame, List.append_nil]
  · rw [if_pos ⟨hpower, hsame⟩, if_neg hsame]
    rfl

/-- A loaded instruction shifts the register that the instruction it acts as selects. -/
theorem State.jtagLoad_shifts (hpower : s.sys.power = true) (op bits : Nat) :
    shifts s (s.jtagLoad op bits) op (State.jtagActs { s with sys := { s.sys with jtagIr := op } }) bits := by
  unfold State.jtagLoad
  dsimp only
  rw [s.pinMode_eq_driver, State.pinsFrom_driver (by simpa using hpower)]
  exact rfl

/-- IDCODE is no test instruction: it acts as itself whether or not RESET_N is low. -/
theorem State.jtagActs_idcode (hir : s.sys.jtagIr = 1) : s.jtagActs = 1 := by
  simp [State.jtagActs, hir]

/-- A command that loads an instruction of a powered device. -/
theorem actPowered_jtagLoad (hpower : s.sys.power = true) (htodo : s.todo = []) (op bits : Nat) :
    actPowered s (fun s => s.jtagLoad op bits) = .next (s.jtagLoad op bits) := by
  have hload := State.jtagLoad_shifts hpower op bits
  refine actPowered_next s _ hpower ?_ ?_
  · rw [hload]
    exact htodo
  · rw [hload]

/-! ### The identity -/

/-- The fields of the identity of a four-bit revision. -/
theorem idcode_fields (revision : Nat) (h : revision < 16) :
    let code := revision * 2 ^ 28 + 0x2048 * 2 ^ 12 + 0xB47
    code < 2 ^ 32 ∧ code / 2 % 2 ^ 11 = 0x5A3 ∧ code % 2 = 1 ∧ (revision = 0 → code = 0x02048B47) := by
  dsimp only
  omega

theorem does_idcode (hpower : s.sys.power = true) (htodo : s.todo = []) :
    Does .idcode s (s.jtagLoad 1 idcode) := actPowered_jtagLoad hpower htodo 1 idcode

/-- R492: the board view shows the revision at index 2. -/
theorem State.boardView_revision (s : State) : s.boardView[2]? = some (BitVec.ofNat 8 Config.revision) := by
  simp only [State.boardView, leBytes_succ, leBytes_zero, List.cons_append, List.nil_append]
  rfl

end Sys2Proof.Machine
end

section
/-! The obligation of R602. -/
namespace Sys2Proof
open Machine Claim

/-- Settles O56: IDCODE acts as itself, so the identity leaves; its fields are those of a four-bit revision. -/
theorem identityCode : Obligations.IdentityCode := by
  intro s hpower htodo
  dsimp only
  have hshifts := State.jtagLoad_shifts hpower 1 idcode
  rw [State.jtagActs_idcode rfl] at hshifts
  obtain ⟨hbits, hmaker, hone, hzero⟩ := idcode_fields Config.revision (by decide)
  exact ⟨⟨_, does_idcode hpower htodo, hshifts⟩, hbits, hmaker, hone, hzero, s.boardView_revision⟩

end Sys2Proof
end
